-- ==== Sys2Proof/Word.lean ====
section
/-! DEFINITION. The machine's word types (R3, R6) and their plainest arithmetic. -/

namespace Sys2Proof

/-- One byte of memory. -/
abbrev Byte := BitVec 8

/-- A 32-bit lane or uniform register (R199). -/
abbrev W32 := BitVec 32

/-- A 64-bit register of the device, address or mask (R25, R152). -/
abbrev W64 := BitVec 64

/-- Bits [lo + n − 1 : lo] of a number (R3, R6). -/
def bitsAt (x lo n : Nat) : Nat := x / 2 ^ lo % 2 ^ n

/-- ⌈a / b⌉. -/
def ceilDiv (a b : Nat) : Nat := (a + b - 1) / b

end Sys2Proof
end

