-- ==== Sys2Proof/Syntax.lean ====
section
/-! DEFINITION. The whole syntax: one constructor per row of the opcode table.

Encoded instructions carry the fields that R261 and R266 to R271 give their format, as the raw bits
of each field; `sp` is the S bit (R265), `pred` the PRED field (R267), `l` the L bit (R263).
The other constructors are the device's steps (spec/95_what_each_step_holds.md); their operands name
what an outside party or an engine supplies to the step. -/

namespace Sys2Proof

/-- Clause header (R261). -/
structure Hdr where
  len : BitVec 6
  setb : BitVec 4
  seta : BitVec 4
  wait : BitVec 12
  deriving DecidableEq, Repr

/-- VA and VU formats (R266). -/
structure VA where
  sp : BitVec 1
  pred : BitVec 2
  b : BitVec 6
  a : BitVec 6
  d : BitVec 6
  deriving DecidableEq, Repr

/-- Fields of VNOT, VABS, VMOV, FNEG, FABS, FCLASS and others (R312). -/
structure VUn where
  sp : BitVec 1
  pred : BitVec 2
  a : BitVec 6
  d : BitVec 6
  deriving DecidableEq, Repr

/-- Fields of VCMP, VCMP_VU, FCMP, FCMP_VU (R315). -/
structure VCmpF where
  sp : BitVec 1
  pred : BitVec 2
  b : BitVec 6
  a : BitVec 6
  c : BitVec 3
  d : BitVec 3
  deriving DecidableEq, Repr

/-- Fields of VMOV_MBS (R354). -/
structure MbsF where
  sp : BitVec 1
  n : BitVec 2
  a : BitVec 6
  deriving DecidableEq, Repr

/-- Fields of VMOV_MBG (R354). -/
structure MbgF where
  sp : BitVec 1
  n : BitVec 2
  d : BitVec 6
  deriving DecidableEq, Repr

/-- Fields of VLI (R312). -/
structure VliF where
  sp : BitVec 1
  pred : BitVec 2
  j : BitVec 6
  i : BitVec 6
  d : BitVec 6
  deriving DecidableEq, Repr

/-- Fields of VCLZ, VCTZ, VFFS, VPOPC (R314). -/
structure CntF where
  sp : BitVec 1
  pred : BitVec 2
  w : BitVec 3
  a : BitVec 6
  d : BitVec 6
  deriving DecidableEq, Repr

/-- Fields of FRND, REDU (R319). -/
structure OpF where
  sp : BitVec 1
  pred : BitVec 2
  o : BitVec 3
  a : BitVec 6
  d : BitVec 6
  deriving DecidableEq, Repr

/-- Fields of CVT_TO_F32 (R322). -/
structure CvtToF where
  sp : BitVec 1
  pred : BitVec 2
  t : BitVec 4
  i : BitVec 2
  a : BitVec 6
  d : BitVec 6
  deriving DecidableEq, Repr

/-- Fields of CVT_FROM_F32 (R323). -/
structure CvtFromF where
  sp : BitVec 1
  pred : BitVec 2
  o : BitVec 3
  t : BitVec 3
  a : BitVec 6
  d : BitVec 6
  deriving DecidableEq, Repr

/-- Fields of CVT_INT (R324). -/
structure CvtIntF where
  sp : BitVec 1
  pred : BitVec 2
  y : BitVec 3
  x : BitVec 3
  a : BitVec 6
  d : BitVec 6
  deriving DecidableEq, Repr

/-- Fields of CVT_F16_F8 (R325). -/
structure CvtF8F where
  sp : BitVec 1
  pred : BitVec 2
  o : BitVec 2
  h : BitVec 1
  w : BitVec 1
  e : BitVec 1
  f : BitVec 1
  a : BitVec 6
  d : BitVec 6
  deriving DecidableEq, Repr

/-- Fields of PACK2 (R326). -/
structure Pack2F where
  sp : BitVec 1
  pred : BitVec 2
  o : BitVec 3
  t : BitVec 1
  a : BitVec 6
  d : BitVec 6
  deriving DecidableEq, Repr

/-- Fields of PACK4 (R326). -/
structure Pack4F where
  sp : BitVec 1
  pred : BitVec 2
  o : BitVec 3
  t : BitVec 1
  tlo : BitVec 1
  a : BitVec 6
  d : BitVec 6
  deriving DecidableEq, Repr

/-- Fields of UNPK (R327). -/
structure UnpkF where
  sp : BitVec 1
  pred : BitVec 2
  j : BitVec 2
  o : BitVec 1
  y : BitVec 3
  a : BitVec 6
  d : BitVec 6
  deriving DecidableEq, Repr

/-- Fields of PK6, UPK6 (R328). -/
structure Pk6F where
  sp : BitVec 1
  pred : BitVec 2
  j : BitVec 2
  a : BitVec 6
  d : BitVec 6
  deriving DecidableEq, Repr

/-- Fields of CBSET (R329). -/
structure CbsetF where
  sp : BitVec 1
  pred : BitVec 2
  a : BitVec 6
  deriving DecidableEq, Repr

/-- Fields of CBENC (R329). -/
structure CbencF where
  sp : BitVec 1
  pred : BitVec 2
  n : BitVec 3
  a : BitVec 6
  d : BitVec 6
  deriving DecidableEq, Repr

/-- Fields of VOTE (R332). -/
structure VoteF where
  sp : BitVec 1
  pred : BitVec 2
  o : BitVec 2
  a : BitVec 3
  d : BitVec 6
  deriving DecidableEq, Repr

/-- Fields of BCAST (R331). -/
structure BcastF where
  sp : BitVec 1
  pred : BitVec 2
  k : BitVec 6
  a : BitVec 6
  d : BitVec 6
  deriving DecidableEq, Repr

/-- Fields of LANEI (R331). -/
structure LaneiF where
  sp : BitVec 1
  pred : BitVec 2
  d : BitVec 6
  deriving DecidableEq, Repr

/-- Fields of SCAN (R333). -/
structure ScanF where
  sp : BitVec 1
  pred : BitVec 2
  e : BitVec 1
  o : BitVec 3
  a : BitVec 6
  d : BitVec 6
  deriving DecidableEq, Repr

/-- Fields of PAND, POR, PXOR (R334). -/
structure PredF where
  sp : BitVec 1
  pred : BitVec 2
  b : BitVec 3
  a : BitVec 3
  d : BitVec 3
  deriving DecidableEq, Repr

/-- Fields of PNOT, PMOV (R334). -/
structure PredUnF where
  sp : BitVec 1
  pred : BitVec 2
  a : BitVec 3
  d : BitVec 3
  deriving DecidableEq, Repr

/-- 16-bit parcel (R271). -/
structure NF where
  a : BitVec 5
  d : BitVec 6
  deriving DecidableEq, Repr

/-- UA format (R266). -/
structure UA where
  b : BitVec 8
  a : BitVec 8
  d : BitVec 8
  deriving DecidableEq, Repr

/-- Fields of UCMP (R299). -/
structure UCmpF where
  b : BitVec 8
  a : BitVec 8
  c : BitVec 4
  k : BitVec 2
  deriving DecidableEq, Repr

/-- Fields of USEL (R299). -/
structure USelF where
  b : BitVec 6
  k : BitVec 2
  a : BitVec 6
  d : BitVec 8
  deriving DecidableEq, Repr

/-- Fields of UMOV, UCLZ, UPOPC (R298). -/
structure UUn where
  a : BitVec 8
  d : BitVec 8
  deriving DecidableEq, Repr

/-- UI format (R266). -/
structure UI where
  i : BitVec 16
  d : BitVec 8
  deriving DecidableEq, Repr

/-- Fields of RDPM (R301). -/
structure RdpmF where
  d : BitVec 8
  deriving DecidableEq, Repr

/-- Fields of BRA, BRX (R288). -/
structure BraF where
  o : BitVec 19
  g : BitVec 1
  n : BitVec 3
  deriving DecidableEq, Repr

/-- Fields of BRAK (R288). -/
structure BrakF where
  o : BitVec 19
  g : BitVec 1
  k : BitVec 2
  deriving DecidableEq, Repr

/-- Fields of CALL (R288). -/
structure CallF where
  o : BitVec 19
  c : BitVec 4
  deriving DecidableEq, Repr

/-- Fields of JMPI, RET (R289). -/
structure JmpF where
  c : BitVec 4
  deriving DecidableEq, Repr

/-- Fields of EXIT (R287). -/
structure ExitF where
  n : BitVec 3
  deriving DecidableEq, Repr

/-- Fields of YIELDD, SLEEP (R296). -/
structure DelayF where
  o : BitVec 19
  e : BitVec 4
  deriving DecidableEq, Repr

/-- Fields of WAITMEM (R294). -/
structure WaitmemF where
  e : BitVec 1
  v : BitVec 6
  c : BitVec 4
  deriving DecidableEq, Repr

/-- Fields of BAR, BARA (R292). -/
structure BarF where
  v : BitVec 6
  x : BitVec 1
  b : BitVec 4
  deriving DecidableEq, Repr

/-- Fields of BARW (R292). -/
structure BarwF where
  b : BitVec 4
  deriving DecidableEq, Repr

/-- Fields of TRAP (R297). -/
structure TrapF where
  n : BitVec 19
  deriving DecidableEq, Repr

/-- Fields of LDG_REG, STG_REG (R338). -/
structure MemReg where
  sp : BitVec 1
  pred : BitVec 2
  l : BitVec 1
  n : BitVec 6
  b : BitVec 6
  d : BitVec 6
  z : BitVec 2
  deriving DecidableEq, Repr

/-- Fields of LDG_SX_REG (R338). -/
structure MemSxReg where
  sp : BitVec 1
  pred : BitVec 2
  l : BitVec 1
  n : BitVec 6
  b : BitVec 6
  d : BitVec 6
  z : BitVec 1
  deriving DecidableEq, Repr

/-- Fields of LDG_IMM, STG_IMM (R338). -/
structure MemImm where
  sp : BitVec 1
  pred : BitVec 2
  l : BitVec 1
  i : BitVec 6
  b : BitVec 6
  d : BitVec 6
  z : BitVec 2
  deriving DecidableEq, Repr

/-- Fields of LDG_SX_IMM (R338). -/
structure MemSxImm where
  sp : BitVec 1
  pred : BitVec 2
  l : BitVec 1
  i : BitVec 6
  b : BitVec 6
  d : BitVec 6
  z : BitVec 1
  deriving DecidableEq, Repr

/-- Fields of LDSP, STSP (R339). -/
structure SpF where
  sp : BitVec 1
  pred : BitVec 2
  l : BitVec 1
  n : BitVec 6
  i : BitVec 6
  d : BitVec 6
  z : BitVec 2
  deriving DecidableEq, Repr

/-- Fields of LDSP_SX (R339). -/
structure SpSxF where
  sp : BitVec 1
  pred : BitVec 2
  l : BitVec 1
  n : BitVec 6
  i : BitVec 6
  d : BitVec 6
  z : BitVec 1
  deriving DecidableEq, Repr

/-- Fields of ATOM, RED (R340). -/
structure AtomF where
  sp : BitVec 1
  c : BitVec 2
  l : BitVec 1
  n : BitVec 6
  b : BitVec 6
  d : BitVec 6
  o : BitVec 4
  deriving DecidableEq, Repr

/-- Fields of ATSP (R340). -/
structure AtspF where
  sp : BitVec 1
  c : BitVec 2
  l : BitVec 1
  n : BitVec 6
  i : BitVec 6
  d : BitVec 6
  o : BitVec 4
  deriving DecidableEq, Repr

/-- Fields of PREF (R343). -/
structure PrefF where
  sp : BitVec 1
  pred : BitVec 2
  l : BitVec 1
  n : BitVec 6
  b : BitVec 6
  deriving DecidableEq, Repr

/-- Fields of FENCE (R344). -/
structure FenceF where
  sp : BitVec 1
  g : BitVec 2
  k : BitVec 2
  t : BitVec 3
  deriving DecidableEq, Repr

/-- Fields of FWAIT (R345). -/
structure FwaitF where
  sp : BitVec 1
  t : BitVec 3
  deriving DecidableEq, Repr

/-- Fields of WAITC (R346). -/
structure WaitcF where
  sp : BitVec 1
  v : BitVec 6
  c : BitVec 3
  deriving DecidableEq, Repr

/-- Fields of SPMAP (R347). -/
structure SpmapF where
  sp : BitVec 1
  b : BitVec 6
  r : BitVec 4
  deriving DecidableEq, Repr

/-- Fields of SPFILL, SPWB (R348). -/
structure RegionLF where
  sp : BitVec 1
  l : BitVec 1
  b : BitVec 6
  g : BitVec 1
  r : BitVec 4
  deriving DecidableEq, Repr

/-- Fields of SPINV (R348). -/
structure RegionF where
  sp : BitVec 1
  b : BitVec 6
  g : BitVec 1
  r : BitVec 4
  deriving DecidableEq, Repr

/-- Fields of CPY, CHAIN (R349). -/
structure CpyF where
  sp : BitVec 1
  l : BitVec 1
  b : BitVec 6
  deriving DecidableEq, Repr

/-- Fields of MBSET_SEND, MBSET_RECV, MBSET_ROUTE (R353). -/
structure MbsetF where
  sp : BitVec 1
  a : BitVec 6
  n : BitVec 2
  deriving DecidableEq, Repr

/-- Fields of MBSET_LOCAL (R353). -/
structure SafeF where
  sp : BitVec 1
  deriving DecidableEq, Repr

/-- Fields of MBPOLL (R353). -/
structure MbpollF where
  sp : BitVec 1
  k : BitVec 2
  n : BitVec 2
  deriving DecidableEq, Repr

/-- Fields of COLL (R355). -/
structure CollF where
  sp : BitVec 1
  l : BitVec 1
  g : BitVec 2
  r : BitVec 1
  e : BitVec 1
  b : BitVec 6
  deriving DecidableEq, Repr

/-- Fields of AFOR (R358). -/
structure AforF where
  g : BitVec 2
  c : BitVec 1
  k : BitVec 4
  a : BitVec 6
  x : BitVec 3
  deriving DecidableEq, Repr

/-- Fields of ANEXT (R358). -/
structure AnextF where
  x : BitVec 3
  deriving DecidableEq, Repr

/-- Fields of ALDQ, ASTQ (R358). -/
structure AldqF where
  i : BitVec 12
  q : BitVec 2
  x : BitVec 3
  deriving DecidableEq, Repr

/-- Fields of ASET (R358). -/
structure AsetF where
  i : BitVec 12
  a : BitVec 6
  x : BitVec 3
  deriving DecidableEq, Repr

/-- Fields of AINC (R358). -/
structure AincF where
  i : BitVec 12
  a : BitVec 6
  f : BitVec 1
  x : BitVec 3
  deriving DecidableEq, Repr

/-- Fields of ASIG (R358). -/
structure AsigF where
  g : BitVec 2
  c : BitVec 1
  k : BitVec 4
  deriving DecidableEq, Repr

/-- Fields of MZERO (R373). -/
structure RegnF where
  r : BitVec 7
  deriving DecidableEq, Repr

/-- Fields of MLD, MST (R371). -/
structure MemTileF where
  b : BitVec 6
  g : BitVec 2
  l : BitVec 1
  e : BitVec 1
  c : BitVec 1
  r : BitVec 7
  deriving DecidableEq, Repr

/-- Fields of MMASK (R370). -/
structure MmaskF where
  d : BitVec 6
  deriving DecidableEq, Repr

/-- Fields of MMA (R367). -/
structure MmaF where
  b : BitVec 6
  a : BitVec 6
  t : BitVec 3
  r : BitVec 7
  deriving DecidableEq, Repr

/-- Fields of MML (R369). -/
structure MmlF where
  k : BitVec 6
  l : BitVec 6
  t : BitVec 3
  r : BitVec 7
  deriving DecidableEq, Repr

/-- Fields of MSCA (R373). -/
structure MscaF where
  b : BitVec 6
  a : BitVec 6
  r : BitVec 7
  deriving DecidableEq, Repr

/-- Fields of MCVT (R372). -/
structure McvtF where
  o : BitVec 3
  d : BitVec 6
  t : BitVec 3
  r : BitVec 7
  deriving DecidableEq, Repr

/-- Fields of DLD, DST (R382). -/
structure DMemF where
  sp : BitVec 1
  l : BitVec 1
  b : BitVec 6
  a : BitVec 5
  x : BitVec 6
  deriving DecidableEq, Repr

/-- Fields of DFROMV (R383). -/
structure DfromvF where
  sp : BitVec 1
  b : BitVec 6
  a : BitVec 5
  t : BitVec 2
  deriving DecidableEq, Repr

/-- Fields of DTOV (R384). -/
structure DtovF where
  sp : BitVec 1
  r : BitVec 3
  k : BitVec 1
  t : BitVec 2
  a : BitVec 5
  x : BitVec 6
  deriving DecidableEq, Repr

/-- Fields of DMOV, DNRM (R385). -/
structure D2F where
  sp : BitVec 1
  a : BitVec 5
  x : BitVec 6
  deriving DecidableEq, Repr

/-- Fields of DADD, DSUB, DMIX, DHAD, DPROJ, DREFL (R385). -/
structure D3F where
  sp : BitVec 1
  b : BitVec 6
  a : BitVec 5
  x : BitVec 6
  deriving DecidableEq, Repr

/-- Fields of DSCL, DSETN (R388). -/
structure DNormF where
  sp : BitVec 1
  b : BitVec 6
  x : BitVec 6
  deriving DecidableEq, Repr

/-- Fields of DDOT, DDOTF (R390). -/
structure DDotF where
  sp : BitVec 1
  r : BitVec 3
  b : BitVec 6
  a : BitVec 5
  x : BitVec 6
  deriving DecidableEq, Repr

/-- Fields of DTEST (R389). -/
structure DtestF where
  sp : BitVec 1
  c : BitVec 2
  a : BitVec 5
  k : BitVec 2
  deriving DecidableEq, Repr

/-- A run of bytes, lowest address first. -/
abbrev Bytes := List (BitVec 8)

/-- What the links have brought for a collective: for each peer, the bytes it sent (R73). -/
abbrev Parts := List (Nat × List (BitVec 8))

/-- One failure found by training or self-test (R16). -/
inductive TestFailure where
  | cluster (n : Nat)
  | slice (n : Nat)
  | lodraLane (link lane : Nat)
  | hbmChannel (c : Nat)
  | otherSram
  deriving DecidableEq, Repr

/-- A firmware image and its Ed25519 signature (R19). -/
structure FwImage where
  stage : Nat
  part : Nat
  bytes : Bytes
  sig : Bytes
  deriving DecidableEq, Repr

/-- A management message (R89). -/
structure MgmtMsg where
  mseq : BitVec 64
  resv : BitVec 48
  command : Bytes
  payload : Bytes
  signature : Bytes
  deriving DecidableEq, Repr

/-- What an IEEE 1588 message says (R78): times are the master's, in ns. A two-step Sync carries none that counts. -/
inductive PtpKind where
  | sync (twoStep : Bool) (origin : BitVec 64)
  | followUp (origin : BitVec 64)
  | delayResp (receive : BitVec 64)
  | other
  deriving DecidableEq, Repr

/-- An IEEE 1588 message at the management address (R78): its UDP port, its master, its sequence number. -/
structure PtpMsg where
  port : Nat
  master : BitVec 64
  seq : BitVec 16
  kind : PtpKind
  deriving DecidableEq, Repr

/-- The place of a RoCEv2 packet in its message (R79). -/
inductive RoceForm where
  | first | middle | last | only
  deriving DecidableEq, Repr

/-- Addressing of a RoCEv2 packet (R79). -/
structure RoceHdr where
  src : BitVec 128
  qpn : Nat
  srcQp : Nat
  psn : BitVec 24
  form : RoceForm := .only
  deriving DecidableEq, Repr

/-- What a NAK says (R79, R80). -/
inductive NakKind where
  | sequence | invalidRequest | remoteAccess | other
  deriving DecidableEq, Repr

/-- A NAK of a queue pair (R79). -/
structure RoceNak where
  h : RoceHdr
  kind : NakKind
  deriving DecidableEq, Repr

/-- The range of an RDMA WRITE message: its first virtual address and its length in bytes, which a first packet states (R79). -/
structure RdmaRange where
  va : BitVec 64
  len : Nat
  deriving DecidableEq, Repr

/-- A step of key agreement: a secure association made or ended, by a holder of a connectivity association key (R76). -/
structure MkaMsg where
  live : Bool
  cak : BitVec 256
  deriving DecidableEq, Repr

/-- What a good frame carries to a configured address (R76 to R79). -/
inductive Delivery where
  | echo (src : BitVec 128) (data : Bytes)
  | neighbour (src : BitVec 128)
  | ptp (m : PtpMsg)
  | mgmt (port : Nat) (m : MgmtMsg)
  | rdmaWrite (h : RoceHdr) (rkey : BitVec 32) (range : RdmaRange) (data : Bytes)
  | rdmaRead (h : RoceHdr) (rkey : BitVec 32) (va : BitVec 64) (len : Nat)
  | send (h : RoceHdr) (data : Bytes)
  | roceAck (h : RoceHdr)
  | roceNak (n : RoceNak)
  | readResponse (h : RoceHdr) (data : Bytes)
  | roceUnsupported (h : RoceHdr)
  | other
  deriving DecidableEq, Repr

/-- A frame at the host port (R76, R77). -/
structure Frame where
  secured : Bool
  mka : Bool
  icvOk : Bool
  /-- its length in bytes, which the MTU limits -/
  len : Nat
  dst : BitVec 128
  what : Delivery
  deriving DecidableEq, Repr

/-- A 16-byte doorbell of a context (R81). -/
structure Doorbell where
  ctx : Nat
  kind : BitVec 8
  lq : BitVec 8
  logn : BitVec 8
  resv : BitVec 8
  tail : BitVec 32
  base : BitVec 64
  deriving DecidableEq, Repr

/-- A ROUTE of a far end (R69): the device and context it comes from, the device and context it names, its job tag and
class; the far end's index and reservation, and the hop that refuses there, if any. -/
structure PeerRoute where
  device : Nat
  ctx : Nat
  toDevice : Nat
  toCtx : Nat
  job : Nat
  cls : Nat
  index : Nat
  robn : Nat
  refusedHop : Option Nat
  deriving DecidableEq, Repr

/-- A link packet: the system header of R55 and its data slots. -/
structure SysPkt where
  ddev : Nat
  sdev : Nat
  srt : Nat
  sep : Nat
  route : Nat
  cls : Nat
  fm : Bool
  seq : Nat
  op : Nat
  addr : Nat
  akq : Bool
  data : Bytes
  deriving DecidableEq, Repr

/-- A link flit (R53) as its receiver has it: its 256 bytes, byte i in bits [8i+7:8i], and what the FEC found under it. -/
structure LinkFlit where
  image : BitVec 2048
  corrected : Nat
  uncorrectable : Nat
  deriving DecidableEq, Repr

/-- A server instance (R95): class 0 to 4, engine instance, context, and route for LINK. -/
structure SrvRef where
  cls : Nat
  inst : Nat
  ctx : Nat
  route : Nat
  deriving DecidableEq, Repr


/-- One constructor per row of the opcode table, the device's steps first. -/
inductive Instr where
  /-- R15. Power-on or a full reset puts the device in bring-up state REG, holds compute in reset and starts the regulators. -/
  | powerOnReset (powerOn : Bool)
  /-- R15. The regulators of VB0 to VB3 and then VC0 to VC3 come up, and the device moves from REG to TIME, where the postmark starts and the host port lanes train. -/
  | regulatorsStarted
  /-- R15. A regulator fault sets VDSTAT.FAULT and, during bring-up, sends the device to YELLOW with FAILCODE 1. -/
  | regulatorFault (domain : Nat)
  /-- R15. Every host port lane has trained, and the device moves from TIME to TEST whether or not IEEE 1588 lock has been reached. -/
  | hostPortLanesTrained
  /-- R15. A host port lane fails training: it is taken out of the port, FAILCODE is 5, and the device goes to YELLOW with management traffic on the lowest lane that trained. -/
  | hostLaneTrainingFailure (lanes : List Nat)
  /-- R14. IEEE 1588 lock is reached: the first lock before ready sets the postmark to grandmaster time, later locks resume rate slewing within 200 ppm, and PMLOCK reads 1. -/
  | ieee1588Lock (time : BitVec 64)
  /-- R14. IEEE 1588 lock is lost, the postmark runs on the local reference, and BSTAT.PMLOCK reads 0. -/
  | ieee1588LockLoss
  /-- R16. SRAM BIST, Lodra training and HBM training finish, and each failure is resolved by the outcome table, giving MEAS or YELLOW. -/
  | selfTestComplete (failures : List TestFailure)
  /-- R19. The firmware images are read, their signatures verified and the measurement chain M extended, giving READY, or YELLOW on a failed signature. -/
  | firmwareMeasurement (images : List FwImage)
  /-- R15. A bring-up state exceeds its time limit and the device goes to YELLOW with FAILCODE 2. -/
  | bringupStateTimeout
  /-- R12. VCq settles at a raised voltage, so a partition's faster clock may start at its next step boundary. -/
  | voltageSettled (quadrant : Nat)
  /-- R21. A verified partition image replaces the old one: the partition's contexts are pre-empted and resume on the new image, and M is recomputed. -/
  | partitionFirmwareUpdate (part : Nat) (image : FwImage)
  /-- R21. One HBM channel is retrained, with its requests held for at most 2 ms, uncharged, and its contents kept. -/
  | hbmChannelRetraining (channel : Nat)
  /-- R21. One lane of a link is recalibrated while the link runs on 7 lanes and flits are still charged at the nominal time. -/
  | lodraLaneRecalibration (link lane : Nat)
  /-- R21. One host port lane is recalibrated, with transmission held for at most 20 µs and frames buffered. -/
  | hostPortLaneRecalibration (lane : Nat)
  /-- R24. A cluster or slice is drained, its state moves to a free spare and the spare takes its logical number, or the remap is refused when no spare is free. -/
  | spareRemap (isSlice : Bool) (unit : Nat)
  /-- R90. CONFIG subfunction 0 returns status and the diagnostic report. -/
  | configStatusRead (m : MgmtMsg)
  /-- R90. CONFIG subfunction 1 checks a signed set of masked register writes against every field rule on the resulting state and applies all of them in order, or none. -/
  | configRegisterWriteSet (m : MgmtMsg)
  /-- R25. CONFIG subfunction 2 returns the values at a list of register addresses, with zero for unnamed addresses. -/
  | configRegisterRead (m : MgmtMsg)
  /-- R90. CONFIG subfunction 3 stores a signed firmware chunk, and the last chunk triggers verification of the image. -/
  | configFirmwareLoad (m : MgmtMsg)
  /-- R15. CONFIG subfunction 4 retrains any failed host lanes, enters TEST from YELLOW and counts in RETRIES. -/
  | configRetest (m : MgmtMsg)
  /-- R90. CONFIG subfunction 5 resets the device to REG. -/
  | configReset (m : MgmtMsg)
  /-- R20. CONFIG subfunction 6 returns an attestation report over the nonce, postmark, IDENT, image digests, M and partition table, signed with the identity key. -/
  | configAttestation (m : MgmtMsg)
  /-- R79. CONFIG subfunction 7 creates or destroys a RoCE queue pair with its fixed peer address, peer queue pair and starting PSNs. -/
  | configQueuePair (m : MgmtMsg)
  /-- R91. A signed METERSET raises one franking meter of a context to a new value, and refuses a lower value with status 3. -/
  | meterset (m : MgmtMsg)
  /-- R94. Clearing CTXCFGn.VALID force-halts and discards the context's teams, unbinds its routes, revokes its leases, discards its unstarted commands and frees its servers. -/
  | contextDestroy (ctx : Nat)
  /-- R42. A partition table write moves only empty units and completes after every router has loaded its new confinement entries. -/
  | partitionTableChange (part : Nat)
  /-- R171. An SGMASK change holds the affected lookups, writes back and invalidates the ways that leave a mask, then applies the new masks at every L1 and slice. -/
  | wayMaskChange (group : Nat) (old : BitVec 64)
  /-- R103. Enabling or changing a server template, or widening SVUMASK, is admitted only within every class bound and slot limit, and an accepted change applies to each instance under R104. -/
  | serverTemplateChange (ctx cls : Nat)
  /-- R110. Clearing CTXCFGn.LEND recalls each LENT home cluster and returns each LENDABLE one to OWNED. -/
  | lendClear (ctx : Nat)
  /-- R111. Binding or unbinding a hardware queue keeps every other ring with its queue; an unbound queue's untaken commands complete with status 9. -/
  | hardwareQueueBind (queue : Nat)
  /-- R168. A TINV write invalidates one page or every page of a context's translations, or is refused with TINVST.REFUSED when it meets a lease that is not FREE. -/
  | tinv (value : BitVec 64)
  /-- R246. Setting DBGCFGn.TRCEN clears WRITTEN and LOST and starts trace writes into the bound buffer. -/
  | traceEnable (ctx : Nat)
  /-- R258. A DSEL write snapshots the selected PVR, mapping, result-table entry, path, group slot or uniform register into DRD0 to DRD7 in one cycle. -/
  | dsel (value : BitVec 64)
  /-- R255. A DRESUME write resumes the named debug-stopped paths, or clears their stop in a saved image, writing a kind-7 record for each. -/
  | dresume (value : BitVec 64)
  /-- R259. A DCLR write clears the histogram and stall-reason counters of one quarter. -/
  | dclr (value : BitVec 64)
  /-- R76. A host port frame is checked under MACsec and its IPv6 destination, then dropped and counted, or delivered to its address. -/
  | ethernetFrame (f : Frame)
  /-- R76. An IEEE 802.1X MKA frame takes part in key agreement from the stored connectivity association key. -/
  | mkaFrame (m : MkaMsg)
  /-- R77. An ICMPv6 echo request to a configured address is answered. -/
  | icmpv6Echo (src dst : BitVec 128) (data : Bytes)
  /-- R77. A neighbour discovery message for a configured address is answered. -/
  | neighbourDiscovery (src target : BitVec 128)
  /-- R78. An IEEE 1588 message at the management address is timestamped at the PHY and used to discipline the postmark as a slave-only clock. -/
  | ptpMessage (m : PtpMsg)
  /-- R80. An RDMA WRITE is placed in device memory when its R_Key names a live lease with host access that holds the range, and is NAKed otherwise. -/
  | rdmaWrite (h : RoceHdr) (rkey : BitVec 32) (range : RdmaRange) (data : Bytes)
  /-- R191. An RDMA READ reads device memory at the home slices in queue-pair order after the same lease check. -/
  | rdmaRead (h : RoceHdr) (rkey : BitVec 32) (va : BitVec 64) (len : Nat)
  /-- R81. A RoCE SEND on queue pair 0 delivers a 16-byte doorbell to the sorting office after the queue pair's earlier writes, and on any other queue pair is NAKed. -/
  | send (h : RoceHdr) (data : Bytes)
  /-- R79. A RoCE ACK frees acknowledged packets of a queue pair. -/
  | roceAck (h : RoceHdr)
  /-- R79. A RoCE NAK for a sequence error starts a go-back-N retransmission. -/
  | roceNak (n : RoceNak)
  /-- R79. 100 µs without acknowledgement starts a go-back-N retransmission on the queue pair. -/
  | retransmissionTimeout (qpn : Nat)
  /-- R79. An IEEE 802.1Qbb pause on PFCPRI holds transmission while HPCFG.PFCEN is 1. -/
  | pfcPause (prio : BitVec 3) (ns : Nat)
  /-- R81. A set-ring doorbell binds an empty queue's command and completion rings within live leases and zeroes head, tail and completion count. -/
  | setRing (d : Doorbell)
  /-- R81. An advance-tail doorbell moves the tail forward within 2^k slots of the head, exposing commands, or is refused. -/
  | advanceTail (d : Doorbell)
  /-- R81. A reset-ring doorbell waits for every taken command of the ring to complete and holds later advance-tail doorbells. -/
  | resetRing (d : Doorbell)
  /-- R81. Once the taken commands have completed, untaken commands complete with status 9 and head is set to the tail as it stood. -/
  | resetRingComplete (queue : Nat)
  /-- R84. The sorting office copies the next exposed slot, runs checks 1 to 4 on that copy, and submits the command or completes it with the first failing status. -/
  | commandTake (queue : Nat)
  /-- R117. LAUNCH reads and checks its grid descriptor and binds its leases to the grid. -/
  | launch (cmd : Nat)
  /-- R118. At the first instant its edges have room or data and its leases are LIVE, a LAUNCH takes its edge counts and its grid joins the hardware queue. -/
  | launchStart (cmd : Nat)
  /-- R88. COPYH copies between device and host memory by RDMA over a queue pair, then releases at SYSTEM and adds to its semaphore. -/
  | copyh (cmd : Nat)
  /-- R155. LEASE places and zeroes frames over the context's DRAM channels and writes the leaves, with the lease in MAKING. -/
  | lease (cmd : Nat)
  /-- R163. A lease's frames are placed and its leaves written, so it becomes LIVE and LEASE completes with its R_Key. -/
  | leaseLive (ctx num : Nat)
  /-- R88. RELEASE drains a lease until its bound grids end (mode 0), or revokes it at once (mode 1). -/
  | release (cmd : Nat)
  /-- R87. SIGNAL sets or adds to one of the context's 256 semaphores. -/
  | signal (cmd : Nat)
  /-- R87. WAITSEM holds every later command of its ring until the semaphore reaches the value or the timeout passes. -/
  | waitsem (cmd : Nat)
  /-- R87. A WAITSEM's timeout expires and it completes with status 5. -/
  | waitsemTimeout (cmd : Nat)
  /-- R118. EDGE creates an edge queue of S slots, or starts destroying one. -/
  | edge (cmd : Nat)
  /-- R118. No started or waiting LAUNCH names an edge being destroyed any longer, and EDGE destroy completes. -/
  | edgeDestroyComplete (cmd : Nat)
  /-- R69. ROUTE asks to bind a route with a peer context, or to unbind one with its unbind option. -/
  | route (cmd : Nat) (peer : Option PeerRoute)
  /-- R69. A ROUTE with no matching ROUTE within 10 ms is refused with a timeout status. -/
  | routeMatchTimeout (cmd : Nat)
  /-- R71. An unbinding route's in-flight requests complete or time out, and its servers, entries and reservations are freed. -/
  | routeDrainComplete (route : Nat)
  /-- R110. RECALL recalls the named home clusters and completes when every one of them is OWNED. -/
  | recall (cmd : Nat)
  /-- R113. READMETER writes the context's six meters and the postmark to a lease. -/
  | readmeter (cmd : Nat)
  /-- R35. A flit entering a router is checked for confinement and routed row then column under class priority. -/
  | flit (pkt : Nat)
  /-- R39. A request with no response 100 µs after issue ends with a network fault for the issuing group. -/
  | requestTimeout (pkt : Nat)
  /-- R46. A mailbox message reaching a core is accepted into its queue, answered full, or refused. -/
  | mailboxMessage (pkt : Nat)
  /-- R45. An accepted, full or refused response clears BUSY, schedules a retry, or sets GSR.MBR. -/
  | mailboxResponse (pkt : Nat)
  /-- R45. 64 network cycles after a full response, the message is injected again. -/
  | mailboxRetry (core slot n : Nat)
  /-- R156. A read-line request is served at its home slice, from L2 or by a channel burst. -/
  | readLine (pkt : Nat)
  /-- R172. An uncached line read is served from the channel without allocating in L2. -/
  | readLineUncached (pkt : Nat)
  /-- R156. A whole-line write is merged at the home slice and acknowledged. -/
  | writeLine (pkt : Nat)
  /-- R156. A masked write updates the bytes its mask selects at the home slice and is acknowledged. -/
  | maskedWrite (pkt : Nat)
  /-- R179. An atomic is performed single-copy atomically at the home slice and returns the old value. -/
  | atomicWithReturn (pkt : Nat)
  /-- R179. A reduction is performed atomically at the home slice and acknowledged. -/
  | reductionNoReturn (pkt : Nat)
  /-- R343. A prefetch request allocates the line in L2 when room allows and is acknowledged. -/
  | prefetchToL2 (pkt : Nat)
  /-- R157. A management invalidate-line packet invalidates a line, and a guest one is dropped with reason 5. -/
  | invalidateLine (pkt : Nat)
  /-- R173. A management zero-line packet writes zeros to a line as one burst. -/
  | zeroLine (pkt : Nat)
  /-- R180. Returned read data binds a load's value, completes a fill, or is dropped for a stale generation tag, and lowers the group's counter. -/
  | readData (pkt : Nat)
  /-- R180. A write acknowledgement performs a store or write-back and lowers its counter. -/
  | writeAcknowledgement (pkt : Nat)
  /-- R180. An atomic result writes the old value and performs the atomic. -/
  | atomicResult (pkt : Nat)
  /-- R63. An access-fault response gives the requesting group a class-3 late fault. -/
  | accessFault (pkt : Nat)
  /-- R57. A link data flit with good CRC and the next LSEQ is accepted, otherwise discarded with a replay request. -/
  | linkDataFlit (link : Nat) (flit : LinkFlit)
  /-- R56. An idle link flit returns credits and LACK. -/
  | linkIdleFlit (link : Nat) (flit : LinkFlit)
  /-- R57. A replay request makes the transmitter resend go-back-N from LACK + 1. -/
  | replayRequest (link : Nat) (flit : LinkFlit)
  /-- R57. 8 replay requests in a row without LACK advancing start a retraining of the link. -/
  | linkRetrain (link : Nat)
  /-- R57. Retraining ends within 300 µs, dropping a failed lane, or marking the link down. -/
  | linkRetrainComplete (link : Nat) (lanes : BitVec 8)
  /-- R71. A link goes down, its strands leave each route's live count, and a route with no live strand faults its requests. -/
  | linkDown (link : Nat)
  /-- R71. A link returns and its strands become live again. -/
  | linkReturn (link : Nat)
  /-- R63. A remote request is checked against the named route entry, translated under the local context's leases, and passed to the grid. -/
  | remoteRequest (p : SysPkt)
  /-- R66. An ACK packet marks every packet of the flow up to its SEQ as performed at the source. -/
  | ack (p : SysPkt)
  /-- R66. 1 µs after the oldest unacknowledged packet performed, the destination sends an ACK. -/
  | ackTimer (flow : Nat)
  /-- R67. A remote request with no ACK within LCFG.FTO µs faults its group, and the source sends FRESET. -/
  | flowTimeout (pkt : Nat)
  /-- R67. FRESET discards the flow's held packets and moves its base SEQ. -/
  | freset (p : SysPkt)
  /-- R73. A HOIST reaching the coordinator counts a peer as hoisted, sends GO when every peer has hoisted, or ABORT on an instance mismatch. -/
  | hoist (p : SysPkt)
  /-- R73. GO moves a waiting peer's collective instance to RUN. -/
  | go (p : SysPkt)
  /-- R73. ABORT raises collective-aborted with its reason in a waiting peer. -/
  | abort (p : SysPkt)
  /-- R74. WITHDRAW makes the coordinator stop counting a peer as hoisted. -/
  | withdraw (p : SysPkt)
  /-- R73. A peer's hoist timer reaches HTO (or HTO + 100 µs off the coordinator), aborting the instance with a hoist-timeout fault. -/
  | hoistTimeout (coll : Nat)
  /-- R73. Every transfer of a running instance is acknowledged, and the release and completion flag are made. -/
  | collectiveComplete (coll : Nat) (parts : Parts)
  /-- R99. Backlog appearing at an IDLE server instance keeps or refreshes its budget and deadline and makes it READY. -/
  | serverWake (srv : SrvRef)
  /-- R100. At a unit boundary the engine grants the READY instance with the earliest deadline, ties to the lower context. -/
  | arbitration (cls inst : Nat)
  /-- R99. A unit ends and its instance becomes READY, IDLE or stays CAPPED. -/
  | unitEnd (srv : SrvRef)
  /-- R99. The postmark reaches a CAPPED instance's release time and it becomes READY or IDLE. -/
  | cappedRelease (srv : SrvRef)
  /-- R108. A home cluster with LEND set has had no owner team resident or placeable for LENDDLY µs and becomes LENDABLE. -/
  | lendDelayExpiry (cluster : Nat)
  /-- R129. A cooperative pre-emption window ends and every named team still resident is force-halted. -/
  | cooperativeWindowExpiry (req : Nat)
  /-- R121. A round visits the partition's queues by weight, trying resume lists and queue heads under the resource check, back-fill and ageing. -/
  | distributorRound (part : Nat)
  /-- R124. A failing head's wait reaches AGE, and back-fill by other queues on its region is barred. -/
  | ageLimitReached (queue : Nat)
  /-- R131. Under a pending cooperative request, a group stops at a safe point or parked position and its state is saved once its counters drain. -/
  | cooperativeStop (core slot : Nat)
  /-- R132. A forced halt stops the named teams, resolves in-flight work into envelopes, and increments generation tags. -/
  | forcedHalt (team kind : Nat)
  /-- R133. All unexited groups have stopped, the team image is saved, and the team leaves the core, letting a recalled cluster reach OWNED. -/
  | teamOffCore (team : Nat)
  /-- R135. A hot core's youngest eligible team is force-halted and moved to the coolest passing core of its region. -/
  | hotSpotMigration (core : Nat)
  /-- R134. A group's watchdog count reaches 0 at an issue other than YIELDD, raising class 12 and ending the team. -/
  | watchdogExpiry
  /-- R337. A fault arriving after its instruction retired is raised at the path's next issue. -/
  | lateFault (core slot : Nat)
  /-- R139. A grid ends, by completion or by fault: its fault record is written, in-flight stores are waited for, edges are updated, and LAUNCH completes. -/
  | gridEnd (grid : Nat)
  /-- R287. When every group has exited and its slot has freed, the team completes and releases its resources, mailbox queues and bank. -/
  | teamComplete (team : Nat)
  /-- R198. A parked group's awaited event arrives and it rejoins the issue candidates in the next cycle. -/
  | groupUnpark (core slot : Nat)
  /-- R262. A clause's WAIT flags are no longer pending, so its first instruction may issue. -/
  | clauseEntry (core slot path : Nat)
  /-- R143. At each step boundary the partition's slew controller retires free reservations and grants pending requests under its ramp row and ceiling. -/
  | slewStepBoundary (part : Nat)
  /-- R146. A unit's droop detector trips, and its partition's clock skips one cycle in four for 64 cycles. -/
  | droopTrip (unit : Nat)
  /-- R146. The 64-cycle skip window after a droop trip ends. -/
  | droopSkipEnd (part : Nat)
  /-- R149. Every 10 µs a quadrant's controller samples its core sensors and steps TSTEP and the HOT marks. -/
  | thermalSample (quadrant : Nat) (temps : List Nat)
  /-- R166. An L2 TLB miss walks the shadow table on the unit's walker and installs the translation. -/
  | pageWalk (core ctx : Nat) (va : BitVec 64)
  /-- R173. The scrub engine takes the next frame, invalidates its cached lines and writes zeros to every line. -/
  | scrubFrame (part : Nat)
  /-- R173. A scrubbed frame's zero writes are acknowledged, and it returns to its channel's free pool. -/
  | scrubFrameComplete (part : Nat)
  /-- R294. A write at a watched line re-reads the word, and the path wakes and advances the epoch when its condition holds. -/
  | waitmemWake (core slot path : Nat)
  /-- R294. Every 64 µs, or every 1 µs without a watch, a parked WAITMEM re-reads its word. -/
  | waitmemRecheck (core slot path : Nat)
  /-- R295. The postmark reaches a SLEEP deadline and the path wakes. -/
  | sleepExpiry (core slot path : Nat)
  /-- R292. A barrier meets its count, waits for arrived groups' writes, advances epochs, flips phase, and unparks its waiters. -/
  | barrierRelease (team bar : Nat)
  /-- R181. A fence's covered accesses perform, L1 is invalidated for acquires, and the token completes. -/
  | fenceTakesEffect (core slot token : Nat)
  /-- R350. A chunk whose source bytes are read wins its reservation and COPY arbitration, is charged, and writes its destination. -/
  | copyChunk (core slot : Nat)
  /-- R350. A CPY or CHAIN's last write performs or is sent, lowering CPY, its flag count and freeing the slot. -/
  | copyComplete (core slot : Nat)
  /-- R364. The next instruction in a bank queue executes on the matrix engine. -/
  | matrixQueueTurn (core bank : Nat)
  /-- R242. The renormalising pipe finishes and writes a direction register's components and norm. -/
  | directionPipeEnd (core slot : Nat)
  /-- R203. A result stalled for register allocation is placed when a place frees. -/
  | registerAllocationRetry (core : Nat)
  /-- R304. A parked RACQ obtains E PVRs from the pool and sets GSR.EXT. -/
  | registerBlockGrant (core slot : Nat)
  /-- R363. A freed bank is given to a team whose groups park on MBANK. -/
  | matrixBankGrant (core : Nat)
  /-- R253. A path about to issue at an enabled breakpoint PC is debug-stopped under the register's scope. -/
  | breakpointMatch (core slot path : Nat)
  /-- R248. A trace record's write is acknowledged and WRITTEN is raised to count it. -/
  | traceWrittenUpdate (ctx : Nat)
  /-- R249. Every 2^SPER cycles each quarter with a group of the context writes a kind-5 sample record. -/
  | sample (core quarter : Nat)
  /-- R257. At each postmark multiple of 1000 ns every shared-resource counter is snapshotted. -/
  | counterSnapshot
  /-- R275. A path reaches at issue a parcel that is not an instruction, or a non-header word as a clause start, and raises class 1 with its trap code. -/
  | illegalInstruction (code : Nat)
  /-- R21. An HBM channel's retraining ends, within 2 ms, and the channel's held requests proceed. -/
  | hbmChannelRetrainingComplete (channel : Nat)
  /-- R21. A recalibrated Lodra lane returns, and the link leaves LSTAT state 5 and runs on 8 lanes again. -/
  | lodraLaneRecalibrationComplete (link lane : Nat)
  /-- R21. A host port lane's recalibration ends within 20 µs, and its buffered frames are transmitted. -/
  | hostPortLaneRecalibrationComplete (lane : Nat)
  /-- R88. An RDMA READ response from the host arrives on a queue pair and its data is placed for a host-to-device COPYH. -/
  | rdmaReadResponse (h : RoceHdr) (data : Bytes)
  /-- R79. The pause time of an IEEE 802.1Qbb pause on the honoured priority runs out, and transmission on that priority resumes. -/
  | pfcPauseExpiry
  /-- R25. A voltage domain returns to regulation after a fault, and its VDSTAT.GOOD bit reads 1 again. -/
  | voltageBackInRegulation (domain : Nat)
  /-- R261. Clause header giving WAIT flags, SETA, SETB and LEN. -/
  | clauseHeader (f : Hdr)
  /-- R312. Lane-wise 32-bit wrapping add. -/
  | vadd (f : VA)
  /-- R312. Lane-wise 32-bit wrapping subtract. -/
  | vsub (f : VA)
  /-- R312. Lane-wise low 32 bits of a product. -/
  | vmul (f : VA)
  /-- R312. Lane-wise high 32 bits of a signed product. -/
  | vmulhS32 (f : VA)
  /-- R312. Lane-wise a × b + d, low 32 bits. -/
  | vmad (f : VA)
  /-- R312. Lane-wise bitwise AND. -/
  | vand (f : VA)
  /-- R312. Lane-wise bitwise OR. -/
  | vor (f : VA)
  /-- R312. Lane-wise bitwise XOR. -/
  | vxor (f : VA)
  /-- R312. Lane-wise bitwise NOT. -/
  | vnot (f : VUn)
  /-- R313. Lane-wise shift left, 0 for shifts of 32 or more. -/
  | vshl (f : VA)
  /-- R313. Lane-wise logical shift right. -/
  | vshr (f : VA)
  /-- R313. Lane-wise arithmetic shift right. -/
  | vsar (f : VA)
  /-- R312. Lane-wise signed minimum. -/
  | vminS32 (f : VA)
  /-- R312. Lane-wise signed maximum. -/
  | vmaxS32 (f : VA)
  /-- R312. Lane-wise absolute value modulo 2^32. -/
  | vabs (f : VUn)
  /-- R312. Lane-wise signed saturating add. -/
  | vaddsS32 (f : VA)
  /-- R312. Lane-wise signed saturating subtract. -/
  | vsubsS32 (f : VA)
  /-- R315. Lane-wise integer compare into a predicate. -/
  | vcmp (f : VCmpF)
  /-- R315. Select a or b per active lane by the select predicate. -/
  | vsel (f : VA)
  /-- R312. Lane-wise register move. -/
  | vmov (f : VUn)
  /-- R354. Send a whole register as a mailbox message through MBSn. -/
  | vmovMbs (f : MbsF)
  /-- R354. Receive the oldest mailbox message of MBGn's queue into Vd. -/
  | vmovMbg (f : MbgF)
  /-- R312. Load a sign-extended 12-bit immediate into every written lane. -/
  | vli (f : VliF)
  /-- R313. Lane-wise unsigned bit-field extract. -/
  | vbfe (f : VA)
  /-- R313. Lane-wise bit-field insert into d. -/
  | vbfi (f : VA)
  /-- R314. Per-element leading-zero count. -/
  | vclz (f : CntF)
  /-- R314. Per-element trailing-zero count. -/
  | vctz (f : CntF)
  /-- R314. Per-element find-first-set. -/
  | vffs (f : CntF)
  /-- R314. Per-element population count. -/
  | vpopc (f : CntF)
  /-- R312. Signed 4 × 8-bit dot product added to d. -/
  | vdot4S8 (f : VA)
  /-- R306. VADD with a uniform S operand. -/
  | vaddVu (f : VA)
  /-- R306. VSUB with a uniform S operand. -/
  | vsubVu (f : VA)
  /-- R306. VMUL with a uniform S operand. -/
  | vmulVu (f : VA)
  /-- R306. VMULH.s32 with a uniform S operand. -/
  | vmulhS32Vu (f : VA)
  /-- R306. VMAD with a uniform S operand. -/
  | vmadVu (f : VA)
  /-- R306. VAND with a uniform S operand. -/
  | vandVu (f : VA)
  /-- R306. VOR with a uniform S operand. -/
  | vorVu (f : VA)
  /-- R306. VXOR with a uniform S operand. -/
  | vxorVu (f : VA)
  /-- R306. VSHL with a uniform S operand. -/
  | vshlVu (f : VA)
  /-- R306. VSHR with a uniform S operand. -/
  | vshrVu (f : VA)
  /-- R306. VSAR with a uniform S operand. -/
  | vsarVu (f : VA)
  /-- R306. VMIN.s32 with a uniform S operand. -/
  | vminS32Vu (f : VA)
  /-- R306. VMAX.s32 with a uniform S operand. -/
  | vmaxS32Vu (f : VA)
  /-- R306. VADDS.s32 with a uniform S operand. -/
  | vaddsS32Vu (f : VA)
  /-- R306. VSUBS.s32 with a uniform S operand. -/
  | vsubsS32Vu (f : VA)
  /-- R306. VCMP with a uniform S operand. -/
  | vcmpVu (f : VCmpF)
  /-- R306. VSEL with a uniform S operand. -/
  | vselVu (f : VA)
  /-- R306. VBFE with a uniform S operand. -/
  | vbfeVu (f : VA)
  /-- R306. VBFI with a uniform S operand. -/
  | vbfiVu (f : VA)
  /-- R306. VDOT4.s8 with a uniform S operand. -/
  | vdot4S8Vu (f : VA)
  /-- R317. FP32 add rounded .rn. -/
  | faddF32 (f : VA)
  /-- R317. FP32 subtract rounded .rn. -/
  | fsubF32 (f : VA)
  /-- R317. FP32 multiply rounded .rn. -/
  | fmulF32 (f : VA)
  /-- R317. Fused FP32 a × b + d rounded .rn. -/
  | faccF32 (f : VA)
  /-- R318. FP32 minimum with NaN-avoiding rules. -/
  | fminF32 (f : VA)
  /-- R318. FP32 maximum with NaN-avoiding rules. -/
  | fmaxF32 (f : VA)
  /-- R318. Flip the FP32 sign bit. -/
  | fneg (f : VUn)
  /-- R318. Clear the FP32 sign bit. -/
  | fabs (f : VUn)
  /-- R318. FP32 compare into a predicate. -/
  | fcmp (f : VCmpF)
  /-- R318. Write a one-hot FP32 class mask. -/
  | fclass (f : VUn)
  /-- R319. Multiply by 2^k with clamped k, rounded .rn. -/
  | fscale (f : VA)
  /-- R319. Round to an integral FP32 value in the mode given in B. -/
  | frnd (f : OpF)
  /-- R320. Two-term FP16 dot product into FP32 d, one rounding. -/
  | fdot2F16 (f : VA)
  /-- R320. Two-term BF16 dot product into FP32 d, one rounding. -/
  | fdot2Bf16 (f : VA)
  /-- R320. Packed FP16 add. -/
  | faddF16x2 (f : VA)
  /-- R320. Packed FP16 subtract. -/
  | fsubF16x2 (f : VA)
  /-- R320. Packed FP16 multiply. -/
  | fmulF16x2 (f : VA)
  /-- R320. Packed FP16 fused multiply-accumulate. -/
  | faccF16x2 (f : VA)
  /-- R320. Packed BF16 add. -/
  | faddBf16x2 (f : VA)
  /-- R320. Packed BF16 subtract. -/
  | fsubBf16x2 (f : VA)
  /-- R320. Packed BF16 multiply. -/
  | fmulBf16x2 (f : VA)
  /-- R320. Packed BF16 fused multiply-accumulate. -/
  | faccBf16x2 (f : VA)
  /-- R321. Correctly rounded reciprocal. -/
  | rcp (f : VUn)
  /-- R321. Correctly rounded reciprocal square root. -/
  | rsq (f : VUn)
  /-- R321. Correctly rounded square root. -/
  | sqrt (f : VUn)
  /-- R321. Correctly rounded 2^a. -/
  | exp2 (f : VUn)
  /-- R321. Correctly rounded log2 a. -/
  | log2 (f : VUn)
  /-- R321. Correctly rounded sin(πa). -/
  | sin (f : VUn)
  /-- R321. Correctly rounded cos(πa). -/
  | cos (f : VUn)
  /-- R321. Correctly rounded tanh a. -/
  | tanh (f : VUn)
  /-- R306. FADD.f32 with a uniform S operand. -/
  | faddF32Vu (f : VA)
  /-- R306. FSUB.f32 with a uniform S operand. -/
  | fsubF32Vu (f : VA)
  /-- R306. FMUL.f32 with a uniform S operand. -/
  | fmulF32Vu (f : VA)
  /-- R306. FACC.f32 with a uniform S operand. -/
  | faccF32Vu (f : VA)
  /-- R306. FMIN.f32 with a uniform S operand. -/
  | fminF32Vu (f : VA)
  /-- R306. FMAX.f32 with a uniform S operand. -/
  | fmaxF32Vu (f : VA)
  /-- R306. FCMP with a uniform S operand. -/
  | fcmpVu (f : VCmpF)
  /-- R306. FSCALE with a uniform S operand. -/
  | fscaleVu (f : VA)
  /-- R306. FDOT2.f16 with a uniform S operand. -/
  | fdot2F16Vu (f : VA)
  /-- R306. FDOT2.bf16 with a uniform S operand. -/
  | fdot2Bf16Vu (f : VA)
  /-- R306. FADD.f16x2 with a uniform S operand. -/
  | faddF16x2Vu (f : VA)
  /-- R306. FSUB.f16x2 with a uniform S operand. -/
  | fsubF16x2Vu (f : VA)
  /-- R306. FMUL.f16x2 with a uniform S operand. -/
  | fmulF16x2Vu (f : VA)
  /-- R306. FACC.f16x2 with a uniform S operand. -/
  | faccF16x2Vu (f : VA)
  /-- R306. FADD.bf16x2 with a uniform S operand. -/
  | faddBf16x2Vu (f : VA)
  /-- R306. FSUB.bf16x2 with a uniform S operand. -/
  | fsubBf16x2Vu (f : VA)
  /-- R306. FMUL.bf16x2 with a uniform S operand. -/
  | fmulBf16x2Vu (f : VA)
  /-- R306. FACC.bf16x2 with a uniform S operand. -/
  | faccBf16x2Vu (f : VA)
  /-- R322. Convert element i of a typed lane to FP32. -/
  | cvtToF32 (f : CvtToF)
  /-- R323. Convert FP32 to a typed element 0 by mode. -/
  | cvtFromF32 (f : CvtFromF)
  /-- R324. Convert between integer types, widening or saturating. -/
  | cvtInt (f : CvtIntF)
  /-- R325. Convert two elements between 16-bit and 8-bit floats. -/
  | cvtF16F8 (f : CvtF8F)
  /-- R326. Pack two FP32 registers into FP16 or BF16 halves. -/
  | pack2 (f : Pack2F)
  /-- R326. Pack four FP32 registers into 8-bit, 4-bit or LNS6 elements. -/
  | pack4 (f : Pack4F)
  /-- R327. Widen two narrow elements into a packed 16-bit pair. -/
  | unpk (f : UnpkF)
  /-- R328. Pack lane LNS6 codes into a stream segment of d. -/
  | pk6 (f : Pk6F)
  /-- R328. Unpack stream LNS6 elements into lanes. -/
  | upk6 (f : Pk6F)
  /-- R329. Load the group's 16-entry BF16 codebook from lanes 0 to 7. -/
  | cbset (f : CbsetF)
  /-- R329. Encode FP32 as a CB4 index in nibble n. -/
  | cbenc (f : CbencF)
  /-- R331. Read lane b of a into each member lane. -/
  | shfl (f : VA)
  /-- R331. Read one S-selected lane of a into each member lane. -/
  | shflVu (f : VA)
  /-- R332. Any, all or ballot of a predicate over member lanes. -/
  | vote (f : VoteF)
  /-- R331. Broadcast lane k of a to every written lane. -/
  | bcast (f : BcastF)
  /-- R331. Write each lane's index. -/
  | lanei (f : LaneiF)
  /-- R333. Reduce a over active member lanes in lane order. -/
  | redu (f : OpF)
  /-- R333. Inclusive or exclusive prefix combination over member lanes. -/
  | scan (f : ScanF)
  /-- R334. Predicate AND. -/
  | pand (f : PredF)
  /-- R334. Predicate OR. -/
  | por (f : PredF)
  /-- R334. Predicate XOR. -/
  | pxor (f : PredF)
  /-- R334. Predicate NOT. -/
  | pnot (f : PredUnF)
  /-- R334. Predicate move. -/
  | pmov (f : PredUnF)
  /-- R316. High 32 bits of an unsigned product. -/
  | vmulhZ32 (f : VA)
  /-- R316. Unsigned minimum. -/
  | vminZ32 (f : VA)
  /-- R316. Unsigned maximum. -/
  | vmaxZ32 (f : VA)
  /-- R316. Unsigned saturating add. -/
  | vaddsZ32 (f : VA)
  /-- R316. Unsigned saturating subtract. -/
  | vsubsZ32 (f : VA)
  /-- R316. Unsigned 4 × 8-bit dot product added to d. -/
  | vdot4Z8 (f : VA)
  /-- R316. Packed 16-bit wrapping add. -/
  | vaddI16x2 (f : VA)
  /-- R316. Packed 16-bit wrapping subtract. -/
  | vsubI16x2 (f : VA)
  /-- R316. Packed 16-bit low product. -/
  | vmulI16x2 (f : VA)
  /-- R316. Packed signed 16-bit minimum. -/
  | vminS16x2 (f : VA)
  /-- R316. Packed signed 16-bit maximum. -/
  | vmaxS16x2 (f : VA)
  /-- R316. Packed unsigned 16-bit minimum. -/
  | vminZ16x2 (f : VA)
  /-- R316. Packed unsigned 16-bit maximum. -/
  | vmaxZ16x2 (f : VA)
  /-- R316. Packed signed 16-bit saturating add. -/
  | vaddsS16x2 (f : VA)
  /-- R316. Packed signed 16-bit saturating subtract. -/
  | vsubsS16x2 (f : VA)
  /-- R316. Packed unsigned 16-bit saturating add. -/
  | vaddsZ16x2 (f : VA)
  /-- R316. Packed unsigned 16-bit saturating subtract. -/
  | vsubsZ16x2 (f : VA)
  /-- R316. Packed 8-bit wrapping add. -/
  | vaddI8x4 (f : VA)
  /-- R316. Packed 8-bit wrapping subtract. -/
  | vsubI8x4 (f : VA)
  /-- R316. Packed 8-bit low product. -/
  | vmulI8x4 (f : VA)
  /-- R316. Packed signed 8-bit minimum. -/
  | vminS8x4 (f : VA)
  /-- R316. Packed signed 8-bit maximum. -/
  | vmaxS8x4 (f : VA)
  /-- R316. Packed unsigned 8-bit minimum. -/
  | vminZ8x4 (f : VA)
  /-- R316. Packed unsigned 8-bit maximum. -/
  | vmaxZ8x4 (f : VA)
  /-- R316. Packed signed 8-bit saturating add. -/
  | vaddsS8x4 (f : VA)
  /-- R316. Packed signed 8-bit saturating subtract. -/
  | vsubsS8x4 (f : VA)
  /-- R316. Packed unsigned 8-bit saturating add. -/
  | vaddsZ8x4 (f : VA)
  /-- R316. Packed unsigned 8-bit saturating subtract. -/
  | vsubsZ8x4 (f : VA)
  /-- R306. VMULH.z32 with a uniform S operand. -/
  | vmulhZ32Vu (f : VA)
  /-- R306. VMIN.z32 with a uniform S operand. -/
  | vminZ32Vu (f : VA)
  /-- R306. VMAX.z32 with a uniform S operand. -/
  | vmaxZ32Vu (f : VA)
  /-- R306. VADDS.z32 with a uniform S operand. -/
  | vaddsZ32Vu (f : VA)
  /-- R306. VSUBS.z32 with a uniform S operand. -/
  | vsubsZ32Vu (f : VA)
  /-- R306. VDOT4.z8 with a uniform S operand. -/
  | vdot4Z8Vu (f : VA)
  /-- R306. VADD.i16x2 with a uniform S operand. -/
  | vaddI16x2Vu (f : VA)
  /-- R306. VSUB.i16x2 with a uniform S operand. -/
  | vsubI16x2Vu (f : VA)
  /-- R306. VMUL.i16x2 with a uniform S operand. -/
  | vmulI16x2Vu (f : VA)
  /-- R306. VMIN.s16x2 with a uniform S operand. -/
  | vminS16x2Vu (f : VA)
  /-- R306. VMAX.s16x2 with a uniform S operand. -/
  | vmaxS16x2Vu (f : VA)
  /-- R306. VMIN.z16x2 with a uniform S operand. -/
  | vminZ16x2Vu (f : VA)
  /-- R306. VMAX.z16x2 with a uniform S operand. -/
  | vmaxZ16x2Vu (f : VA)
  /-- R306. VADDS.s16x2 with a uniform S operand. -/
  | vaddsS16x2Vu (f : VA)
  /-- R306. VSUBS.s16x2 with a uniform S operand. -/
  | vsubsS16x2Vu (f : VA)
  /-- R306. VADDS.z16x2 with a uniform S operand. -/
  | vaddsZ16x2Vu (f : VA)
  /-- R306. VSUBS.z16x2 with a uniform S operand. -/
  | vsubsZ16x2Vu (f : VA)
  /-- R306. VADD.i8x4 with a uniform S operand. -/
  | vaddI8x4Vu (f : VA)
  /-- R306. VSUB.i8x4 with a uniform S operand. -/
  | vsubI8x4Vu (f : VA)
  /-- R306. VMUL.i8x4 with a uniform S operand. -/
  | vmulI8x4Vu (f : VA)
  /-- R306. VMIN.s8x4 with a uniform S operand. -/
  | vminS8x4Vu (f : VA)
  /-- R306. VMAX.s8x4 with a uniform S operand. -/
  | vmaxS8x4Vu (f : VA)
  /-- R306. VMIN.z8x4 with a uniform S operand. -/
  | vminZ8x4Vu (f : VA)
  /-- R306. VMAX.z8x4 with a uniform S operand. -/
  | vmaxZ8x4Vu (f : VA)
  /-- R306. VADDS.s8x4 with a uniform S operand. -/
  | vaddsS8x4Vu (f : VA)
  /-- R306. VSUBS.s8x4 with a uniform S operand. -/
  | vsubsS8x4Vu (f : VA)
  /-- R306. VADDS.z8x4 with a uniform S operand. -/
  | vaddsZ8x4Vu (f : VA)
  /-- R306. VSUBS.z8x4 with a uniform S operand. -/
  | vsubsZ8x4Vu (f : VA)
  /-- R317. FP32 add rounded toward zero. -/
  | faddF32Rz (f : VA)
  /-- R317. FP32 subtract rounded toward zero. -/
  | fsubF32Rz (f : VA)
  /-- R317. FP32 multiply rounded toward zero. -/
  | fmulF32Rz (f : VA)
  /-- R317. Fused FP32 multiply-accumulate rounded toward zero. -/
  | faccF32Rz (f : VA)
  /-- R317. FP32 add rounded toward +∞. -/
  | faddF32Ru (f : VA)
  /-- R317. FP32 subtract rounded toward +∞. -/
  | fsubF32Ru (f : VA)
  /-- R317. FP32 multiply rounded toward +∞. -/
  | fmulF32Ru (f : VA)
  /-- R317. Fused FP32 multiply-accumulate rounded toward +∞. -/
  | faccF32Ru (f : VA)
  /-- R317. FP32 add rounded toward −∞. -/
  | faddF32Rd (f : VA)
  /-- R317. FP32 subtract rounded toward −∞. -/
  | fsubF32Rd (f : VA)
  /-- R317. FP32 multiply rounded toward −∞. -/
  | fmulF32Rd (f : VA)
  /-- R317. Fused FP32 multiply-accumulate rounded toward −∞. -/
  | faccF32Rd (f : VA)
  /-- R318. Packed FP16 minimum. -/
  | fminF16x2 (f : VA)
  /-- R318. Packed FP16 maximum. -/
  | fmaxF16x2 (f : VA)
  /-- R318. Packed BF16 minimum. -/
  | fminBf16x2 (f : VA)
  /-- R318. Packed BF16 maximum. -/
  | fmaxBf16x2 (f : VA)
  /-- R306. FADD.f32.rz with a uniform S operand. -/
  | faddF32RzVu (f : VA)
  /-- R306. FSUB.f32.rz with a uniform S operand. -/
  | fsubF32RzVu (f : VA)
  /-- R306. FMUL.f32.rz with a uniform S operand. -/
  | fmulF32RzVu (f : VA)
  /-- R306. FACC.f32.rz with a uniform S operand. -/
  | faccF32RzVu (f : VA)
  /-- R306. FADD.f32.ru with a uniform S operand. -/
  | faddF32RuVu (f : VA)
  /-- R306. FSUB.f32.ru with a uniform S operand. -/
  | fsubF32RuVu (f : VA)
  /-- R306. FMUL.f32.ru with a uniform S operand. -/
  | fmulF32RuVu (f : VA)
  /-- R306. FACC.f32.ru with a uniform S operand. -/
  | faccF32RuVu (f : VA)
  /-- R306. FADD.f32.rd with a uniform S operand. -/
  | faddF32RdVu (f : VA)
  /-- R306. FSUB.f32.rd with a uniform S operand. -/
  | fsubF32RdVu (f : VA)
  /-- R306. FMUL.f32.rd with a uniform S operand. -/
  | fmulF32RdVu (f : VA)
  /-- R306. FACC.f32.rd with a uniform S operand. -/
  | faccF32RdVu (f : VA)
  /-- R306. FMIN.f16x2 with a uniform S operand. -/
  | fminF16x2Vu (f : VA)
  /-- R306. FMAX.f16x2 with a uniform S operand. -/
  | fmaxF16x2Vu (f : VA)
  /-- R306. FMIN.bf16x2 with a uniform S operand. -/
  | fminBf16x2Vu (f : VA)
  /-- R306. FMAX.bf16x2 with a uniform S operand. -/
  | fmaxBf16x2Vu (f : VA)
  /-- R271. 16-bit parcel form of VADD Vd, Vd, Va. -/
  | vaddN (f : NF)
  /-- R271. 16-bit parcel form of VSUB. -/
  | vsubN (f : NF)
  /-- R271. 16-bit parcel form of VMUL. -/
  | vmulN (f : NF)
  /-- R271. 16-bit parcel form of VAND. -/
  | vandN (f : NF)
  /-- R271. 16-bit parcel form of VOR. -/
  | vorN (f : NF)
  /-- R271. 16-bit parcel form of VXOR. -/
  | vxorN (f : NF)
  /-- R271. 16-bit parcel form of VSHL. -/
  | vshlN (f : NF)
  /-- R271. 16-bit parcel form of VSHR. -/
  | vshrN (f : NF)
  /-- R271. 16-bit parcel form of VSAR. -/
  | vsarN (f : NF)
  /-- R271. 16-bit parcel form of VMOV Vd, Va. -/
  | vmovN (f : NF)
  /-- R271. 16-bit parcel form of VMIN.s32. -/
  | vminS32N (f : NF)
  /-- R271. 16-bit parcel form of VMAX.s32. -/
  | vmaxS32N (f : NF)
  /-- R271. 16-bit parcel form of FADD.f32. -/
  | faddF32N (f : NF)
  /-- R271. 16-bit parcel form of FSUB.f32. -/
  | fsubF32N (f : NF)
  /-- R271. 16-bit parcel form of FMUL.f32. -/
  | fmulF32N (f : NF)
  /-- R271. 16-bit parcel form of FMAX.f32. -/
  | fmaxF32N (f : NF)
  /-- R298. Uniform wrapping add. -/
  | uadd (f : UA)
  /-- R298. Uniform wrapping subtract. -/
  | usub (f : UA)
  /-- R298. Uniform low 32-bit product. -/
  | umul (f : UA)
  /-- R298. Uniform high 32 bits of an unsigned product. -/
  | umulh (f : UA)
  /-- R298. Uniform a × b + d, low 32 bits. -/
  | umad (f : UA)
  /-- R298. Uniform bitwise AND. -/
  | uand (f : UA)
  /-- R298. Uniform bitwise OR. -/
  | uor (f : UA)
  /-- R298. Uniform bitwise XOR. -/
  | uxor (f : UA)
  /-- R298. Uniform shift left. -/
  | ushl (f : UA)
  /-- R298. Uniform logical shift right. -/
  | ushr (f : UA)
  /-- R298. Uniform arithmetic shift right. -/
  | usar (f : UA)
  /-- R298. Uniform signed minimum. -/
  | umin (f : UA)
  /-- R298. Uniform signed maximum. -/
  | umax (f : UA)
  /-- R299. Uniform compare into a K register. -/
  | ucmp (f : UCmpF)
  /-- R299. Uniform select by a K register. -/
  | usel (f : USelF)
  /-- R298. Uniform register move. -/
  | umov (f : UUn)
  /-- R298. Uniform leading-zero count. -/
  | uclz (f : UUn)
  /-- R298. Uniform population count. -/
  | upopc (f : UUn)
  /-- R298. Uniform bit-field extract. -/
  | ubfe (f : UA)
  /-- R300. Uniform 32-bit load through L1. -/
  | uld (f : UA)
  /-- R300. Uniform 32-bit store. -/
  | ust (f : UA)
  /-- R301. Load a sign-extended 16-bit immediate. -/
  | uli (f : UI)
  /-- R301. Set the upper 16 bits of an S register. -/
  | ulih (f : UI)
  /-- R301. Add a sign-extended immediate to an S register. -/
  | uaddi (f : UI)
  /-- R302. Read selected group, team, core, fault-record or counter state into an S register. -/
  | urds (f : UI)
  /-- R303. Write GSR or K0 to K3 from an S register. -/
  | uwrs (f : UI)
  /-- R304. Acquire the group's extended register block. -/
  | racq
  /-- R304. Release the group's extended register block. -/
  | rrel
  /-- R301. Read the 64-bit postmark into an even S pair. -/
  | rdpm (f : RdpmF)
  /-- R288. Branch when the condition holds on every lane of the path. -/
  | bra (f : BraF)
  /-- R288. Branch on a K register. -/
  | brak (f : BrakF)
  /-- R285. Divergent branch that splits a path by predicate. -/
  | brx (f : BraF)
  /-- R286. Rejoin child paths into their parent. -/
  | join
  /-- R288. Save the next clause address in an S pair and branch. -/
  | call (f : CallF)
  /-- R289. Indirect jump to the address in an S pair. -/
  | jmpi (f : JmpF)
  /-- R289. Return to the address in an S pair. -/
  | ret (f : JmpF)
  /-- R287. Remove lanes from the path, exiting the group when none remain. -/
  | exit (f : ExitF)
  /-- R296. Set the watchdog count and yield to a sibling path. -/
  | yieldd (f : DelayF)
  /-- R294. Park the path until a memory word equals or differs from Sv. -/
  | waitmem (f : WaitmemF)
  /-- R295. Park the path until a postmark deadline. -/
  | sleep (f : DelayF)
  /-- R292. Arrive at a team barrier and wait for its release. -/
  | bar (f : BarF)
  /-- R292. Arrive at a team barrier without waiting. -/
  | bara (f : BarF)
  /-- R292. Wait for the release of a barrier the group has arrived at. -/
  | barw (f : BarwF)
  /-- R297. No operation. -/
  | nop
  /-- R297. Raise fault class 16 with code n. -/
  | trap (f : TrapF)
  /-- R297. Debug-stop under BKSCOPE when DBGEN is set. -/
  | bkpt
  /-- R338. Zero-extending global load with register offset. -/
  | ldgReg (f : MemReg)
  /-- R338. Sign-extending global load with register offset. -/
  | ldgSxReg (f : MemSxReg)
  /-- R338. Global store with register offset. -/
  | stgReg (f : MemReg)
  /-- R338. Zero-extending global load with immediate offset. -/
  | ldgImm (f : MemImm)
  /-- R338. Sign-extending global load with immediate offset. -/
  | ldgSxImm (f : MemSxImm)
  /-- R338. Global store with immediate offset. -/
  | stgImm (f : MemImm)
  /-- R339. Zero-extending scratchpad load. -/
  | ldsp (f : SpF)
  /-- R339. Sign-extending scratchpad load. -/
  | ldspSx (f : SpSxF)
  /-- R339. Scratchpad store. -/
  | stsp (f : SpF)
  /-- R340. Global atomic with return at the home slice, at a scope. -/
  | atom (f : AtomF)
  /-- R340. Global reduction without return. -/
  | red (f : AtomF)
  /-- R340. Scratchpad atomic with return. -/
  | atsp (f : AtspF)
  /-- R343. Ask the home slices for L2 allocation of each lane's line. -/
  | pref (f : PrefF)
  /-- R344. Start a split acquire, release or acqrel fence bound to a token. -/
  | fence (f : FenceF)
  /-- R345. Wait until a token's fence has taken effect. -/
  | fwait (f : FwaitF)
  /-- R346. Park until an in-flight counter falls to a threshold. -/
  | waitc (f : WaitcF)
  /-- R347. Map a scratchpad region to a global range. -/
  | spmap (f : SpmapF)
  /-- R348. Fill the lines of a region or range. -/
  | spfill (f : RegionLF)
  /-- R348. Write back the dirty lines of a region or range. -/
  | spwb (f : RegionLF)
  /-- R348. Invalidate the lines of a region or range. -/
  | spinv (f : RegionF)
  /-- R349. Start an asynchronous copy on a copy slot. -/
  | cpy (f : CpyF)
  /-- R351. Start an asynchronous element stream through up to eight operations. -/
  | chain (f : CpyF)
  /-- R353. Set a mailbox send destination. -/
  | mbsetSend (f : MbsetF)
  /-- R353. Bind a mailbox receive register to a queue of the core. -/
  | mbsetRecv (f : MbsetF)
  /-- R353. Turn on the remote binding to a route. -/
  | mbsetRoute (f : MbsetF)
  /-- R353. Turn off the remote binding. -/
  | mbsetLocal (f : SafeF)
  /-- R353. Test whether a whole message waits in a receive queue. -/
  | mbpoll (f : MbpollF)
  /-- R355. Start a cross-device collective from a descriptor. -/
  | coll (f : CollF)
  /-- R358. Open an access-slice loop level. -/
  | afor (f : AforF)
  /-- R358. Close or repeat the innermost loop level. -/
  | anext (f : AnextF)
  /-- R358. Load a W-lane entry into an operand queue. -/
  | aldq (f : AldqF)
  /-- R358. Pop an operand queue entry and store it. -/
  | astq (f : AldqF)
  /-- R358. Set an affine register from an S pair and group number. -/
  | aset (f : AsetF)
  /-- R358. Add to an affine register. -/
  | ainc (f : AincF)
  /-- R358. Count earlier ASTQs on a completion flag. -/
  | asig (f : AsigF)
  /-- R358. End the access thread. -/
  | ahalt
  /-- R363. Acquire a matrix accumulator bank for the team. -/
  | mbank
  /-- R363. Free the team's bank after its queue drains. -/
  | mfree
  /-- R373. Zero a tile region. -/
  | mzero (f : RegnF)
  /-- R371. Load selected tile elements from memory. -/
  | mld (f : MemTileF)
  /-- R371. Store selected tile elements to memory. -/
  | mst (f : MemTileF)
  /-- R370. Set the bank's row, column and depth masks. -/
  | mmask (f : MmaskF)
  /-- R367. One masked tile-step of fragment products into a tile region. -/
  | mma (f : MmaF)
  /-- R369. A loop of up to 64 tile-steps from a loop word. -/
  | mml (f : MmlF)
  /-- R373. Add the scaled partial tile into a tile region. -/
  | msca (f : MscaF)
  /-- R372. Convert a tile region into V registers. -/
  | mcvt (f : McvtF)
  /-- R382. Load a direction image into a D register. -/
  | dld (f : DMemF)
  /-- R382. Store a D register's image. -/
  | dst (f : DMemF)
  /-- R383. Convert vector values into a direction. -/
  | dfromv (f : DfromvF)
  /-- R384. Write a direction's components to V registers. -/
  | dtov (f : DtovF)
  /-- R385. Copy a direction register. -/
  | dmov (f : D2F)
  /-- R385. Renormalised vector sum of two directions. -/
  | dadd (f : D3F)
  /-- R385. Renormalised vector difference of two directions. -/
  | dsub (f : D3F)
  /-- R386. Interpolate Dx toward Da by a weight. -/
  | dmix (f : D3F)
  /-- R385. Elementwise product of two directions. -/
  | dhad (f : D3F)
  /-- R388. Add to a direction's norm. -/
  | dscl (f : DNormF)
  /-- R388. Set a direction's norm code. -/
  | dsetn (f : DNormF)
  /-- R389. Read a direction's norm code into an S register. -/
  | dnrm (f : D2F)
  /-- R390. Cosine of two directions into an S register. -/
  | ddot (f : DDotF)
  /-- R390. Full dot product of two directions with norms. -/
  | ddotf (f : DDotF)
  /-- R385. Project a onto the direction of b. -/
  | dproj (f : D3F)
  /-- R385. Reflect a in the hyperplane orthogonal to b. -/
  | drefl (f : D3F)
  /-- R389. Test a direction's norm class into a K register. -/
  | dtest (f : DtestF)
  deriving DecidableEq, Repr

end Sys2Proof
end

