-- ==== Sys2Proof/Decode.lean ====
section
/-! DEFINITION. Decoding parcels (R260, R261, R266 to R274) and, after it, the encoder.

`decodeParcel` reads one parcel from a run of bytes and either names its instruction or refuses it
with the trap code of R275. Every field keeps the bits the format gives it; field values that an
instruction leaves undefined are refused by Sys2Proof/WellFormed.lean. -/

namespace Sys2Proof

def Hdr.ofWord (w : Nat) : Hdr :=
  ⟨BitVec.ofNat 6 (w / 67108864), BitVec.ofNat 4 (w / 4194304), BitVec.ofNat 4 (w / 262144), BitVec.ofNat 12 (w / 64)⟩

def Hdr.word (f : Hdr) : Nat :=
  f.len.toNat * 67108864 + f.setb.toNat * 4194304 + f.seta.toNat * 262144 + f.wait.toNat * 64

def VA.ofWord (w : Nat) : VA :=
  ⟨BitVec.ofNat 1 (w / 2147483648), BitVec.ofNat 2 (w / 536870912), BitVec.ofNat 6 (w / 8388608), BitVec.ofNat 6 (w / 131072), BitVec.ofNat 6 (w / 2048)⟩

def VA.word (f : VA) : Nat :=
  f.sp.toNat * 2147483648 + f.pred.toNat * 536870912 + f.b.toNat * 8388608 + f.a.toNat * 131072 + f.d.toNat * 2048

def VUn.ofWord (w : Nat) : VUn :=
  ⟨BitVec.ofNat 1 (w / 2147483648), BitVec.ofNat 2 (w / 536870912), BitVec.ofNat 6 (w / 131072), BitVec.ofNat 6 (w / 2048)⟩

def VUn.word (f : VUn) : Nat :=
  f.sp.toNat * 2147483648 + f.pred.toNat * 536870912 + f.a.toNat * 131072 + f.d.toNat * 2048

def VCmpF.ofWord (w : Nat) : VCmpF :=
  ⟨BitVec.ofNat 1 (w / 2147483648), BitVec.ofNat 2 (w / 536870912), BitVec.ofNat 6 (w / 8388608), BitVec.ofNat 6 (w / 131072), BitVec.ofNat 3 (w / 16384), BitVec.ofNat 3 (w / 2048)⟩

def VCmpF.word (f : VCmpF) : Nat :=
  f.sp.toNat * 2147483648 + f.pred.toNat * 536870912 + f.b.toNat * 8388608 + f.a.toNat * 131072 + f.c.toNat * 16384 + f.d.toNat * 2048

def MbsF.ofWord (w : Nat) : MbsF :=
  ⟨BitVec.ofNat 1 (w / 2147483648), BitVec.ofNat 2 (w / 8388608), BitVec.ofNat 6 (w / 131072)⟩

def MbsF.word (f : MbsF) : Nat :=
  f.sp.toNat * 2147483648 + f.n.toNat * 8388608 + f.a.toNat * 131072

def MbgF.ofWord (w : Nat) : MbgF :=
  ⟨BitVec.ofNat 1 (w / 2147483648), BitVec.ofNat 2 (w / 8388608), BitVec.ofNat 6 (w / 2048)⟩

def MbgF.word (f : MbgF) : Nat :=
  f.sp.toNat * 2147483648 + f.n.toNat * 8388608 + f.d.toNat * 2048

def VliF.ofWord (w : Nat) : VliF :=
  ⟨BitVec.ofNat 1 (w / 2147483648), BitVec.ofNat 2 (w / 536870912), BitVec.ofNat 6 (w / 8388608), BitVec.ofNat 6 (w / 131072), BitVec.ofNat 6 (w / 2048)⟩

def VliF.word (f : VliF) : Nat :=
  f.sp.toNat * 2147483648 + f.pred.toNat * 536870912 + f.j.toNat * 8388608 + f.i.toNat * 131072 + f.d.toNat * 2048

def CntF.ofWord (w : Nat) : CntF :=
  ⟨BitVec.ofNat 1 (w / 2147483648), BitVec.ofNat 2 (w / 536870912), BitVec.ofNat 3 (w / 8388608), BitVec.ofNat 6 (w / 131072), BitVec.ofNat 6 (w / 2048)⟩

def CntF.word (f : CntF) : Nat :=
  f.sp.toNat * 2147483648 + f.pred.toNat * 536870912 + f.w.toNat * 8388608 + f.a.toNat * 131072 + f.d.toNat * 2048

def OpF.ofWord (w : Nat) : OpF :=
  ⟨BitVec.ofNat 1 (w / 2147483648), BitVec.ofNat 2 (w / 536870912), BitVec.ofNat 3 (w / 8388608), BitVec.ofNat 6 (w / 131072), BitVec.ofNat 6 (w / 2048)⟩

def OpF.word (f : OpF) : Nat :=
  f.sp.toNat * 2147483648 + f.pred.toNat * 536870912 + f.o.toNat * 8388608 + f.a.toNat * 131072 + f.d.toNat * 2048

def CvtToF.ofWord (w : Nat) : CvtToF :=
  ⟨BitVec.ofNat 1 (w / 2147483648), BitVec.ofNat 2 (w / 536870912), BitVec.ofNat 4 (w / 33554432), BitVec.ofNat 2 (w / 8388608), BitVec.ofNat 6 (w / 131072), BitVec.ofNat 6 (w / 2048)⟩

def CvtToF.word (f : CvtToF) : Nat :=
  f.sp.toNat * 2147483648 + f.pred.toNat * 536870912 + f.t.toNat * 33554432 + f.i.toNat * 8388608 + f.a.toNat * 131072 + f.d.toNat * 2048

def CvtFromF.ofWord (w : Nat) : CvtFromF :=
  ⟨BitVec.ofNat 1 (w / 2147483648), BitVec.ofNat 2 (w / 536870912), BitVec.ofNat 3 (w / 67108864), BitVec.ofNat 3 (w / 8388608), BitVec.ofNat 6 (w / 131072), BitVec.ofNat 6 (w / 2048)⟩

def CvtFromF.word (f : CvtFromF) : Nat :=
  f.sp.toNat * 2147483648 + f.pred.toNat * 536870912 + f.o.toNat * 67108864 + f.t.toNat * 8388608 + f.a.toNat * 131072 + f.d.toNat * 2048

def CvtIntF.ofWord (w : Nat) : CvtIntF :=
  ⟨BitVec.ofNat 1 (w / 2147483648), BitVec.ofNat 2 (w / 536870912), BitVec.ofNat 3 (w / 67108864), BitVec.ofNat 3 (w / 8388608), BitVec.ofNat 6 (w / 131072), BitVec.ofNat 6 (w / 2048)⟩

def CvtIntF.word (f : CvtIntF) : Nat :=
  f.sp.toNat * 2147483648 + f.pred.toNat * 536870912 + f.y.toNat * 67108864 + f.x.toNat * 8388608 + f.a.toNat * 131072 + f.d.toNat * 2048

def CvtF8F.ofWord (w : Nat) : CvtF8F :=
  ⟨BitVec.ofNat 1 (w / 2147483648), BitVec.ofNat 2 (w / 536870912), BitVec.ofNat 2 (w / 134217728), BitVec.ofNat 1 (w / 67108864), BitVec.ofNat 1 (w / 33554432), BitVec.ofNat 1 (w / 16777216), BitVec.ofNat 1 (w / 8388608), BitVec.ofNat 6 (w / 131072), BitVec.ofNat 6 (w / 2048)⟩

def CvtF8F.word (f : CvtF8F) : Nat :=
  f.sp.toNat * 2147483648 + f.pred.toNat * 536870912 + f.o.toNat * 134217728 + f.h.toNat * 67108864 + f.w.toNat * 33554432 + f.e.toNat * 16777216 + f.f.toNat * 8388608 + f.a.toNat * 131072 + f.d.toNat * 2048

def Pack2F.ofWord (w : Nat) : Pack2F :=
  ⟨BitVec.ofNat 1 (w / 2147483648), BitVec.ofNat 2 (w / 536870912), BitVec.ofNat 3 (w / 16777216), BitVec.ofNat 1 (w / 8388608), BitVec.ofNat 6 (w / 131072), BitVec.ofNat 6 (w / 2048)⟩

def Pack2F.word (f : Pack2F) : Nat :=
  f.sp.toNat * 2147483648 + f.pred.toNat * 536870912 + f.o.toNat * 16777216 + f.t.toNat * 8388608 + f.a.toNat * 131072 + f.d.toNat * 2048

def Pack4F.ofWord (w : Nat) : Pack4F :=
  ⟨BitVec.ofNat 1 (w / 2147483648), BitVec.ofNat 2 (w / 536870912), BitVec.ofNat 3 (w / 33554432), BitVec.ofNat 1 (w / 16777216), BitVec.ofNat 1 (w / 8388608), BitVec.ofNat 6 (w / 131072), BitVec.ofNat 6 (w / 2048)⟩

def Pack4F.word (f : Pack4F) : Nat :=
  f.sp.toNat * 2147483648 + f.pred.toNat * 536870912 + f.o.toNat * 33554432 + f.t.toNat * 16777216 + f.tlo.toNat * 8388608 + f.a.toNat * 131072 + f.d.toNat * 2048

def UnpkF.ofWord (w : Nat) : UnpkF :=
  ⟨BitVec.ofNat 1 (w / 2147483648), BitVec.ofNat 2 (w / 536870912), BitVec.ofNat 2 (w / 134217728), BitVec.ofNat 1 (w / 67108864), BitVec.ofNat 3 (w / 8388608), BitVec.ofNat 6 (w / 131072), BitVec.ofNat 6 (w / 2048)⟩

def UnpkF.word (f : UnpkF) : Nat :=
  f.sp.toNat * 2147483648 + f.pred.toNat * 536870912 + f.j.toNat * 134217728 + f.o.toNat * 67108864 + f.y.toNat * 8388608 + f.a.toNat * 131072 + f.d.toNat * 2048

def Pk6F.ofWord (w : Nat) : Pk6F :=
  ⟨BitVec.ofNat 1 (w / 2147483648), BitVec.ofNat 2 (w / 536870912), BitVec.ofNat 2 (w / 8388608), BitVec.ofNat 6 (w / 131072), BitVec.ofNat 6 (w / 2048)⟩

def Pk6F.word (f : Pk6F) : Nat :=
  f.sp.toNat * 2147483648 + f.pred.toNat * 536870912 + f.j.toNat * 8388608 + f.a.toNat * 131072 + f.d.toNat * 2048

def CbsetF.ofWord (w : Nat) : CbsetF :=
  ⟨BitVec.ofNat 1 (w / 2147483648), BitVec.ofNat 2 (w / 536870912), BitVec.ofNat 6 (w / 131072)⟩

def CbsetF.word (f : CbsetF) : Nat :=
  f.sp.toNat * 2147483648 + f.pred.toNat * 536870912 + f.a.toNat * 131072

def CbencF.ofWord (w : Nat) : CbencF :=
  ⟨BitVec.ofNat 1 (w / 2147483648), BitVec.ofNat 2 (w / 536870912), BitVec.ofNat 3 (w / 8388608), BitVec.ofNat 6 (w / 131072), BitVec.ofNat 6 (w / 2048)⟩

def CbencF.word (f : CbencF) : Nat :=
  f.sp.toNat * 2147483648 + f.pred.toNat * 536870912 + f.n.toNat * 8388608 + f.a.toNat * 131072 + f.d.toNat * 2048

def VoteF.ofWord (w : Nat) : VoteF :=
  ⟨BitVec.ofNat 1 (w / 2147483648), BitVec.ofNat 2 (w / 536870912), BitVec.ofNat 2 (w / 8388608), BitVec.ofNat 3 (w / 131072), BitVec.ofNat 6 (w / 2048)⟩

def VoteF.word (f : VoteF) : Nat :=
  f.sp.toNat * 2147483648 + f.pred.toNat * 536870912 + f.o.toNat * 8388608 + f.a.toNat * 131072 + f.d.toNat * 2048

def BcastF.ofWord (w : Nat) : BcastF :=
  ⟨BitVec.ofNat 1 (w / 2147483648), BitVec.ofNat 2 (w / 536870912), BitVec.ofNat 6 (w / 8388608), BitVec.ofNat 6 (w / 131072), BitVec.ofNat 6 (w / 2048)⟩

def BcastF.word (f : BcastF) : Nat :=
  f.sp.toNat * 2147483648 + f.pred.toNat * 536870912 + f.k.toNat * 8388608 + f.a.toNat * 131072 + f.d.toNat * 2048

def LaneiF.ofWord (w : Nat) : LaneiF :=
  ⟨BitVec.ofNat 1 (w / 2147483648), BitVec.ofNat 2 (w / 536870912), BitVec.ofNat 6 (w / 2048)⟩

def LaneiF.word (f : LaneiF) : Nat :=
  f.sp.toNat * 2147483648 + f.pred.toNat * 536870912 + f.d.toNat * 2048

def ScanF.ofWord (w : Nat) : ScanF :=
  ⟨BitVec.ofNat 1 (w / 2147483648), BitVec.ofNat 2 (w / 536870912), BitVec.ofNat 1 (w / 67108864), BitVec.ofNat 3 (w / 8388608), BitVec.ofNat 6 (w / 131072), BitVec.ofNat 6 (w / 2048)⟩

def ScanF.word (f : ScanF) : Nat :=
  f.sp.toNat * 2147483648 + f.pred.toNat * 536870912 + f.e.toNat * 67108864 + f.o.toNat * 8388608 + f.a.toNat * 131072 + f.d.toNat * 2048

def PredF.ofWord (w : Nat) : PredF :=
  ⟨BitVec.ofNat 1 (w / 2147483648), BitVec.ofNat 2 (w / 536870912), BitVec.ofNat 3 (w / 8388608), BitVec.ofNat 3 (w / 131072), BitVec.ofNat 3 (w / 2048)⟩

def PredF.word (f : PredF) : Nat :=
  f.sp.toNat * 2147483648 + f.pred.toNat * 536870912 + f.b.toNat * 8388608 + f.a.toNat * 131072 + f.d.toNat * 2048

def PredUnF.ofWord (w : Nat) : PredUnF :=
  ⟨BitVec.ofNat 1 (w / 2147483648), BitVec.ofNat 2 (w / 536870912), BitVec.ofNat 3 (w / 131072), BitVec.ofNat 3 (w / 2048)⟩

def PredUnF.word (f : PredUnF) : Nat :=
  f.sp.toNat * 2147483648 + f.pred.toNat * 536870912 + f.a.toNat * 131072 + f.d.toNat * 2048

def NF.ofWord (w : Nat) : NF :=
  ⟨BitVec.ofNat 5 (w / 2048), BitVec.ofNat 6 (w / 32)⟩

def NF.word (f : NF) : Nat :=
  f.a.toNat * 2048 + f.d.toNat * 32

def UA.ofWord (w : Nat) : UA :=
  ⟨BitVec.ofNat 8 (w / 16777216), BitVec.ofNat 8 (w / 65536), BitVec.ofNat 8 (w / 256)⟩

def UA.word (f : UA) : Nat :=
  f.b.toNat * 16777216 + f.a.toNat * 65536 + f.d.toNat * 256

def UCmpF.ofWord (w : Nat) : UCmpF :=
  ⟨BitVec.ofNat 8 (w / 16777216), BitVec.ofNat 8 (w / 65536), BitVec.ofNat 4 (w / 1024), BitVec.ofNat 2 (w / 256)⟩

def UCmpF.word (f : UCmpF) : Nat :=
  f.b.toNat * 16777216 + f.a.toNat * 65536 + f.c.toNat * 1024 + f.k.toNat * 256

def USelF.ofWord (w : Nat) : USelF :=
  ⟨BitVec.ofNat 6 (w / 16777216), BitVec.ofNat 2 (w / 4194304), BitVec.ofNat 6 (w / 65536), BitVec.ofNat 8 (w / 256)⟩

def USelF.word (f : USelF) : Nat :=
  f.b.toNat * 16777216 + f.k.toNat * 4194304 + f.a.toNat * 65536 + f.d.toNat * 256

def UUn.ofWord (w : Nat) : UUn :=
  ⟨BitVec.ofNat 8 (w / 65536), BitVec.ofNat 8 (w / 256)⟩

def UUn.word (f : UUn) : Nat :=
  f.a.toNat * 65536 + f.d.toNat * 256

def UI.ofWord (w : Nat) : UI :=
  ⟨BitVec.ofNat 16 (w / 65536), BitVec.ofNat 8 (w / 256)⟩

def UI.word (f : UI) : Nat :=
  f.i.toNat * 65536 + f.d.toNat * 256

def RdpmF.ofWord (w : Nat) : RdpmF :=
  ⟨BitVec.ofNat 8 (w / 256)⟩

def RdpmF.word (f : RdpmF) : Nat :=
  f.d.toNat * 256

def BraF.ofWord (w : Nat) : BraF :=
  ⟨BitVec.ofNat 19 (w / 8192), BitVec.ofNat 1 (w / 4096), BitVec.ofNat 3 (w / 512)⟩

def BraF.word (f : BraF) : Nat :=
  f.o.toNat * 8192 + f.g.toNat * 4096 + f.n.toNat * 512

def BrakF.ofWord (w : Nat) : BrakF :=
  ⟨BitVec.ofNat 19 (w / 8192), BitVec.ofNat 1 (w / 2048), BitVec.ofNat 2 (w / 512)⟩

def BrakF.word (f : BrakF) : Nat :=
  f.o.toNat * 8192 + f.g.toNat * 2048 + f.k.toNat * 512

def CallF.ofWord (w : Nat) : CallF :=
  ⟨BitVec.ofNat 19 (w / 8192), BitVec.ofNat 4 (w / 512)⟩

def CallF.word (f : CallF) : Nat :=
  f.o.toNat * 8192 + f.c.toNat * 512

def JmpF.ofWord (w : Nat) : JmpF :=
  ⟨BitVec.ofNat 4 (w / 512)⟩

def JmpF.word (f : JmpF) : Nat :=
  f.c.toNat * 512

def ExitF.ofWord (w : Nat) : ExitF :=
  ⟨BitVec.ofNat 3 (w / 512)⟩

def ExitF.word (f : ExitF) : Nat :=
  f.n.toNat * 512

def DelayF.ofWord (w : Nat) : DelayF :=
  ⟨BitVec.ofNat 19 (w / 8192), BitVec.ofNat 4 (w / 512)⟩

def DelayF.word (f : DelayF) : Nat :=
  f.o.toNat * 8192 + f.e.toNat * 512

def WaitmemF.ofWord (w : Nat) : WaitmemF :=
  ⟨BitVec.ofNat 1 (w / 524288), BitVec.ofNat 6 (w / 8192), BitVec.ofNat 4 (w / 512)⟩

def WaitmemF.word (f : WaitmemF) : Nat :=
  f.e.toNat * 524288 + f.v.toNat * 8192 + f.c.toNat * 512

def BarF.ofWord (w : Nat) : BarF :=
  ⟨BitVec.ofNat 6 (w / 262144), BitVec.ofNat 1 (w / 131072), BitVec.ofNat 4 (w / 8192)⟩

def BarF.word (f : BarF) : Nat :=
  f.v.toNat * 262144 + f.x.toNat * 131072 + f.b.toNat * 8192

def BarwF.ofWord (w : Nat) : BarwF :=
  ⟨BitVec.ofNat 4 (w / 8192)⟩

def BarwF.word (f : BarwF) : Nat :=
  f.b.toNat * 8192

def TrapF.ofWord (w : Nat) : TrapF :=
  ⟨BitVec.ofNat 19 (w / 8192)⟩

def TrapF.word (f : TrapF) : Nat :=
  f.n.toNat * 8192

def MemReg.ofWord (w : Nat) : MemReg :=
  ⟨BitVec.ofNat 1 (w / 2147483648), BitVec.ofNat 2 (w / 536870912), BitVec.ofNat 1 (w / 268435456), BitVec.ofNat 6 (w / 4194304), BitVec.ofNat 6 (w / 65536), BitVec.ofNat 6 (w / 1024), BitVec.ofNat 2 (w / 64)⟩

def MemReg.word (f : MemReg) : Nat :=
  f.sp.toNat * 2147483648 + f.pred.toNat * 536870912 + f.l.toNat * 268435456 + f.n.toNat * 4194304 + f.b.toNat * 65536 + f.d.toNat * 1024 + f.z.toNat * 64

def MemSxReg.ofWord (w : Nat) : MemSxReg :=
  ⟨BitVec.ofNat 1 (w / 2147483648), BitVec.ofNat 2 (w / 536870912), BitVec.ofNat 1 (w / 268435456), BitVec.ofNat 6 (w / 4194304), BitVec.ofNat 6 (w / 65536), BitVec.ofNat 6 (w / 1024), BitVec.ofNat 1 (w / 64)⟩

def MemSxReg.word (f : MemSxReg) : Nat :=
  f.sp.toNat * 2147483648 + f.pred.toNat * 536870912 + f.l.toNat * 268435456 + f.n.toNat * 4194304 + f.b.toNat * 65536 + f.d.toNat * 1024 + f.z.toNat * 64

def MemImm.ofWord (w : Nat) : MemImm :=
  ⟨BitVec.ofNat 1 (w / 2147483648), BitVec.ofNat 2 (w / 536870912), BitVec.ofNat 1 (w / 268435456), BitVec.ofNat 6 (w / 4194304), BitVec.ofNat 6 (w / 65536), BitVec.ofNat 6 (w / 1024), BitVec.ofNat 2 (w / 64)⟩

def MemImm.word (f : MemImm) : Nat :=
  f.sp.toNat * 2147483648 + f.pred.toNat * 536870912 + f.l.toNat * 268435456 + f.i.toNat * 4194304 + f.b.toNat * 65536 + f.d.toNat * 1024 + f.z.toNat * 64

def MemSxImm.ofWord (w : Nat) : MemSxImm :=
  ⟨BitVec.ofNat 1 (w / 2147483648), BitVec.ofNat 2 (w / 536870912), BitVec.ofNat 1 (w / 268435456), BitVec.ofNat 6 (w / 4194304), BitVec.ofNat 6 (w / 65536), BitVec.ofNat 6 (w / 1024), BitVec.ofNat 1 (w / 64)⟩

def MemSxImm.word (f : MemSxImm) : Nat :=
  f.sp.toNat * 2147483648 + f.pred.toNat * 536870912 + f.l.toNat * 268435456 + f.i.toNat * 4194304 + f.b.toNat * 65536 + f.d.toNat * 1024 + f.z.toNat * 64

def SpF.ofWord (w : Nat) : SpF :=
  ⟨BitVec.ofNat 1 (w / 2147483648), BitVec.ofNat 2 (w / 536870912), BitVec.ofNat 1 (w / 268435456), BitVec.ofNat 6 (w / 4194304), BitVec.ofNat 6 (w / 65536), BitVec.ofNat 6 (w / 1024), BitVec.ofNat 2 (w / 64)⟩

def SpF.word (f : SpF) : Nat :=
  f.sp.toNat * 2147483648 + f.pred.toNat * 536870912 + f.l.toNat * 268435456 + f.n.toNat * 4194304 + f.i.toNat * 65536 + f.d.toNat * 1024 + f.z.toNat * 64

def SpSxF.ofWord (w : Nat) : SpSxF :=
  ⟨BitVec.ofNat 1 (w / 2147483648), BitVec.ofNat 2 (w / 536870912), BitVec.ofNat 1 (w / 268435456), BitVec.ofNat 6 (w / 4194304), BitVec.ofNat 6 (w / 65536), BitVec.ofNat 6 (w / 1024), BitVec.ofNat 1 (w / 64)⟩

def SpSxF.word (f : SpSxF) : Nat :=
  f.sp.toNat * 2147483648 + f.pred.toNat * 536870912 + f.l.toNat * 268435456 + f.n.toNat * 4194304 + f.i.toNat * 65536 + f.d.toNat * 1024 + f.z.toNat * 64

def AtomF.ofWord (w : Nat) : AtomF :=
  ⟨BitVec.ofNat 1 (w / 2147483648), BitVec.ofNat 2 (w / 536870912), BitVec.ofNat 1 (w / 268435456), BitVec.ofNat 6 (w / 4194304), BitVec.ofNat 6 (w / 65536), BitVec.ofNat 6 (w / 1024), BitVec.ofNat 4 (w / 64)⟩

def AtomF.word (f : AtomF) : Nat :=
  f.sp.toNat * 2147483648 + f.c.toNat * 536870912 + f.l.toNat * 268435456 + f.n.toNat * 4194304 + f.b.toNat * 65536 + f.d.toNat * 1024 + f.o.toNat * 64

def AtspF.ofWord (w : Nat) : AtspF :=
  ⟨BitVec.ofNat 1 (w / 2147483648), BitVec.ofNat 2 (w / 536870912), BitVec.ofNat 1 (w / 268435456), BitVec.ofNat 6 (w / 4194304), BitVec.ofNat 6 (w / 65536), BitVec.ofNat 6 (w / 1024), BitVec.ofNat 4 (w / 64)⟩

def AtspF.word (f : AtspF) : Nat :=
  f.sp.toNat * 2147483648 + f.c.toNat * 536870912 + f.l.toNat * 268435456 + f.n.toNat * 4194304 + f.i.toNat * 65536 + f.d.toNat * 1024 + f.o.toNat * 64

def PrefF.ofWord (w : Nat) : PrefF :=
  ⟨BitVec.ofNat 1 (w / 2147483648), BitVec.ofNat 2 (w / 536870912), BitVec.ofNat 1 (w / 268435456), BitVec.ofNat 6 (w / 4194304), BitVec.ofNat 6 (w / 65536)⟩

def PrefF.word (f : PrefF) : Nat :=
  f.sp.toNat * 2147483648 + f.pred.toNat * 536870912 + f.l.toNat * 268435456 + f.n.toNat * 4194304 + f.b.toNat * 65536

def FenceF.ofWord (w : Nat) : FenceF :=
  ⟨BitVec.ofNat 1 (w / 2147483648), BitVec.ofNat 2 (w / 16777216), BitVec.ofNat 2 (w / 4194304), BitVec.ofNat 3 (w / 1024)⟩

def FenceF.word (f : FenceF) : Nat :=
  f.sp.toNat * 2147483648 + f.g.toNat * 16777216 + f.k.toNat * 4194304 + f.t.toNat * 1024

def FwaitF.ofWord (w : Nat) : FwaitF :=
  ⟨BitVec.ofNat 1 (w / 2147483648), BitVec.ofNat 3 (w / 1024)⟩

def FwaitF.word (f : FwaitF) : Nat :=
  f.sp.toNat * 2147483648 + f.t.toNat * 1024

def WaitcF.ofWord (w : Nat) : WaitcF :=
  ⟨BitVec.ofNat 1 (w / 2147483648), BitVec.ofNat 6 (w / 65536), BitVec.ofNat 3 (w / 1024)⟩

def WaitcF.word (f : WaitcF) : Nat :=
  f.sp.toNat * 2147483648 + f.v.toNat * 65536 + f.c.toNat * 1024

def SpmapF.ofWord (w : Nat) : SpmapF :=
  ⟨BitVec.ofNat 1 (w / 2147483648), BitVec.ofNat 6 (w / 65536), BitVec.ofNat 4 (w / 1024)⟩

def SpmapF.word (f : SpmapF) : Nat :=
  f.sp.toNat * 2147483648 + f.b.toNat * 65536 + f.r.toNat * 1024

def RegionLF.ofWord (w : Nat) : RegionLF :=
  ⟨BitVec.ofNat 1 (w / 2147483648), BitVec.ofNat 1 (w / 268435456), BitVec.ofNat 6 (w / 65536), BitVec.ofNat 1 (w / 16384), BitVec.ofNat 4 (w / 1024)⟩

def RegionLF.word (f : RegionLF) : Nat :=
  f.sp.toNat * 2147483648 + f.l.toNat * 268435456 + f.b.toNat * 65536 + f.g.toNat * 16384 + f.r.toNat * 1024

def RegionF.ofWord (w : Nat) : RegionF :=
  ⟨BitVec.ofNat 1 (w / 2147483648), BitVec.ofNat 6 (w / 65536), BitVec.ofNat 1 (w / 16384), BitVec.ofNat 4 (w / 1024)⟩

def RegionF.word (f : RegionF) : Nat :=
  f.sp.toNat * 2147483648 + f.b.toNat * 65536 + f.g.toNat * 16384 + f.r.toNat * 1024

def CpyF.ofWord (w : Nat) : CpyF :=
  ⟨BitVec.ofNat 1 (w / 2147483648), BitVec.ofNat 1 (w / 268435456), BitVec.ofNat 6 (w / 65536)⟩

def CpyF.word (f : CpyF) : Nat :=
  f.sp.toNat * 2147483648 + f.l.toNat * 268435456 + f.b.toNat * 65536

def MbsetF.ofWord (w : Nat) : MbsetF :=
  ⟨BitVec.ofNat 1 (w / 2147483648), BitVec.ofNat 6 (w / 65536), BitVec.ofNat 2 (w / 1024)⟩

def MbsetF.word (f : MbsetF) : Nat :=
  f.sp.toNat * 2147483648 + f.a.toNat * 65536 + f.n.toNat * 1024

def SafeF.ofWord (w : Nat) : SafeF :=
  ⟨BitVec.ofNat 1 (w / 2147483648)⟩

def SafeF.word (f : SafeF) : Nat :=
  f.sp.toNat * 2147483648

def MbpollF.ofWord (w : Nat) : MbpollF :=
  ⟨BitVec.ofNat 1 (w / 2147483648), BitVec.ofNat 2 (w / 4096), BitVec.ofNat 2 (w / 1024)⟩

def MbpollF.word (f : MbpollF) : Nat :=
  f.sp.toNat * 2147483648 + f.k.toNat * 4096 + f.n.toNat * 1024

def CollF.ofWord (w : Nat) : CollF :=
  ⟨BitVec.ofNat 1 (w / 2147483648), BitVec.ofNat 1 (w / 268435456), BitVec.ofNat 2 (w / 16777216), BitVec.ofNat 1 (w / 8388608), BitVec.ofNat 1 (w / 4194304), BitVec.ofNat 6 (w / 65536)⟩

def CollF.word (f : CollF) : Nat :=
  f.sp.toNat * 2147483648 + f.l.toNat * 268435456 + f.g.toNat * 16777216 + f.r.toNat * 8388608 + f.e.toNat * 4194304 + f.b.toNat * 65536

def AforF.ofWord (w : Nat) : AforF :=
  ⟨BitVec.ofNat 2 (w / 33554432), BitVec.ofNat 1 (w / 16777216), BitVec.ofNat 4 (w / 1048576), BitVec.ofNat 6 (w / 16384), BitVec.ofNat 3 (w / 512)⟩

def AforF.word (f : AforF) : Nat :=
  f.g.toNat * 33554432 + f.c.toNat * 16777216 + f.k.toNat * 1048576 + f.a.toNat * 16384 + f.x.toNat * 512

def AnextF.ofWord (w : Nat) : AnextF :=
  ⟨BitVec.ofNat 3 (w / 512)⟩

def AnextF.word (f : AnextF) : Nat :=
  f.x.toNat * 512

def AldqF.ofWord (w : Nat) : AldqF :=
  ⟨BitVec.ofNat 12 (w / 1048576), BitVec.ofNat 2 (w / 4096), BitVec.ofNat 3 (w / 512)⟩

def AldqF.word (f : AldqF) : Nat :=
  f.i.toNat * 1048576 + f.q.toNat * 4096 + f.x.toNat * 512

def AsetF.ofWord (w : Nat) : AsetF :=
  ⟨BitVec.ofNat 12 (w / 1048576), BitVec.ofNat 6 (w / 16384), BitVec.ofNat 3 (w / 512)⟩

def AsetF.word (f : AsetF) : Nat :=
  f.i.toNat * 1048576 + f.a.toNat * 16384 + f.x.toNat * 512

def AincF.ofWord (w : Nat) : AincF :=
  ⟨BitVec.ofNat 12 (w / 1048576), BitVec.ofNat 6 (w / 16384), BitVec.ofNat 1 (w / 4096), BitVec.ofNat 3 (w / 512)⟩

def AincF.word (f : AincF) : Nat :=
  f.i.toNat * 1048576 + f.a.toNat * 16384 + f.f.toNat * 4096 + f.x.toNat * 512

def AsigF.ofWord (w : Nat) : AsigF :=
  ⟨BitVec.ofNat 2 (w / 33554432), BitVec.ofNat 1 (w / 16777216), BitVec.ofNat 4 (w / 1048576)⟩

def AsigF.word (f : AsigF) : Nat :=
  f.g.toNat * 33554432 + f.c.toNat * 16777216 + f.k.toNat * 1048576

def RegnF.ofWord (w : Nat) : RegnF :=
  ⟨BitVec.ofNat 7 (w / 1024)⟩

def RegnF.word (f : RegnF) : Nat :=
  f.r.toNat * 1024

def MemTileF.ofWord (w : Nat) : MemTileF :=
  ⟨BitVec.ofNat 6 (w / 67108864), BitVec.ofNat 2 (w / 1048576), BitVec.ofNat 1 (w / 524288), BitVec.ofNat 1 (w / 262144), BitVec.ofNat 1 (w / 131072), BitVec.ofNat 7 (w / 1024)⟩

def MemTileF.word (f : MemTileF) : Nat :=
  f.b.toNat * 67108864 + f.g.toNat * 1048576 + f.l.toNat * 524288 + f.e.toNat * 262144 + f.c.toNat * 131072 + f.r.toNat * 1024

def MmaskF.ofWord (w : Nat) : MmaskF :=
  ⟨BitVec.ofNat 6 (w / 1048576)⟩

def MmaskF.word (f : MmaskF) : Nat :=
  f.d.toNat * 1048576

def MmaF.ofWord (w : Nat) : MmaF :=
  ⟨BitVec.ofNat 6 (w / 67108864), BitVec.ofNat 6 (w / 1048576), BitVec.ofNat 3 (w / 131072), BitVec.ofNat 7 (w / 1024)⟩

def MmaF.word (f : MmaF) : Nat :=
  f.b.toNat * 67108864 + f.a.toNat * 1048576 + f.t.toNat * 131072 + f.r.toNat * 1024

def MmlF.ofWord (w : Nat) : MmlF :=
  ⟨BitVec.ofNat 6 (w / 67108864), BitVec.ofNat 6 (w / 1048576), BitVec.ofNat 3 (w / 131072), BitVec.ofNat 7 (w / 1024)⟩

def MmlF.word (f : MmlF) : Nat :=
  f.k.toNat * 67108864 + f.l.toNat * 1048576 + f.t.toNat * 131072 + f.r.toNat * 1024

def MscaF.ofWord (w : Nat) : MscaF :=
  ⟨BitVec.ofNat 6 (w / 67108864), BitVec.ofNat 6 (w / 1048576), BitVec.ofNat 7 (w / 1024)⟩

def MscaF.word (f : MscaF) : Nat :=
  f.b.toNat * 67108864 + f.a.toNat * 1048576 + f.r.toNat * 1024

def McvtF.ofWord (w : Nat) : McvtF :=
  ⟨BitVec.ofNat 3 (w / 67108864), BitVec.ofNat 6 (w / 1048576), BitVec.ofNat 3 (w / 131072), BitVec.ofNat 7 (w / 1024)⟩

def McvtF.word (f : McvtF) : Nat :=
  f.o.toNat * 67108864 + f.d.toNat * 1048576 + f.t.toNat * 131072 + f.r.toNat * 1024

def DMemF.ofWord (w : Nat) : DMemF :=
  ⟨BitVec.ofNat 1 (w / 2147483648), BitVec.ofNat 1 (w / 268435456), BitVec.ofNat 6 (w / 4194304), BitVec.ofNat 5 (w / 131072), BitVec.ofNat 6 (w / 2048)⟩

def DMemF.word (f : DMemF) : Nat :=
  f.sp.toNat * 2147483648 + f.l.toNat * 268435456 + f.b.toNat * 4194304 + f.a.toNat * 131072 + f.x.toNat * 2048

def DfromvF.ofWord (w : Nat) : DfromvF :=
  ⟨BitVec.ofNat 1 (w / 2147483648), BitVec.ofNat 6 (w / 4194304), BitVec.ofNat 5 (w / 131072), BitVec.ofNat 2 (w / 2048)⟩

def DfromvF.word (f : DfromvF) : Nat :=
  f.sp.toNat * 2147483648 + f.b.toNat * 4194304 + f.a.toNat * 131072 + f.t.toNat * 2048

def DtovF.ofWord (w : Nat) : DtovF :=
  ⟨BitVec.ofNat 1 (w / 2147483648), BitVec.ofNat 3 (w / 268435456), BitVec.ofNat 1 (w / 16777216), BitVec.ofNat 2 (w / 4194304), BitVec.ofNat 5 (w / 131072), BitVec.ofNat 6 (w / 2048)⟩

def DtovF.word (f : DtovF) : Nat :=
  f.sp.toNat * 2147483648 + f.r.toNat * 268435456 + f.k.toNat * 16777216 + f.t.toNat * 4194304 + f.a.toNat * 131072 + f.x.toNat * 2048

def D2F.ofWord (w : Nat) : D2F :=
  ⟨BitVec.ofNat 1 (w / 2147483648), BitVec.ofNat 5 (w / 131072), BitVec.ofNat 6 (w / 2048)⟩

def D2F.word (f : D2F) : Nat :=
  f.sp.toNat * 2147483648 + f.a.toNat * 131072 + f.x.toNat * 2048

def D3F.ofWord (w : Nat) : D3F :=
  ⟨BitVec.ofNat 1 (w / 2147483648), BitVec.ofNat 6 (w / 4194304), BitVec.ofNat 5 (w / 131072), BitVec.ofNat 6 (w / 2048)⟩

def D3F.word (f : D3F) : Nat :=
  f.sp.toNat * 2147483648 + f.b.toNat * 4194304 + f.a.toNat * 131072 + f.x.toNat * 2048

def DNormF.ofWord (w : Nat) : DNormF :=
  ⟨BitVec.ofNat 1 (w / 2147483648), BitVec.ofNat 6 (w / 4194304), BitVec.ofNat 6 (w / 2048)⟩

def DNormF.word (f : DNormF) : Nat :=
  f.sp.toNat * 2147483648 + f.b.toNat * 4194304 + f.x.toNat * 2048

def DDotF.ofWord (w : Nat) : DDotF :=
  ⟨BitVec.ofNat 1 (w / 2147483648), BitVec.ofNat 3 (w / 268435456), BitVec.ofNat 6 (w / 4194304), BitVec.ofNat 5 (w / 131072), BitVec.ofNat 6 (w / 2048)⟩

def DDotF.word (f : DDotF) : Nat :=
  f.sp.toNat * 2147483648 + f.r.toNat * 268435456 + f.b.toNat * 4194304 + f.a.toNat * 131072 + f.x.toNat * 2048

def DtestF.ofWord (w : Nat) : DtestF :=
  ⟨BitVec.ofNat 1 (w / 2147483648), BitVec.ofNat 2 (w / 4194304), BitVec.ofNat 5 (w / 131072), BitVec.ofNat 2 (w / 2048)⟩

def DtestF.word (f : DtestF) : Nat :=
  f.sp.toNat * 2147483648 + f.c.toNat * 4194304 + f.a.toNat * 131072 + f.k.toNat * 2048

/-- Major 0 (R272 to R274). -/
noncomputable def decodeMajor0 (w : Nat) : Option Instr :=
  match w / 64 % 32 with
  | 0 => some (.vadd (.ofWord w))
  | 1 => some (.vsub (.ofWord w))
  | 2 => some (.vmul (.ofWord w))
  | 3 => some (.vmulhS32 (.ofWord w))
  | 4 => some (.vmad (.ofWord w))
  | 5 => some (.vand (.ofWord w))
  | 6 => some (.vor (.ofWord w))
  | 7 => some (.vxor (.ofWord w))
  | 8 => if w / 8388608 % 64 = 0 then some (.vnot (.ofWord w)) else none
  | 9 => some (.vshl (.ofWord w))
  | 10 => some (.vshr (.ofWord w))
  | 11 => some (.vsar (.ofWord w))
  | 12 => some (.vminS32 (.ofWord w))
  | 13 => some (.vmaxS32 (.ofWord w))
  | 14 => if w / 8388608 % 64 = 0 then some (.vabs (.ofWord w)) else none
  | 15 => some (.vaddsS32 (.ofWord w))
  | 16 => some (.vsubsS32 (.ofWord w))
  | 17 => some (.vcmp (.ofWord w))
  | 18 => some (.vsel (.ofWord w))
  | 19 => if w / 2048 % 64 = 0 ∧ w / 33554432 % 64 = 4 then some (.vmovMbs (.ofWord w)) else if w / 131072 % 64 = 0 ∧ w / 33554432 % 64 = 8 then some (.vmovMbg (.ofWord w)) else if w / 8388608 % 64 = 0 then some (.vmov (.ofWord w)) else none
  | 20 => some (.vli (.ofWord w))
  | 21 => some (.vbfe (.ofWord w))
  | 22 => some (.vbfi (.ofWord w))
  | 23 => if w / 67108864 % 8 = 0 then some (.vclz (.ofWord w)) else none
  | 24 => if w / 67108864 % 8 = 0 then some (.vctz (.ofWord w)) else none
  | 25 => if w / 67108864 % 8 = 0 then some (.vffs (.ofWord w)) else none
  | 26 => if w / 67108864 % 8 = 0 then some (.vpopc (.ofWord w)) else none
  | 27 => some (.vdot4S8 (.ofWord w))
  | _ => none

/-- Major 1 (R272 to R274). -/
noncomputable def decodeMajor1 (w : Nat) : Option Instr :=
  match w / 64 % 32 with
  | 0 => some (.vaddVu (.ofWord w))
  | 1 => some (.vsubVu (.ofWord w))
  | 2 => some (.vmulVu (.ofWord w))
  | 3 => some (.vmulhS32Vu (.ofWord w))
  | 4 => some (.vmadVu (.ofWord w))
  | 5 => some (.vandVu (.ofWord w))
  | 6 => some (.vorVu (.ofWord w))
  | 7 => some (.vxorVu (.ofWord w))
  | 9 => some (.vshlVu (.ofWord w))
  | 10 => some (.vshrVu (.ofWord w))
  | 11 => some (.vsarVu (.ofWord w))
  | 12 => some (.vminS32Vu (.ofWord w))
  | 13 => some (.vmaxS32Vu (.ofWord w))
  | 15 => some (.vaddsS32Vu (.ofWord w))
  | 16 => some (.vsubsS32Vu (.ofWord w))
  | 17 => some (.vcmpVu (.ofWord w))
  | 18 => some (.vselVu (.ofWord w))
  | 21 => some (.vbfeVu (.ofWord w))
  | 22 => some (.vbfiVu (.ofWord w))
  | 27 => some (.vdot4S8Vu (.ofWord w))
  | _ => none

/-- Major 2 (R272 to R274). -/
noncomputable def decodeMajor2 (w : Nat) : Option Instr :=
  match w / 64 % 32 with
  | 0 => some (.faddF32 (.ofWord w))
  | 1 => some (.fsubF32 (.ofWord w))
  | 2 => some (.fmulF32 (.ofWord w))
  | 3 => some (.faccF32 (.ofWord w))
  | 4 => some (.fminF32 (.ofWord w))
  | 5 => some (.fmaxF32 (.ofWord w))
  | 6 => if w / 8388608 % 64 = 0 then some (.fneg (.ofWord w)) else none
  | 7 => if w / 8388608 % 64 = 0 then some (.fabs (.ofWord w)) else none
  | 8 => some (.fcmp (.ofWord w))
  | 9 => if w / 8388608 % 64 = 0 then some (.fclass (.ofWord w)) else none
  | 10 => some (.fscale (.ofWord w))
  | 11 => if w / 67108864 % 8 = 0 then some (.frnd (.ofWord w)) else none
  | 12 => some (.fdot2F16 (.ofWord w))
  | 13 => some (.fdot2Bf16 (.ofWord w))
  | 14 => some (.faddF16x2 (.ofWord w))
  | 15 => some (.fsubF16x2 (.ofWord w))
  | 16 => some (.fmulF16x2 (.ofWord w))
  | 17 => some (.faccF16x2 (.ofWord w))
  | 18 => some (.faddBf16x2 (.ofWord w))
  | 19 => some (.fsubBf16x2 (.ofWord w))
  | 20 => some (.fmulBf16x2 (.ofWord w))
  | 21 => some (.faccBf16x2 (.ofWord w))
  | 22 => if w / 8388608 % 64 = 0 then some (.rcp (.ofWord w)) else none
  | 23 => if w / 8388608 % 64 = 0 then some (.rsq (.ofWord w)) else none
  | 24 => if w / 8388608 % 64 = 0 then some (.sqrt (.ofWord w)) else none
  | 25 => if w / 8388608 % 64 = 0 then some (.exp2 (.ofWord w)) else none
  | 26 => if w / 8388608 % 64 = 0 then some (.log2 (.ofWord w)) else none
  | 27 => if w / 8388608 % 64 = 0 then some (.sin (.ofWord w)) else none
  | 28 => if w / 8388608 % 64 = 0 then some (.cos (.ofWord w)) else none
  | 29 => if w / 8388608 % 64 = 0 then some (.tanh (.ofWord w)) else none
  | _ => none

/-- Major 3 (R272 to R274). -/
noncomputable def decodeMajor3 (w : Nat) : Option Instr :=
  match w / 64 % 32 with
  | 0 => some (.faddF32Vu (.ofWord w))
  | 1 => some (.fsubF32Vu (.ofWord w))
  | 2 => some (.fmulF32Vu (.ofWord w))
  | 3 => some (.faccF32Vu (.ofWord w))
  | 4 => some (.fminF32Vu (.ofWord w))
  | 5 => some (.fmaxF32Vu (.ofWord w))
  | 8 => some (.fcmpVu (.ofWord w))
  | 10 => some (.fscaleVu (.ofWord w))
  | 12 => some (.fdot2F16Vu (.ofWord w))
  | 13 => some (.fdot2Bf16Vu (.ofWord w))
  | 14 => some (.faddF16x2Vu (.ofWord w))
  | 15 => some (.fsubF16x2Vu (.ofWord w))
  | 16 => some (.fmulF16x2Vu (.ofWord w))
  | 17 => some (.faccF16x2Vu (.ofWord w))
  | 18 => some (.faddBf16x2Vu (.ofWord w))
  | 19 => some (.fsubBf16x2Vu (.ofWord w))
  | 20 => some (.fmulBf16x2Vu (.ofWord w))
  | 21 => some (.faccBf16x2Vu (.ofWord w))
  | _ => none

/-- Major 4 (R272 to R274). -/
noncomputable def decodeMajor4 (w : Nat) : Option Instr :=
  match w / 64 % 32 with
  | 0 => some (.cvtToF32 (.ofWord w))
  | 1 => some (.cvtFromF32 (.ofWord w))
  | 2 => some (.cvtInt (.ofWord w))
  | 3 => some (.cvtF16F8 (.ofWord w))
  | 4 => if w / 134217728 % 4 = 0 then some (.pack2 (.ofWord w)) else none
  | 5 => if w / 268435456 % 2 = 0 then some (.pack4 (.ofWord w)) else none
  | 6 => some (.unpk (.ofWord w))
  | 7 => if w / 33554432 % 16 = 0 then some (.pk6 (.ofWord w)) else none
  | 8 => if w / 33554432 % 16 = 0 then some (.upk6 (.ofWord w)) else none
  | 9 => if w / 2048 % 64 = 0 ∧ w / 8388608 % 64 = 0 then some (.cbset (.ofWord w)) else none
  | 10 => if w / 67108864 % 8 = 0 then some (.cbenc (.ofWord w)) else none
  | 11 => some (.shfl (.ofWord w))
  | 12 => if w / 1048576 % 8 = 0 ∧ w / 33554432 % 16 = 0 then some (.vote (.ofWord w)) else none
  | 13 => some (.bcast (.ofWord w))
  | 14 => if w / 131072 % 4096 = 0 then some (.lanei (.ofWord w)) else none
  | 15 => if w / 67108864 % 8 = 0 then some (.redu (.ofWord w)) else none
  | 16 => if w / 134217728 % 4 = 0 then some (.scan (.ofWord w)) else none
  | 17 => if w / 16384 % 8 = 0 ∧ w / 1048576 % 8 = 0 ∧ w / 67108864 % 8 = 0 then some (.pand (.ofWord w)) else none
  | 18 => if w / 16384 % 8 = 0 ∧ w / 1048576 % 8 = 0 ∧ w / 67108864 % 8 = 0 then some (.por (.ofWord w)) else none
  | 19 => if w / 16384 % 8 = 0 ∧ w / 1048576 % 8 = 0 ∧ w / 67108864 % 8 = 0 then some (.pxor (.ofWord w)) else none
  | 20 => if w / 16384 % 8 = 0 ∧ w / 1048576 % 512 = 0 then some (.pnot (.ofWord w)) else none
  | 21 => if w / 16384 % 8 = 0 ∧ w / 1048576 % 512 = 0 then some (.pmov (.ofWord w)) else none
  | _ => none

/-- Major 5 (R272 to R274). -/
noncomputable def decodeMajor5 (w : Nat) : Option Instr :=
  match w / 64 % 32 with
  | 11 => some (.shflVu (.ofWord w))
  | _ => none

/-- Major 6 (R272 to R274). -/
noncomputable def decodeMajor6 (w : Nat) : Option Instr :=
  match w / 64 % 32 with
  | 0 => some (.vmulhZ32 (.ofWord w))
  | 1 => some (.vminZ32 (.ofWord w))
  | 2 => some (.vmaxZ32 (.ofWord w))
  | 3 => some (.vaddsZ32 (.ofWord w))
  | 4 => some (.vsubsZ32 (.ofWord w))
  | 5 => some (.vdot4Z8 (.ofWord w))
  | 8 => some (.vaddI16x2 (.ofWord w))
  | 9 => some (.vsubI16x2 (.ofWord w))
  | 10 => some (.vmulI16x2 (.ofWord w))
  | 11 => some (.vminS16x2 (.ofWord w))
  | 12 => some (.vmaxS16x2 (.ofWord w))
  | 13 => some (.vminZ16x2 (.ofWord w))
  | 14 => some (.vmaxZ16x2 (.ofWord w))
  | 15 => some (.vaddsS16x2 (.ofWord w))
  | 16 => some (.vsubsS16x2 (.ofWord w))
  | 17 => some (.vaddsZ16x2 (.ofWord w))
  | 18 => some (.vsubsZ16x2 (.ofWord w))
  | 19 => some (.vaddI8x4 (.ofWord w))
  | 20 => some (.vsubI8x4 (.ofWord w))
  | 21 => some (.vmulI8x4 (.ofWord w))
  | 22 => some (.vminS8x4 (.ofWord w))
  | 23 => some (.vmaxS8x4 (.ofWord w))
  | 24 => some (.vminZ8x4 (.ofWord w))
  | 25 => some (.vmaxZ8x4 (.ofWord w))
  | 26 => some (.vaddsS8x4 (.ofWord w))
  | 27 => some (.vsubsS8x4 (.ofWord w))
  | 28 => some (.vaddsZ8x4 (.ofWord w))
  | 29 => some (.vsubsZ8x4 (.ofWord w))
  | _ => none

/-- Major 7 (R272 to R274). -/
noncomputable def decodeMajor7 (w : Nat) : Option Instr :=
  match w / 64 % 32 with
  | 0 => some (.vmulhZ32Vu (.ofWord w))
  | 1 => some (.vminZ32Vu (.ofWord w))
  | 2 => some (.vmaxZ32Vu (.ofWord w))
  | 3 => some (.vaddsZ32Vu (.ofWord w))
  | 4 => some (.vsubsZ32Vu (.ofWord w))
  | 5 => some (.vdot4Z8Vu (.ofWord w))
  | 8 => some (.vaddI16x2Vu (.ofWord w))
  | 9 => some (.vsubI16x2Vu (.ofWord w))
  | 10 => some (.vmulI16x2Vu (.ofWord w))
  | 11 => some (.vminS16x2Vu (.ofWord w))
  | 12 => some (.vmaxS16x2Vu (.ofWord w))
  | 13 => some (.vminZ16x2Vu (.ofWord w))
  | 14 => some (.vmaxZ16x2Vu (.ofWord w))
  | 15 => some (.vaddsS16x2Vu (.ofWord w))
  | 16 => some (.vsubsS16x2Vu (.ofWord w))
  | 17 => some (.vaddsZ16x2Vu (.ofWord w))
  | 18 => some (.vsubsZ16x2Vu (.ofWord w))
  | 19 => some (.vaddI8x4Vu (.ofWord w))
  | 20 => some (.vsubI8x4Vu (.ofWord w))
  | 21 => some (.vmulI8x4Vu (.ofWord w))
  | 22 => some (.vminS8x4Vu (.ofWord w))
  | 23 => some (.vmaxS8x4Vu (.ofWord w))
  | 24 => some (.vminZ8x4Vu (.ofWord w))
  | 25 => some (.vmaxZ8x4Vu (.ofWord w))
  | 26 => some (.vaddsS8x4Vu (.ofWord w))
  | 27 => some (.vsubsS8x4Vu (.ofWord w))
  | 28 => some (.vaddsZ8x4Vu (.ofWord w))
  | 29 => some (.vsubsZ8x4Vu (.ofWord w))
  | _ => none

/-- Major 8 (R272 to R274). -/
noncomputable def decodeMajor8 (w : Nat) : Option Instr :=
  match w / 64 % 4 with
  | 0 => some (.uadd (.ofWord w))
  | 1 => some (.usub (.ofWord w))
  | 2 => some (.umul (.ofWord w))
  | 3 => some (.umulh (.ofWord w))
  | _ => none

/-- Major 9 (R272 to R274). -/
noncomputable def decodeMajor9 (w : Nat) : Option Instr :=
  match w / 64 % 4 with
  | 0 => some (.umad (.ofWord w))
  | 1 => some (.uand (.ofWord w))
  | 2 => some (.uor (.ofWord w))
  | 3 => some (.uxor (.ofWord w))
  | _ => none

/-- Major 10 (R272 to R274). -/
noncomputable def decodeMajor10 (w : Nat) : Option Instr :=
  match w / 64 % 4 with
  | 0 => some (.ushl (.ofWord w))
  | 1 => some (.ushr (.ofWord w))
  | 2 => some (.usar (.ofWord w))
  | 3 => some (.umin (.ofWord w))
  | _ => none

/-- Major 11 (R272 to R274). -/
noncomputable def decodeMajor11 (w : Nat) : Option Instr :=
  match w / 64 % 4 with
  | 0 => some (.umax (.ofWord w))
  | 1 => if w / 16384 % 4 = 0 then some (.ucmp (.ofWord w)) else none
  | 2 => if w / 1073741824 % 4 = 0 then some (.usel (.ofWord w)) else none
  | 3 => if w / 16777216 % 256 = 0 then some (.umov (.ofWord w)) else none
  | _ => none

/-- Major 12 (R272 to R274). -/
noncomputable def decodeMajor12 (w : Nat) : Option Instr :=
  match w / 64 % 4 with
  | 0 => if w / 16777216 % 256 = 0 then some (.uclz (.ofWord w)) else none
  | 1 => if w / 16777216 % 256 = 0 then some (.upopc (.ofWord w)) else none
  | 2 => some (.ubfe (.ofWord w))
  | _ => none

/-- Major 13 (R272 to R274). -/
noncomputable def decodeMajor13 (w : Nat) : Option Instr :=
  match w / 64 % 4 with
  | 0 => some (.uld (.ofWord w))
  | 1 => some (.ust (.ofWord w))
  | _ => none

/-- Major 14 (R272 to R274). -/
noncomputable def decodeMajor14 (w : Nat) : Option Instr :=
  match w / 64 % 4 with
  | 0 => some (.uli (.ofWord w))
  | 1 => some (.ulih (.ofWord w))
  | 2 => some (.uaddi (.ofWord w))
  | 3 => some (.urds (.ofWord w))
  | _ => none

/-- Major 15 (R272 to R274). -/
noncomputable def decodeMajor15 (w : Nat) : Option Instr :=
  match w / 64 % 4 with
  | 0 => some (.uwrs (.ofWord w))
  | 1 => if w / 256 % 16777216 = 0 then some (.racq) else none
  | 2 => if w / 256 % 16777216 = 0 then some (.rrel) else none
  | 3 => if w / 65536 % 65536 = 0 then some (.rdpm (.ofWord w)) else none
  | _ => none

/-- Major 16 (R272 to R274). -/
noncomputable def decodeMajor16 (w : Nat) : Option Instr :=
  match w / 64 % 8 with
  | 0 => some (.bra (.ofWord w))
  | 1 => if w / 4096 % 2 = 0 then some (.brak (.ofWord w)) else none
  | 2 => some (.brx (.ofWord w))
  | 3 => if w / 512 % 8388608 = 0 then some (.join) else none
  | 4 => some (.call (.ofWord w))
  | _ => none

/-- Major 17 (R272 to R274). -/
noncomputable def decodeMajor17 (w : Nat) : Option Instr :=
  match w / 64 % 8 with
  | 0 => if w / 8192 % 524288 = 0 then some (.jmpi (.ofWord w)) else none
  | 1 => if w / 8192 % 524288 = 0 then some (.ret (.ofWord w)) else none
  | 2 => if w / 4096 % 1048576 = 0 then some (.exit (.ofWord w)) else none
  | 3 => some (.yieldd (.ofWord w))
  | 4 => if w / 1048576 % 4096 = 0 then some (.waitmem (.ofWord w)) else none
  | 5 => some (.sleep (.ofWord w))
  | 6 => if w / 512 % 16 = 2 ∧ w / 131072 % 32768 = 0 then some (.barw (.ofWord w)) else if w / 512 % 16 = 0 ∧ w / 16777216 % 256 = 0 then some (.bar (.ofWord w)) else if w / 512 % 16 = 1 ∧ w / 16777216 % 256 = 0 then some (.bara (.ofWord w)) else none
  | 7 => if w / 512 % 8388608 = 0 then some (.nop) else if w / 512 % 8388608 = 2 then some (.bkpt) else if w / 512 % 16 = 1 then some (.trap (.ofWord w)) else none
  | _ => none

/-- Major 18 (R272 to R274). -/
noncomputable def decodeMajor18 (w : Nat) : Option Instr :=
  match w / 256 % 4 with
  | 0 => some (.ldgReg (.ofWord w))
  | 1 => if w / 128 % 2 = 0 then some (.ldgSxReg (.ofWord w)) else none
  | 2 => some (.stgReg (.ofWord w))
  | _ => none

/-- Major 19 (R272 to R274). -/
noncomputable def decodeMajor19 (w : Nat) : Option Instr :=
  match w / 256 % 4 with
  | 0 => some (.ldgImm (.ofWord w))
  | 1 => if w / 128 % 2 = 0 then some (.ldgSxImm (.ofWord w)) else none
  | 2 => some (.stgImm (.ofWord w))
  | _ => none

/-- Major 20 (R272 to R274). -/
noncomputable def decodeMajor20 (w : Nat) : Option Instr :=
  match w / 256 % 4 with
  | 0 => some (.ldsp (.ofWord w))
  | 1 => if w / 128 % 2 = 0 then some (.ldspSx (.ofWord w)) else none
  | 2 => some (.stsp (.ofWord w))
  | _ => none

/-- Major 21 (R272 to R274). -/
noncomputable def decodeMajor21 (w : Nat) : Option Instr :=
  some (.atom (.ofWord w))

/-- Major 22 (R272 to R274). -/
noncomputable def decodeMajor22 (w : Nat) : Option Instr :=
  some (.red (.ofWord w))

/-- Major 23 (R272 to R274). -/
noncomputable def decodeMajor23 (w : Nat) : Option Instr :=
  some (.atsp (.ofWord w))

/-- Major 24 (R272 to R274). -/
noncomputable def decodeMajor24 (w : Nat) : Option Instr :=
  match w / 64 % 16 with
  | 0 => if w / 1024 % 64 = 0 then some (.pref (.ofWord w)) else none
  | 1 => if w / 8192 % 512 = 0 ∧ w / 67108864 % 32 = 0 then some (.fence (.ofWord w)) else none
  | 2 => if w / 8192 % 262144 = 0 then some (.fwait (.ofWord w)) else none
  | 3 => if w / 8192 % 8 = 0 ∧ w / 4194304 % 512 = 0 then some (.waitc (.ofWord w)) else none
  | 4 => if w / 16384 % 4 = 0 ∧ w / 4194304 % 512 = 0 then some (.spmap (.ofWord w)) else none
  | 5 => if w / 32768 % 2 = 0 ∧ w / 4194304 % 64 = 0 ∧ w / 536870912 % 4 = 0 then some (.spfill (.ofWord w)) else none
  | 6 => if w / 32768 % 2 = 0 ∧ w / 4194304 % 64 = 0 ∧ w / 536870912 % 4 = 0 then some (.spwb (.ofWord w)) else none
  | 7 => if w / 32768 % 2 = 0 ∧ w / 4194304 % 512 = 0 then some (.spinv (.ofWord w)) else none
  | 8 => if w / 1024 % 64 = 0 ∧ w / 4194304 % 64 = 0 ∧ w / 536870912 % 4 = 0 then some (.cpy (.ofWord w)) else none
  | 9 => if w / 1024 % 64 = 0 ∧ w / 4194304 % 64 = 0 ∧ w / 536870912 % 4 = 0 then some (.chain (.ofWord w)) else none
  | 10 => if w / 1024 % 2097152 = 12 then some (.mbsetLocal (.ofWord w)) else if w / 4096 % 16 = 0 ∧ w / 4194304 % 512 = 0 then some (.mbsetSend (.ofWord w)) else if w / 4096 % 16 = 1 ∧ w / 4194304 % 512 = 0 then some (.mbsetRecv (.ofWord w)) else if w / 4096 % 16 = 2 ∧ w / 4194304 % 512 = 0 then some (.mbsetRoute (.ofWord w)) else none
  | 11 => if w / 16384 % 131072 = 0 then some (.mbpoll (.ofWord w)) else none
  | 12 => if w / 1024 % 64 = 0 ∧ w / 67108864 % 4 = 0 ∧ w / 536870912 % 4 = 0 then some (.coll (.ofWord w)) else none
  | _ => none

/-- Major 25 (R272 to R274). -/
noncomputable def decodeMajor25 (w : Nat) : Option Instr :=
  match w / 64 % 8 with
  | 0 => if w / 4096 % 4 = 0 ∧ w / 134217728 % 32 = 0 then some (.afor (.ofWord w)) else none
  | 1 => if w / 4096 % 1048576 = 0 then some (.anext (.ofWord w)) else none
  | 2 => if w / 16384 % 64 = 0 then some (.aldq (.ofWord w)) else none
  | 3 => if w / 16384 % 64 = 0 then some (.astq (.ofWord w)) else none
  | 4 => if w / 4096 % 4 = 0 then some (.aset (.ofWord w)) else none
  | 5 => if w / 8192 % 2 = 0 then some (.ainc (.ofWord w)) else none
  | 6 => if w / 512 % 2048 = 0 ∧ w / 134217728 % 32 = 0 then some (.asig (.ofWord w)) else none
  | 7 => if w / 512 % 8388608 = 0 then some (.ahalt) else none
  | _ => none

/-- Major 26 (R272 to R274). -/
noncomputable def decodeMajor26 (w : Nat) : Option Instr :=
  match w / 64 % 16 with
  | 0 => if w / 1024 % 4194304 = 0 then some (.mbank) else none
  | 1 => if w / 1024 % 4194304 = 0 then some (.mfree) else none
  | 2 => if w / 131072 % 32768 = 0 then some (.mzero (.ofWord w)) else none
  | 3 => if w / 4194304 % 16 = 0 then some (.mld (.ofWord w)) else none
  | 4 => if w / 4194304 % 16 = 0 then some (.mst (.ofWord w)) else none
  | 5 => if w / 1024 % 1024 = 0 ∧ w / 67108864 % 64 = 0 then some (.mmask (.ofWord w)) else none
  | 6 => some (.mma (.ofWord w))
  | 7 => some (.mml (.ofWord w))
  | 8 => if w / 131072 % 8 = 0 then some (.msca (.ofWord w)) else none
  | 9 => if w / 536870912 % 8 = 0 then some (.mcvt (.ofWord w)) else none
  | _ => none

/-- Major 27 (R272 to R274). -/
noncomputable def decodeMajor27 (w : Nat) : Option Instr :=
  match w / 64 % 32 with
  | 0 => if w / 536870912 % 4 = 0 then some (.dld (.ofWord w)) else none
  | 1 => if w / 536870912 % 4 = 0 then some (.dst (.ofWord w)) else none
  | 2 => if w / 8192 % 16 = 0 ∧ w / 268435456 % 8 = 0 then some (.dfromv (.ofWord w)) else none
  | 3 => if w / 33554432 % 8 = 0 then some (.dtov (.ofWord w)) else none
  | 4 => if w / 4194304 % 512 = 0 then some (.dmov (.ofWord w)) else none
  | 5 => if w / 268435456 % 8 = 0 then some (.dadd (.ofWord w)) else none
  | 6 => if w / 268435456 % 8 = 0 then some (.dsub (.ofWord w)) else none
  | 7 => if w / 268435456 % 8 = 0 then some (.dmix (.ofWord w)) else none
  | 8 => if w / 268435456 % 8 = 0 then some (.dhad (.ofWord w)) else none
  | 9 => if w / 131072 % 32 = 0 ∧ w / 268435456 % 8 = 0 then some (.dscl (.ofWord w)) else none
  | 10 => if w / 131072 % 32 = 0 ∧ w / 268435456 % 8 = 0 then some (.dsetn (.ofWord w)) else none
  | 11 => if w / 4194304 % 512 = 0 then some (.dnrm (.ofWord w)) else none
  | 12 => some (.ddot (.ofWord w))
  | 13 => some (.ddotf (.ofWord w))
  | 14 => if w / 268435456 % 8 = 0 then some (.dproj (.ofWord w)) else none
  | 15 => if w / 268435456 % 8 = 0 then some (.drefl (.ofWord w)) else none
  | 16 => if w / 8192 % 16 = 0 ∧ w / 16777216 % 128 = 0 then some (.dtest (.ofWord w)) else none
  | _ => none

/-- Major 28 (R272 to R274). -/
noncomputable def decodeMajor28 (w : Nat) : Option Instr :=
  match w / 64 % 32 with
  | 0 => some (.faddF32Rz (.ofWord w))
  | 1 => some (.fsubF32Rz (.ofWord w))
  | 2 => some (.fmulF32Rz (.ofWord w))
  | 3 => some (.faccF32Rz (.ofWord w))
  | 4 => some (.faddF32Ru (.ofWord w))
  | 5 => some (.fsubF32Ru (.ofWord w))
  | 6 => some (.fmulF32Ru (.ofWord w))
  | 7 => some (.faccF32Ru (.ofWord w))
  | 8 => some (.faddF32Rd (.ofWord w))
  | 9 => some (.fsubF32Rd (.ofWord w))
  | 10 => some (.fmulF32Rd (.ofWord w))
  | 11 => some (.faccF32Rd (.ofWord w))
  | 12 => some (.fminF16x2 (.ofWord w))
  | 13 => some (.fmaxF16x2 (.ofWord w))
  | 14 => some (.fminBf16x2 (.ofWord w))
  | 15 => some (.fmaxBf16x2 (.ofWord w))
  | _ => none

/-- Major 29 (R272 to R274). -/
noncomputable def decodeMajor29 (w : Nat) : Option Instr :=
  match w / 64 % 32 with
  | 0 => some (.faddF32RzVu (.ofWord w))
  | 1 => some (.fsubF32RzVu (.ofWord w))
  | 2 => some (.fmulF32RzVu (.ofWord w))
  | 3 => some (.faccF32RzVu (.ofWord w))
  | 4 => some (.faddF32RuVu (.ofWord w))
  | 5 => some (.fsubF32RuVu (.ofWord w))
  | 6 => some (.fmulF32RuVu (.ofWord w))
  | 7 => some (.faccF32RuVu (.ofWord w))
  | 8 => some (.faddF32RdVu (.ofWord w))
  | 9 => some (.fsubF32RdVu (.ofWord w))
  | 10 => some (.fmulF32RdVu (.ofWord w))
  | 11 => some (.faccF32RdVu (.ofWord w))
  | 12 => some (.fminF16x2Vu (.ofWord w))
  | 13 => some (.fmaxF16x2Vu (.ofWord w))
  | 14 => some (.fminBf16x2Vu (.ofWord w))
  | 15 => some (.fmaxBf16x2Vu (.ofWord w))
  | _ => none

/-- Major 31 (R272 to R274). -/
noncomputable def decodeMajor31 (w : Nat) : Option Instr :=
  some (.clauseHeader (.ofWord w))

/-- A 32-bit parcel, by bit 0 and MAJOR (R266, R272). -/
noncomputable def decode32 (w : Nat) : Option Instr :=
  match w % 64 with
  | 1 => decodeMajor0 w
  | 3 => decodeMajor1 w
  | 5 => decodeMajor2 w
  | 7 => decodeMajor3 w
  | 9 => decodeMajor4 w
  | 11 => decodeMajor5 w
  | 13 => decodeMajor6 w
  | 15 => decodeMajor7 w
  | 17 => decodeMajor8 w
  | 19 => decodeMajor9 w
  | 21 => decodeMajor10 w
  | 23 => decodeMajor11 w
  | 25 => decodeMajor12 w
  | 27 => decodeMajor13 w
  | 29 => decodeMajor14 w
  | 31 => decodeMajor15 w
  | 33 => decodeMajor16 w
  | 35 => decodeMajor17 w
  | 37 => decodeMajor18 w
  | 39 => decodeMajor19 w
  | 41 => decodeMajor20 w
  | 43 => decodeMajor21 w
  | 45 => decodeMajor22 w
  | 47 => decodeMajor23 w
  | 49 => decodeMajor24 w
  | 51 => decodeMajor25 w
  | 53 => decodeMajor26 w
  | 55 => decodeMajor27 w
  | 57 => decodeMajor28 w
  | 59 => decodeMajor29 w
  | 63 => decodeMajor31 w
  | _ => none

/-- A 16-bit parcel (R271). -/
noncomputable def decode16 (w : Nat) : Option Instr :=
  match w % 32 with
  | 0 => some (.vaddN (.ofWord w))
  | 2 => some (.vsubN (.ofWord w))
  | 4 => some (.vmulN (.ofWord w))
  | 6 => some (.vandN (.ofWord w))
  | 8 => some (.vorN (.ofWord w))
  | 10 => some (.vxorN (.ofWord w))
  | 12 => some (.vshlN (.ofWord w))
  | 14 => some (.vshrN (.ofWord w))
  | 16 => some (.vsarN (.ofWord w))
  | 18 => some (.vmovN (.ofWord w))
  | 20 => some (.vminS32N (.ofWord w))
  | 22 => some (.vmaxS32N (.ofWord w))
  | 24 => some (.faddF32N (.ofWord w))
  | 26 => some (.fsubF32N (.ofWord w))
  | 28 => some (.fmulF32N (.ofWord w))
  | 30 => some (.fmaxF32N (.ofWord w))
  | _ => none

/-- The minors a vector major assigns (R273). -/
def vectorMinors (major : Nat) : List Nat :=
  match major with
  | 0 => [0, 1, 2, 3, 4, 5, 6, 7, 8, 9, 10, 11, 12, 13, 14, 15, 16, 17, 18, 19, 20, 21, 22, 23, 24, 25, 26, 27]
  | 1 => [0, 1, 2, 3, 4, 5, 6, 7, 9, 10, 11, 12, 13, 15, 16, 17, 18, 21, 22, 27]
  | 2 => [0, 1, 2, 3, 4, 5, 6, 7, 8, 9, 10, 11, 12, 13, 14, 15, 16, 17, 18, 19, 20, 21, 22, 23, 24, 25, 26, 27, 28, 29]
  | 3 => [0, 1, 2, 3, 4, 5, 8, 10, 12, 13, 14, 15, 16, 17, 18, 19, 20, 21]
  | 4 => [0, 1, 2, 3, 4, 5, 6, 7, 8, 9, 10, 11, 12, 13, 14, 15, 16, 17, 18, 19, 20, 21]
  | 5 => [11]
  | 6 => [0, 1, 2, 3, 4, 5, 8, 9, 10, 11, 12, 13, 14, 15, 16, 17, 18, 19, 20, 21, 22, 23, 24, 25, 26, 27, 28, 29]
  | 7 => [0, 1, 2, 3, 4, 5, 8, 9, 10, 11, 12, 13, 14, 15, 16, 17, 18, 19, 20, 21, 22, 23, 24, 25, 26, 27, 28, 29]
  | 28 => [0, 1, 2, 3, 4, 5, 6, 7, 8, 9, 10, 11, 12, 13, 14, 15]
  | 29 => [0, 1, 2, 3, 4, 5, 6, 7, 8, 9, 10, 11, 12, 13, 14, 15]
  | _ => []

/-- The trap code of a 32-bit word that no row of the opcode table matches (R275). -/
def refusedCode (w : Nat) : Nat :=
  let major := w / 2 % 32
  let minor5 := w / 64 % 32
  if major = 30 ∨ major = 31 then 1
  else if major < 8 ∨ major = 28 ∨ major = 29 then
    if minor5 ∈ vectorMinors major then
      if major = 0 ∧ minor5 = 19 ∧ (w / 134217728 % 4 = 3 ∨ w / 134217728 % 4 = 0) then 4 else 3
    else if major % 2 = 1 ∧ minor5 ∈ vectorMinors (major - 1) then 8
    else 2
  else if major < 16 then
    if (major = 12 ∧ w / 64 % 4 = 3) ∨ (major = 13 ∧ 2 ≤ w / 64 % 4) then 2 else 3
  else if major = 16 then if 5 ≤ w / 64 % 8 then 2 else 3
  else if major = 17 then
    if (w / 64 % 8 = 6 ∨ w / 64 % 8 = 7) ∧ 3 ≤ w / 512 % 16 then 2 else 3
  else if major < 21 then 2
  else if major = 24 then if 13 ≤ w / 64 % 16 then 2 else 3
  else if major = 26 then if 10 ≤ w / 64 % 16 then 2 else 3
  else if major = 27 then if 17 ≤ minor5 then 2 else 3
  else 3

/-- Why a parcel is not an instruction. -/
inductive DecodeError where
  /-- The bytes end inside the parcel. -/
  | truncated
  /-- Illegal-instruction trap with this code (R275). -/
  | illegal (code : Nat)
  deriving DecidableEq, Repr

/-- The little-endian number in the first `n` bytes (R3). -/
def leNat : Bytes → Nat
  | [] => 0
  | b :: bs => b.toNat + 256 * leNat bs

/-- `n` bytes of a number, little-endian (R3). -/
def leBytes : Nat → Nat → Bytes
  | 0, _ => []
  | n + 1, x => BitVec.ofNat 8 x :: leBytes n (x / 256)

/-- One parcel from a run of bytes: bit 0 of its first halfword gives its length (R260). -/
noncomputable def decodeParcel (bs : Bytes) : Except DecodeError (Instr × Bytes) :=
  match bs with
  | b0 :: b1 :: rest =>
    if b0.toNat % 2 = 0 then
      match decode16 (leNat [b0, b1]) with
      | some i => .ok (i, rest)
      | none => .error (.illegal 2)
    else
      match rest with
      | b2 :: b3 :: rest' =>
        match decode32 (leNat [b0, b1, b2, b3]) with
        | some i => .ok (i, rest')
        | none => .error (.illegal (refusedCode (leNat [b0, b1, b2, b3])))
      | _ => .error .truncated
  | _ => .error .truncated

/-- The instruction read from the table's bits `w`, `nbits` of them, laid out as R260 stores them. -/
noncomputable def decodeTableWord (nbits w : Nat) : Option Instr :=
  match decodeParcel (leBytes 4 (w % 2 ^ nbits)) with
  | .ok (i, _) => some i
  | .error _ => none

/-- Bits and word of an encoded instruction; `none` for the device's steps, which have no word. -/
def encodeWord (i : Instr) : Option (Nat × Nat) :=
  match i with
  | .powerOnReset _ => none
  | .regulatorsStarted => none
  | .regulatorFault _ => none
  | .hostPortLanesTrained => none
  | .hostLaneTrainingFailure _ => none
  | .ieee1588Lock _ => none
  | .ieee1588LockLoss => none
  | .selfTestComplete _ => none
  | .firmwareMeasurement _ => none
  | .bringupStateTimeout => none
  | .voltageSettled _ => none
  | .partitionFirmwareUpdate _ _ => none
  | .hbmChannelRetraining _ => none
  | .lodraLaneRecalibration _ _ => none
  | .hostPortLaneRecalibration _ => none
  | .spareRemap _ _ => none
  | .configStatusRead _ => none
  | .configRegisterWriteSet _ => none
  | .configRegisterRead _ => none
  | .configFirmwareLoad _ => none
  | .configRetest _ => none
  | .configReset _ => none
  | .configAttestation _ => none
  | .configQueuePair _ => none
  | .meterset _ => none
  | .contextDestroy _ => none
  | .partitionTableChange _ => none
  | .wayMaskChange _ _ => none
  | .serverTemplateChange _ _ => none
  | .lendClear _ => none
  | .hardwareQueueBind _ => none
  | .tinv _ => none
  | .traceEnable _ => none
  | .dsel _ => none
  | .dresume _ => none
  | .dclr _ => none
  | .ethernetFrame _ => none
  | .mkaFrame _ => none
  | .icmpv6Echo _ _ _ => none
  | .neighbourDiscovery _ _ => none
  | .ptpMessage _ => none
  | .rdmaWrite _ _ _ _ => none
  | .rdmaRead _ _ _ _ => none
  | .send _ _ => none
  | .roceAck _ => none
  | .roceNak _ => none
  | .retransmissionTimeout _ => none
  | .pfcPause _ _ => none
  | .setRing _ => none
  | .advanceTail _ => none
  | .resetRing _ => none
  | .resetRingComplete _ => none
  | .commandTake _ => none
  | .launch _ => none
  | .launchStart _ => none
  | .copyh _ => none
  | .lease _ => none
  | .leaseLive _ _ => none
  | .release _ => none
  | .signal _ => none
  | .waitsem _ => none
  | .waitsemTimeout _ => none
  | .edge _ => none
  | .edgeDestroyComplete _ => none
  | .route _ _ => none
  | .routeMatchTimeout _ => none
  | .routeDrainComplete _ => none
  | .recall _ => none
  | .readmeter _ => none
  | .flit _ => none
  | .requestTimeout _ => none
  | .mailboxMessage _ => none
  | .mailboxResponse _ => none
  | .mailboxRetry _ _ _ => none
  | .readLine _ => none
  | .readLineUncached _ => none
  | .writeLine _ => none
  | .maskedWrite _ => none
  | .atomicWithReturn _ => none
  | .reductionNoReturn _ => none
  | .prefetchToL2 _ => none
  | .invalidateLine _ => none
  | .zeroLine _ => none
  | .readData _ => none
  | .writeAcknowledgement _ => none
  | .atomicResult _ => none
  | .accessFault _ => none
  | .linkDataFlit _ _ => none
  | .linkIdleFlit _ _ => none
  | .replayRequest _ _ => none
  | .linkRetrain _ => none
  | .linkRetrainComplete _ _ => none
  | .linkDown _ => none
  | .linkReturn _ => none
  | .remoteRequest _ => none
  | .ack _ => none
  | .ackTimer _ => none
  | .flowTimeout _ => none
  | .freset _ => none
  | .hoist _ => none
  | .go _ => none
  | .abort _ => none
  | .withdraw _ => none
  | .hoistTimeout _ => none
  | .collectiveComplete _ _ => none
  | .serverWake _ => none
  | .arbitration _ _ => none
  | .unitEnd _ => none
  | .cappedRelease _ => none
  | .lendDelayExpiry _ => none
  | .cooperativeWindowExpiry _ => none
  | .distributorRound _ => none
  | .ageLimitReached _ => none
  | .cooperativeStop _ _ => none
  | .forcedHalt _ _ => none
  | .teamOffCore _ => none
  | .hotSpotMigration _ => none
  | .watchdogExpiry => none
  | .lateFault _ _ => none
  | .gridEnd _ => none
  | .teamComplete _ => none
  | .groupUnpark _ _ => none
  | .clauseEntry _ _ _ => none
  | .slewStepBoundary _ => none
  | .droopTrip _ => none
  | .droopSkipEnd _ => none
  | .thermalSample _ _ => none
  | .pageWalk _ _ _ => none
  | .scrubFrame _ => none
  | .scrubFrameComplete _ => none
  | .waitmemWake _ _ _ => none
  | .waitmemRecheck _ _ _ => none
  | .sleepExpiry _ _ _ => none
  | .barrierRelease _ _ => none
  | .fenceTakesEffect _ _ _ => none
  | .copyChunk _ _ => none
  | .copyComplete _ _ => none
  | .matrixQueueTurn _ _ => none
  | .directionPipeEnd _ _ => none
  | .registerAllocationRetry _ => none
  | .registerBlockGrant _ _ => none
  | .matrixBankGrant _ => none
  | .breakpointMatch _ _ _ => none
  | .traceWrittenUpdate _ => none
  | .sample _ _ => none
  | .counterSnapshot => none
  | .illegalInstruction _ => none
  | .hbmChannelRetrainingComplete _ => none
  | .lodraLaneRecalibrationComplete _ _ => none
  | .hostPortLaneRecalibrationComplete _ => none
  | .rdmaReadResponse _ _ => none
  | .pfcPauseExpiry => none
  | .voltageBackInRegulation _ => none
  | .clauseHeader f => some (32, 63 + f.word)
  | .vadd f => some (32, 1 + f.word)
  | .vsub f => some (32, 65 + f.word)
  | .vmul f => some (32, 129 + f.word)
  | .vmulhS32 f => some (32, 193 + f.word)
  | .vmad f => some (32, 257 + f.word)
  | .vand f => some (32, 321 + f.word)
  | .vor f => some (32, 385 + f.word)
  | .vxor f => some (32, 449 + f.word)
  | .vnot f => some (32, 513 + f.word)
  | .vshl f => some (32, 577 + f.word)
  | .vshr f => some (32, 641 + f.word)
  | .vsar f => some (32, 705 + f.word)
  | .vminS32 f => some (32, 769 + f.word)
  | .vmaxS32 f => some (32, 833 + f.word)
  | .vabs f => some (32, 897 + f.word)
  | .vaddsS32 f => some (32, 961 + f.word)
  | .vsubsS32 f => some (32, 1025 + f.word)
  | .vcmp f => some (32, 1089 + f.word)
  | .vsel f => some (32, 1153 + f.word)
  | .vmov f => some (32, 1217 + f.word)
  | .vmovMbs f => some (32, 134218945 + f.word)
  | .vmovMbg f => some (32, 268436673 + f.word)
  | .vli f => some (32, 1281 + f.word)
  | .vbfe f => some (32, 1345 + f.word)
  | .vbfi f => some (32, 1409 + f.word)
  | .vclz f => some (32, 1473 + f.word)
  | .vctz f => some (32, 1537 + f.word)
  | .vffs f => some (32, 1601 + f.word)
  | .vpopc f => some (32, 1665 + f.word)
  | .vdot4S8 f => some (32, 1729 + f.word)
  | .vaddVu f => some (32, 3 + f.word)
  | .vsubVu f => some (32, 67 + f.word)
  | .vmulVu f => some (32, 131 + f.word)
  | .vmulhS32Vu f => some (32, 195 + f.word)
  | .vmadVu f => some (32, 259 + f.word)
  | .vandVu f => some (32, 323 + f.word)
  | .vorVu f => some (32, 387 + f.word)
  | .vxorVu f => some (32, 451 + f.word)
  | .vshlVu f => some (32, 579 + f.word)
  | .vshrVu f => some (32, 643 + f.word)
  | .vsarVu f => some (32, 707 + f.word)
  | .vminS32Vu f => some (32, 771 + f.word)
  | .vmaxS32Vu f => some (32, 835 + f.word)
  | .vaddsS32Vu f => some (32, 963 + f.word)
  | .vsubsS32Vu f => some (32, 1027 + f.word)
  | .vcmpVu f => some (32, 1091 + f.word)
  | .vselVu f => some (32, 1155 + f.word)
  | .vbfeVu f => some (32, 1347 + f.word)
  | .vbfiVu f => some (32, 1411 + f.word)
  | .vdot4S8Vu f => some (32, 1731 + f.word)
  | .faddF32 f => some (32, 5 + f.word)
  | .fsubF32 f => some (32, 69 + f.word)
  | .fmulF32 f => some (32, 133 + f.word)
  | .faccF32 f => some (32, 197 + f.word)
  | .fminF32 f => some (32, 261 + f.word)
  | .fmaxF32 f => some (32, 325 + f.word)
  | .fneg f => some (32, 389 + f.word)
  | .fabs f => some (32, 453 + f.word)
  | .fcmp f => some (32, 517 + f.word)
  | .fclass f => some (32, 581 + f.word)
  | .fscale f => some (32, 645 + f.word)
  | .frnd f => some (32, 709 + f.word)
  | .fdot2F16 f => some (32, 773 + f.word)
  | .fdot2Bf16 f => some (32, 837 + f.word)
  | .faddF16x2 f => some (32, 901 + f.word)
  | .fsubF16x2 f => some (32, 965 + f.word)
  | .fmulF16x2 f => some (32, 1029 + f.word)
  | .faccF16x2 f => some (32, 1093 + f.word)
  | .faddBf16x2 f => some (32, 1157 + f.word)
  | .fsubBf16x2 f => some (32, 1221 + f.word)
  | .fmulBf16x2 f => some (32, 1285 + f.word)
  | .faccBf16x2 f => some (32, 1349 + f.word)
  | .rcp f => some (32, 1413 + f.word)
  | .rsq f => some (32, 1477 + f.word)
  | .sqrt f => some (32, 1541 + f.word)
  | .exp2 f => some (32, 1605 + f.word)
  | .log2 f => some (32, 1669 + f.word)
  | .sin f => some (32, 1733 + f.word)
  | .cos f => some (32, 1797 + f.word)
  | .tanh f => some (32, 1861 + f.word)
  | .faddF32Vu f => some (32, 7 + f.word)
  | .fsubF32Vu f => some (32, 71 + f.word)
  | .fmulF32Vu f => some (32, 135 + f.word)
  | .faccF32Vu f => some (32, 199 + f.word)
  | .fminF32Vu f => some (32, 263 + f.word)
  | .fmaxF32Vu f => some (32, 327 + f.word)
  | .fcmpVu f => some (32, 519 + f.word)
  | .fscaleVu f => some (32, 647 + f.word)
  | .fdot2F16Vu f => some (32, 775 + f.word)
  | .fdot2Bf16Vu f => some (32, 839 + f.word)
  | .faddF16x2Vu f => some (32, 903 + f.word)
  | .fsubF16x2Vu f => some (32, 967 + f.word)
  | .fmulF16x2Vu f => some (32, 1031 + f.word)
  | .faccF16x2Vu f => some (32, 1095 + f.word)
  | .faddBf16x2Vu f => some (32, 1159 + f.word)
  | .fsubBf16x2Vu f => some (32, 1223 + f.word)
  | .fmulBf16x2Vu f => some (32, 1287 + f.word)
  | .faccBf16x2Vu f => some (32, 1351 + f.word)
  | .cvtToF32 f => some (32, 9 + f.word)
  | .cvtFromF32 f => some (32, 73 + f.word)
  | .cvtInt f => some (32, 137 + f.word)
  | .cvtF16F8 f => some (32, 201 + f.word)
  | .pack2 f => some (32, 265 + f.word)
  | .pack4 f => some (32, 329 + f.word)
  | .unpk f => some (32, 393 + f.word)
  | .pk6 f => some (32, 457 + f.word)
  | .upk6 f => some (32, 521 + f.word)
  | .cbset f => some (32, 585 + f.word)
  | .cbenc f => some (32, 649 + f.word)
  | .shfl f => some (32, 713 + f.word)
  | .shflVu f => some (32, 715 + f.word)
  | .vote f => some (32, 777 + f.word)
  | .bcast f => some (32, 841 + f.word)
  | .lanei f => some (32, 905 + f.word)
  | .redu f => some (32, 969 + f.word)
  | .scan f => some (32, 1033 + f.word)
  | .pand f => some (32, 1097 + f.word)
  | .por f => some (32, 1161 + f.word)
  | .pxor f => some (32, 1225 + f.word)
  | .pnot f => some (32, 1289 + f.word)
  | .pmov f => some (32, 1353 + f.word)
  | .vmulhZ32 f => some (32, 13 + f.word)
  | .vminZ32 f => some (32, 77 + f.word)
  | .vmaxZ32 f => some (32, 141 + f.word)
  | .vaddsZ32 f => some (32, 205 + f.word)
  | .vsubsZ32 f => some (32, 269 + f.word)
  | .vdot4Z8 f => some (32, 333 + f.word)
  | .vaddI16x2 f => some (32, 525 + f.word)
  | .vsubI16x2 f => some (32, 589 + f.word)
  | .vmulI16x2 f => some (32, 653 + f.word)
  | .vminS16x2 f => some (32, 717 + f.word)
  | .vmaxS16x2 f => some (32, 781 + f.word)
  | .vminZ16x2 f => some (32, 845 + f.word)
  | .vmaxZ16x2 f => some (32, 909 + f.word)
  | .vaddsS16x2 f => some (32, 973 + f.word)
  | .vsubsS16x2 f => some (32, 1037 + f.word)
  | .vaddsZ16x2 f => some (32, 1101 + f.word)
  | .vsubsZ16x2 f => some (32, 1165 + f.word)
  | .vaddI8x4 f => some (32, 1229 + f.word)
  | .vsubI8x4 f => some (32, 1293 + f.word)
  | .vmulI8x4 f => some (32, 1357 + f.word)
  | .vminS8x4 f => some (32, 1421 + f.word)
  | .vmaxS8x4 f => some (32, 1485 + f.word)
  | .vminZ8x4 f => some (32, 1549 + f.word)
  | .vmaxZ8x4 f => some (32, 1613 + f.word)
  | .vaddsS8x4 f => some (32, 1677 + f.word)
  | .vsubsS8x4 f => some (32, 1741 + f.word)
  | .vaddsZ8x4 f => some (32, 1805 + f.word)
  | .vsubsZ8x4 f => some (32, 1869 + f.word)
  | .vmulhZ32Vu f => some (32, 15 + f.word)
  | .vminZ32Vu f => some (32, 79 + f.word)
  | .vmaxZ32Vu f => some (32, 143 + f.word)
  | .vaddsZ32Vu f => some (32, 207 + f.word)
  | .vsubsZ32Vu f => some (32, 271 + f.word)
  | .vdot4Z8Vu f => some (32, 335 + f.word)
  | .vaddI16x2Vu f => some (32, 527 + f.word)
  | .vsubI16x2Vu f => some (32, 591 + f.word)
  | .vmulI16x2Vu f => some (32, 655 + f.word)
  | .vminS16x2Vu f => some (32, 719 + f.word)
  | .vmaxS16x2Vu f => some (32, 783 + f.word)
  | .vminZ16x2Vu f => some (32, 847 + f.word)
  | .vmaxZ16x2Vu f => some (32, 911 + f.word)
  | .vaddsS16x2Vu f => some (32, 975 + f.word)
  | .vsubsS16x2Vu f => some (32, 1039 + f.word)
  | .vaddsZ16x2Vu f => some (32, 1103 + f.word)
  | .vsubsZ16x2Vu f => some (32, 1167 + f.word)
  | .vaddI8x4Vu f => some (32, 1231 + f.word)
  | .vsubI8x4Vu f => some (32, 1295 + f.word)
  | .vmulI8x4Vu f => some (32, 1359 + f.word)
  | .vminS8x4Vu f => some (32, 1423 + f.word)
  | .vmaxS8x4Vu f => some (32, 1487 + f.word)
  | .vminZ8x4Vu f => some (32, 1551 + f.word)
  | .vmaxZ8x4Vu f => some (32, 1615 + f.word)
  | .vaddsS8x4Vu f => some (32, 1679 + f.word)
  | .vsubsS8x4Vu f => some (32, 1743 + f.word)
  | .vaddsZ8x4Vu f => some (32, 1807 + f.word)
  | .vsubsZ8x4Vu f => some (32, 1871 + f.word)
  | .faddF32Rz f => some (32, 57 + f.word)
  | .fsubF32Rz f => some (32, 121 + f.word)
  | .fmulF32Rz f => some (32, 185 + f.word)
  | .faccF32Rz f => some (32, 249 + f.word)
  | .faddF32Ru f => some (32, 313 + f.word)
  | .fsubF32Ru f => some (32, 377 + f.word)
  | .fmulF32Ru f => some (32, 441 + f.word)
  | .faccF32Ru f => some (32, 505 + f.word)
  | .faddF32Rd f => some (32, 569 + f.word)
  | .fsubF32Rd f => some (32, 633 + f.word)
  | .fmulF32Rd f => some (32, 697 + f.word)
  | .faccF32Rd f => some (32, 761 + f.word)
  | .fminF16x2 f => some (32, 825 + f.word)
  | .fmaxF16x2 f => some (32, 889 + f.word)
  | .fminBf16x2 f => some (32, 953 + f.word)
  | .fmaxBf16x2 f => some (32, 1017 + f.word)
  | .faddF32RzVu f => some (32, 59 + f.word)
  | .fsubF32RzVu f => some (32, 123 + f.word)
  | .fmulF32RzVu f => some (32, 187 + f.word)
  | .faccF32RzVu f => some (32, 251 + f.word)
  | .faddF32RuVu f => some (32, 315 + f.word)
  | .fsubF32RuVu f => some (32, 379 + f.word)
  | .fmulF32RuVu f => some (32, 443 + f.word)
  | .faccF32RuVu f => some (32, 507 + f.word)
  | .faddF32RdVu f => some (32, 571 + f.word)
  | .fsubF32RdVu f => some (32, 635 + f.word)
  | .fmulF32RdVu f => some (32, 699 + f.word)
  | .faccF32RdVu f => some (32, 763 + f.word)
  | .fminF16x2Vu f => some (32, 827 + f.word)
  | .fmaxF16x2Vu f => some (32, 891 + f.word)
  | .fminBf16x2Vu f => some (32, 955 + f.word)
  | .fmaxBf16x2Vu f => some (32, 1019 + f.word)
  | .vaddN f => some (16, 0 + f.word)
  | .vsubN f => some (16, 2 + f.word)
  | .vmulN f => some (16, 4 + f.word)
  | .vandN f => some (16, 6 + f.word)
  | .vorN f => some (16, 8 + f.word)
  | .vxorN f => some (16, 10 + f.word)
  | .vshlN f => some (16, 12 + f.word)
  | .vshrN f => some (16, 14 + f.word)
  | .vsarN f => some (16, 16 + f.word)
  | .vmovN f => some (16, 18 + f.word)
  | .vminS32N f => some (16, 20 + f.word)
  | .vmaxS32N f => some (16, 22 + f.word)
  | .faddF32N f => some (16, 24 + f.word)
  | .fsubF32N f => some (16, 26 + f.word)
  | .fmulF32N f => some (16, 28 + f.word)
  | .fmaxF32N f => some (16, 30 + f.word)
  | .uadd f => some (32, 17 + f.word)
  | .usub f => some (32, 81 + f.word)
  | .umul f => some (32, 145 + f.word)
  | .umulh f => some (32, 209 + f.word)
  | .umad f => some (32, 19 + f.word)
  | .uand f => some (32, 83 + f.word)
  | .uor f => some (32, 147 + f.word)
  | .uxor f => some (32, 211 + f.word)
  | .ushl f => some (32, 21 + f.word)
  | .ushr f => some (32, 85 + f.word)
  | .usar f => some (32, 149 + f.word)
  | .umin f => some (32, 213 + f.word)
  | .umax f => some (32, 23 + f.word)
  | .ucmp f => some (32, 87 + f.word)
  | .usel f => some (32, 151 + f.word)
  | .umov f => some (32, 215 + f.word)
  | .uclz f => some (32, 25 + f.word)
  | .upopc f => some (32, 89 + f.word)
  | .ubfe f => some (32, 153 + f.word)
  | .uld f => some (32, 27 + f.word)
  | .ust f => some (32, 91 + f.word)
  | .uli f => some (32, 29 + f.word)
  | .ulih f => some (32, 93 + f.word)
  | .uaddi f => some (32, 157 + f.word)
  | .urds f => some (32, 221 + f.word)
  | .uwrs f => some (32, 31 + f.word)
  | .racq => some (32, 95)
  | .rrel => some (32, 159)
  | .rdpm f => some (32, 223 + f.word)
  | .bra f => some (32, 33 + f.word)
  | .brak f => some (32, 97 + f.word)
  | .brx f => some (32, 161 + f.word)
  | .join => some (32, 225)
  | .call f => some (32, 289 + f.word)
  | .jmpi f => some (32, 35 + f.word)
  | .ret f => some (32, 99 + f.word)
  | .exit f => some (32, 163 + f.word)
  | .yieldd f => some (32, 227 + f.word)
  | .waitmem f => some (32, 291 + f.word)
  | .sleep f => some (32, 355 + f.word)
  | .bar f => some (32, 419 + f.word)
  | .bara f => some (32, 931 + f.word)
  | .barw f => some (32, 1443 + f.word)
  | .nop => some (32, 483)
  | .trap f => some (32, 995 + f.word)
  | .bkpt => some (32, 1507)
  | .ldgReg f => some (32, 37 + f.word)
  | .ldgSxReg f => some (32, 293 + f.word)
  | .stgReg f => some (32, 549 + f.word)
  | .ldgImm f => some (32, 39 + f.word)
  | .ldgSxImm f => some (32, 295 + f.word)
  | .stgImm f => some (32, 551 + f.word)
  | .ldsp f => some (32, 41 + f.word)
  | .ldspSx f => some (32, 297 + f.word)
  | .stsp f => some (32, 553 + f.word)
  | .atom f => some (32, 43 + f.word)
  | .red f => some (32, 45 + f.word)
  | .atsp f => some (32, 47 + f.word)
  | .pref f => some (32, 49 + f.word)
  | .fence f => some (32, 113 + f.word)
  | .fwait f => some (32, 177 + f.word)
  | .waitc f => some (32, 241 + f.word)
  | .spmap f => some (32, 305 + f.word)
  | .spfill f => some (32, 369 + f.word)
  | .spwb f => some (32, 433 + f.word)
  | .spinv f => some (32, 497 + f.word)
  | .cpy f => some (32, 561 + f.word)
  | .chain f => some (32, 625 + f.word)
  | .mbsetSend f => some (32, 689 + f.word)
  | .mbsetRecv f => some (32, 4785 + f.word)
  | .mbsetRoute f => some (32, 8881 + f.word)
  | .mbsetLocal f => some (32, 12977 + f.word)
  | .mbpoll f => some (32, 753 + f.word)
  | .coll f => some (32, 817 + f.word)
  | .afor f => some (32, 51 + f.word)
  | .anext f => some (32, 115 + f.word)
  | .aldq f => some (32, 179 + f.word)
  | .astq f => some (32, 243 + f.word)
  | .aset f => some (32, 307 + f.word)
  | .ainc f => some (32, 371 + f.word)
  | .asig f => some (32, 435 + f.word)
  | .ahalt => some (32, 499)
  | .mbank => some (32, 53)
  | .mfree => some (32, 117)
  | .mzero f => some (32, 181 + f.word)
  | .mld f => some (32, 245 + f.word)
  | .mst f => some (32, 309 + f.word)
  | .mmask f => some (32, 373 + f.word)
  | .mma f => some (32, 437 + f.word)
  | .mml f => some (32, 501 + f.word)
  | .msca f => some (32, 565 + f.word)
  | .mcvt f => some (32, 629 + f.word)
  | .dld f => some (32, 55 + f.word)
  | .dst f => some (32, 119 + f.word)
  | .dfromv f => some (32, 183 + f.word)
  | .dtov f => some (32, 247 + f.word)
  | .dmov f => some (32, 311 + f.word)
  | .dadd f => some (32, 375 + f.word)
  | .dsub f => some (32, 439 + f.word)
  | .dmix f => some (32, 503 + f.word)
  | .dhad f => some (32, 567 + f.word)
  | .dscl f => some (32, 631 + f.word)
  | .dsetn f => some (32, 695 + f.word)
  | .dnrm f => some (32, 759 + f.word)
  | .ddot f => some (32, 823 + f.word)
  | .ddotf f => some (32, 887 + f.word)
  | .dproj f => some (32, 951 + f.word)
  | .drefl f => some (32, 1015 + f.word)
  | .dtest f => some (32, 1079 + f.word)

/-- The bytes of an encoded instruction, in the order R260 stores them. -/
def encode (i : Instr) : Option Bytes :=
  (encodeWord i).map fun (n, w) => leBytes (n / 8) w

end Sys2Proof
end

