-- ==== Sys2Proof/Config.lean ====
section
/-! DEFINITION. What an implementation fixes and the spec leaves free: constants with no body.
No proof can see a value of one of these, so every claim holds for all of them. -/

namespace Sys2Proof.Config

/-- Free values the device draws or the spec leaves open, by a counter the state holds (R80, R202). -/
opaque freeKey : Nat → BitVec 24
/-- The 48-bit SALT drawn at the n-th assignment of a context slot (R202). -/
opaque salt : Nat → BitVec 48
/-- Whichever outcome the device chooses where R7 lists several, by a counter the state holds. -/
opaque choice : Nat → Nat
/-- SHA-512 (R19, R20, R89): FIPS 180-4 names it; the spec does not restate it. -/
opaque sha512 : List Byte → BitVec 512
/-- Ed25519 verification of a signature over a digest under a 256-bit key (R19, R89). -/
opaque ed25519Verify : BitVec 256 → BitVec 512 → List Byte → Bool
/-- Ed25519 signature of a digest by the device's identity key (R20). -/
opaque identitySign : BitVec 512 → List Byte
/-- The Daluika firmware key whose hash is fused (R19). -/
opaque firmwareKey : BitVec 256
/-- The Daluika provisioning key whose hash is fused (R91). -/
opaque provisioningKey : BitVec 256
/-- The SEC-DED check code of a flit header's bits [119:0] (R32): the spec names no code (log 112). -/
opaque headerCode : BitVec 120 → BitVec 8
/-- What a byte behind a slice that is out of service reads as, by physical address and a counter the state holds (R24). -/
opaque lostByte : Nat → Nat → Byte
/-- IDENT.STEP, fixed per die (R25). -/
opaque stepping : BitVec 8

end Sys2Proof.Config
end

