-- ==== Sys2Proof/Machine/Maps.lean ====
section
/-! DEFINITION. Sparse maps: sorted lists of numbered entries in one canonical form.
A map lists keys strictly rising and no entry equal to what an unlisted key reads as. -/

namespace Sys2Proof.Machine

/-- A sparse map from numbers. -/
abbrev SMap (α : Type) := List (Nat × α)

/-- What key `k` holds; `d` is what an unlisted key reads as. -/
def SMap.get {α : Type} (d : α) : SMap α → Nat → α
  | [], _ => d
  | (k, v) :: m, i => if i = k then v else SMap.get d m i

/-- Whether key `k` is listed. -/
def SMap.find {α : Type} : SMap α → Nat → Option α
  | [], _ => none
  | (k, v) :: m, i => if i = k then some v else SMap.find m i

/-- Remove key `k`. -/
def SMap.erase {α : Type} : SMap α → Nat → SMap α
  | [], _ => []
  | (k, v) :: m, i => if i = k then SMap.erase m i else (k, v) :: SMap.erase m i

/-- List `v` at key `k`. -/
def SMap.put {α : Type} : SMap α → Nat → α → SMap α
  | [], i, x => [(i, x)]
  | (k, v) :: m, i, x =>
    if i = k then (i, x) :: m else if i < k then (i, x) :: (k, v) :: m else (k, v) :: SMap.put m i x

/-- Write `v` at key `k`: the value an unlisted key reads as removes the entry. -/
def SMap.set {α : Type} [DecidableEq α] (d : α) (m : SMap α) (i : Nat) (x : α) : SMap α :=
  if x = d then SMap.erase m i else SMap.put m i x

/-- Apply `f` to what key `k` holds, if it is listed. -/
def SMap.upd {α : Type} : SMap α → Nat → (α → α) → SMap α
  | [], _, _ => []
  | (k, v) :: m, i, f => if i = k then (k, f v) :: m else (k, v) :: SMap.upd m i f

/-- The canonical form: keys strictly rising, all above `lo`. -/
def SMap.sortedFrom {α : Type} : Nat → SMap α → Bool
  | _, [] => true
  | lo, (k, _) :: m => decide (lo ≤ k) && SMap.sortedFrom (k + 1) m

/-- The canonical form of a map whose unlisted keys read as `d`. -/
def SMap.wf {α : Type} [DecidableEq α] (d : α) (m : SMap α) : Bool :=
  SMap.sortedFrom 0 m && m.all fun e => decide (e.2 ≠ d)

/-- The canonical form of a memory: addresses strictly rising, and no byte listed that is 0, which is what an unlisted
address reads as. -/
def Memory.wf (m : List Host.Cell) : Bool := SMap.wf 0 m

/-- Replace element `n` of a list. -/
def setAt {α : Type} : List α → Nat → α → List α
  | [], _, _ => []
  | _ :: xs, 0, y => y :: xs
  | x :: xs, n + 1, y => x :: setAt xs n y

/-- Apply `f` to element `n` of a list. -/
def updAt {α : Type} : List α → Nat → (α → α) → List α
  | [], _, _ => []
  | x :: xs, 0, f => f x :: xs
  | x :: xs, n + 1, f => x :: updAt xs n f

/-- The first element that `p` accepts, with its place. -/
def findAt {α : Type} (p : α → Bool) : List α → Option (Nat × α)
  | [] => none
  | x :: xs => if p x then some (0, x) else (findAt p xs).map fun (i, y) => (i + 1, y)

/-- The element with the least measure; the earlier one on a tie. -/
def leastBy {α : Type} (f : α → Nat) : List α → Option α
  | [] => none
  | x :: xs =>
    match leastBy f xs with
    | none => some x
    | some y => if f y < f x then some y else some x

/-- Apply `f` to every element that `p` accepts. -/
def mapIf {α : Type} (p : α → Bool) (f : α → α) (xs : List α) : List α :=
  xs.map fun x => if p x then f x else x

end Sys2Proof.Machine
end

