-- ==== Sys2Proof/Machine/State.lean ====
section
/-! DEFINITION. Everything the spec gives the machine, as plain data, and the machine after reset.

Every structure's default values are its values at reset or when the item comes into being. Registers
of the device register space (R25) have one home, `State.regs`, which lists only registers that do not
hold their reset value; `Machine/Regs.lean` gives their addresses, fields and reset values. -/

namespace Sys2Proof.Machine

/-- The image of one vector register: lane i in bits [32i+31:32i] (R45, R202). -/
abbrev VReg := BitVec 2048

/-- One 128-byte line (R156). -/
abbrev Line := BitVec 1024

/-- Reasons a step can stop the machine. -/
inductive Fault where
  /-- Raised by an encoded instruction when no path is issuing (`State.cur` is empty). Safe: the
  hardware has no such event. -/
  | noIssuingPath
  deriving DecidableEq, Repr

/-- Reasons a step has no meaning. -/
inductive Refusal where
  /-- Raised by the dispatcher for an instruction that has no meaning yet. Safe. -/
  | notModelled (mnemonic : String)
  deriving DecidableEq, Repr

/-- Stall reasons in the order of their codes (R251). -/
inductive Stall where
  | server | slew | fetch | collector | regAlloc | flag | barrier | waitmem | queue | matrix | mailbox
  deriving DecidableEq, Repr

/-- What a path that could not issue its next instruction waits for. The instruction issues again,
from the start, once the thing has come about; nothing was charged for it (R97, R198). -/
inductive Await where
  | vreg (n : Nat)
  /-- an MCVT that writes V register n (R372) -/
  | cvt (n : Nat)
  | sreg (n : Nat)
  | dreg (n : Nat)
  | dpipes
  | store (op : Nat)
  | ctrRoom (c : Nat)
  | flagRoom (f : Nat)
  | token (t : Nat)
  | busy (n : Nat)
  | msg (q : Nat)
  | qData (q n : Nat)
  | qRoom (q : Nat)
  | bankFree
  | bankQueue
  | copySlot
  | pool
  | place
  | extIdle
  | barPhase (b : Nat) (ph : Bool)
  | spLine (line : Nat)
  | spRange (lo len : Nat)
  | collRoom
  /-- the descriptor of a COLL (R355) -/
  | desc
  | slewGrant
  deriving DecidableEq, Repr

/-- Where a path waits at an instruction that has issued (R284, R286, R292, R294, R295), or for a counter to come to a threshold
by the operations that were counted when its WAITC issued (R346). -/
inductive Waiting where
  | none
  | join
  | barrier (b : Nat)
  | mem (addr : Nat) (val : W32) (eq watch : Bool) (recheck : Nat)
  | sleep (deadline : Nat)
  | counter (c thr : Nat) (ids : List Nat) (safe : Bool)
  deriving DecidableEq, Repr

/-- A fault record (R138). -/
structure FaultRec where
  cls : Nat := 0
  path : Nat := 0
  grp : Nat := 0
  ctx : Nat := 0
  trapped : Bool := false
  team : Nat := 0
  pc : W64 := 0
  mask : W64 := 0
  time : Nat := 0
  va : W64 := 0
  detail : Nat := 0
  further : Nat := 0
  /-- where it was raised, for its trace record (R244) -/
  core : Nat := 0
  deriving DecidableEq, Repr

/-- The descriptor that the COLL at which a path stands reads once (R355). -/
inductive CollDesc where
  | reading
  | bytes (img : Nat)
  | failed (cls : Nat) (va : W64) (detail : Nat)
  deriving DecidableEq, Repr

/-- One entry of the path table (R284), with what the issue logic keeps for it: the clause in progress
(R261, R262), the run count of R127, the order of creation (R126) and the wait it is in. -/
structure Path where
  valid : Bool := false
  mask : W64 := 0
  pc : W64 := 0
  link : Nat := 0
  linkv : Bool := false
  wait : Waiting := .none
  hndl : Bool := false
  dstop : Bool := false
  /-- parcels left of the clause in progress; 0 when the next parcel must be a header -/
  left : Nat := 0
  seta : BitVec 4 := 15
  setb : BitVec 4 := 15
  waitMask : BitVec 12 := 0
  /-- the WAIT test of the clause has not passed yet -/
  entry : Bool := false
  run : Nat := 0
  born : Nat := 0
  park : Option Await := none
  /-- where its FWAIT first issued, and the fence then bound to the token (R345) -/
  fwait : Option (W64 × Nat) := none
  /-- the address at which its next issue does not match a breakpoint (R255) -/
  bpSkip : Option W64 := none
  /-- what the COLL that it is about to issue has read -/
  desc : Option CollDesc := none
  /-- instructions that it has retired -/
  done : Nat := 0
  /-- what precedes its next instruction in program order and has not performed: operations, commands, direction writes in
  their pipes, and writes of others that its loads have returned (R177, R181, R184) -/
  past : List Nat := []
  /-- the record readable in the handler (R290, R302) -/
  frec : FaultRec := {}
  deriving DecidableEq, Repr

/-- A fence token (R181, R344): complete unless `out`. -/
structure Token where
  out : Bool := false
  kind : BitVec 2 := 0
  scope : BitVec 2 := 0
  pc : W64 := 0
  /-- which fence of the run it is that the token is bound to -/
  bound : Nat := 0
  /-- operations and copies of the covered set that have not performed -/
  covers : List Nat := []
  /-- an unreported deferred write-back fault: the address (R140) -/
  wbFault : Option W64 := none
  deriving DecidableEq, Repr

/-- A direction register (R213): component i in bits [16i+15:16i], and the norm code. -/
structure DReg where
  comps : VReg := 0
  norm : BitVec 16 := 0x8000
  deriving DecidableEq, Repr

/-- A direction write whose pipe has not ended (R214, R391). -/
structure DWrite where
  id : Nat
  d : Nat
  /-- the path that wrote it, by its place and its age, and what was in flight before it in program order -/
  path : Nat
  pid : Nat
  after : List Nat
  /-- the value the pipe writes, computed from the operands as collected -/
  val : DReg
  /-- the pipe's norm saturated: `GSR.DOV` sets with the write -/
  dov : Bool
  /-- the pipe has its operands (a DLD's has them once its words have returned) -/
  ready : Bool
  op : Nat := 0
  /-- the path as its instruction was about to issue, and how many it had retired -/
  back : Path := {}
  nth : Nat := 0
  deriving DecidableEq, Repr

/-- An operand queue (R215): its ring of entry slots, the counts of pops and pushes, fills in flight, and
entries popped by a matrix instruction and not released (R369). -/
structure OpQueue where
  slots : SMap VReg := []
  head : Nat := 0
  tail : Nat := 0
  fills : Nat := 0
  held : Nat := 0
  deriving DecidableEq, Repr

/-- One open loop of an access thread (R357). -/
structure Loop where
  count : Nat
  body : W64
  left : Nat
  deriving DecidableEq, Repr

/-- What an access thread waits for (R358). -/
inductive AccAwait where
  | flag (k : Nat) (acq : Bool)
  | flagRoom (k : Nat)
  | room (q : Nat)
  | data (q : Nat)
  | ctrRoom
  deriving DecidableEq, Repr

/-- A flag count raised by ASIG, and the stores it waits for (R358). -/
structure Sig where
  flag : Nat
  ops : List Nat
  deriving DecidableEq, Repr

/-- An access thread (R357). -/
structure Acc where
  pc : W64 := 0
  left : Nat := 0
  ax : SMap W64 := []
  loops : List Loop := []
  halted : Bool := false
  await : Option AccAwait := none
  stores : List Nat := []
  sigs : List Sig := []
  deriving DecidableEq, Repr

/-- MBSn of a group (R44). -/
structure MbSend where
  dcore : BitVec 8 := 0
  dq : BitVec 4 := 0
  svalid : Bool := false
  busy : Bool := false
  /-- the path, by place and age, and the instruction that wrote the message in flight -/
  path : Nat := 0
  pid : Nat := 0
  pc : W64 := 0
  /-- the message in flight, kept for injection again after a `full` response -/
  img : VReg := 0
  /-- the postmark of the next injection after a `full` response -/
  retry : Option Nat := none
  deriving DecidableEq, Repr

/-- MBGn of a group (R44). -/
structure MbRecv where
  rq : BitVec 4 := 0
  rvalid : Bool := false
  deriving DecidableEq, Repr

/-- A late fault not yet raised (R337). `pid` is the age of the path that caused it, which tells it from a later one in its
place. -/
structure LateFault where
  cls : Nat
  path : Nat
  pid : Nat
  pc : W64
  va : W64
  detail : Nat
  deriving DecidableEq, Repr

/-- A group in a group slot of a core (R199, R200, R284). -/
structure Group where
  ctx : Nat := 0
  team : Nat := 0
  num : Nat := 0
  quarter : Nat := 0
  grid : Nat := 0
  placed : Nat := 0
  paths : List Path := []
  exited : W64 := 0
  /-- every lane has exited; the slot waits for its writes (R287) -/
  done : Bool := false
  gsr : W32 := 0
  v : SMap VReg := []
  vname : SMap (BitVec 14) := []
  /-- saved values that a resumed group waits to place (R207) -/
  unplaced : SMap VReg := []
  s : SMap W32 := []
  p : SMap W64 := []
  k : BitVec 4 := 0
  flags : SMap Nat := []
  tokens : SMap Token := []
  d : SMap DReg := []
  queues : SMap OpQueue := []
  cb : BitVec 256 := 0
  mbs : SMap MbSend := []
  mbg : SMap MbRecv := []
  /-- remote binding (R341) -/
  route : Nat := 0
  fm : Bool := false
  rOn : Bool := false
  /-- in-flight counters GLD GST SPF SPW CPY QFL: operations raised on each, oldest first, with a mark
  on those that have reached their lowering event out of order (R174) -/
  ctrs : SMap (List (Nat × Bool)) := []
  issued : Nat := 0
  watchdog : Nat := 0
  gen : BitVec 4 := 0
  acc : Option Acc := none
  late : List LateFault := []
  /-- the counter snapshot: counter and value (R256) -/
  snap : Option (Nat × W64) := none
  dpipe : List DWrite := []
  /-- stopped under R131, with the live-mask word if it stopped at a safe point -/
  stopped : Bool := false
  liveMask : Option W32 := none
  /-- a safe point of this group has just retired: its live-mask word (R131) -/
  atSafe : Option W32 := none
  /-- resumed with an extended block that it has not drawn again (R304) -/
  redraw : Bool := false
  /-- matrix envelopes that replay before its first issue, and its team's bank where it is still to be acquired (R376) -/
  replays : Nat := 0
  /-- its image is being read back: it does not issue before (R102, R133) -/
  restoring : Bool := false
  deriving DecidableEq, Repr

/-- A physical vector register (R202, R204). -/
structure Pvr where
  ctx : Nat
  fp : BitVec 48
  count : Nat
  pinned : Bool := false
  collided : Bool := false
  shared : Bool
  wc : Nat
  val : VReg
  used : Nat
  /-- the stamp of its placing -/
  born : Nat := 0
  deriving DecidableEq, Repr

/-- A result-table entry (R208). `set` and `way` are its place. -/
structure RtEntry where
  set : Nat
  way : Nat := 0
  ctx : Nat
  opw : W32
  wc : Nat
  srca : BitVec 14
  srcb : BitVec 14
  srcc : BitVec 14
  uval : W64
  wmask : W64
  prior : BitVec 14
  grid : Nat
  val : BitVec 14
  xr : Bool
  mm : Bool
  load : Bool
  sp : Option Nat
  epoch : BitVec 32
  pages : List Nat
  used : Nat
  deriving DecidableEq, Repr

/-- A line of an L1 (R156): tagged by physical line number, in a way of its set. -/
structure L1Line where
  line : Nat
  way : Nat
  sg : Nat
  data : Line
  poison : BitVec 16
  used : Nat
  /-- when it was allocated -/
  born : Nat
  deriving DecidableEq, Repr

/-- A cached translation (R167): the leaf of one page. -/
structure TlbEnt where
  ctx : Nat
  page : Nat
  size : Nat
  leaf : W64
  used : Nat
  deriving DecidableEq, Repr

/-- A mailbox message (R45). -/
structure Msg where
  width : Nat
  img : VReg
  flits : Nat
  /-- a payload word has an uncorrectable error (R34) -/
  bad : Bool := false
  deriving DecidableEq, Repr

/-- A mailbox receive queue (R44): QSTATE 0 free, 1 open, 2 closed. -/
structure RecvQ where
  ctx : Nat := 0
  team : Nat := 0
  st : Nat := 0
  msgs : List Msg := []
  /-- group slots and paths that wait for a message, first waiter first (R47) -/
  waiters : List (Nat × Nat) := []
  deriving DecidableEq, Repr

/-- The kinds of instruction in a bank queue (R364). -/
inductive MKind where
  | free | zero | ld | st | mask | mma | mml | sca | cvt
  deriving DecidableEq, Repr

/-- An instruction in a bank queue (R364, R366). -/
structure MOp where
  kind : MKind
  ctx : Nat
  team : Nat
  slot : Nat
  gen : BitVec 4
  path : Nat
  pc : W64
  mask : W64
  region : Nat := 0
  ty : Nat := 0
  /-- captured fragments: the A and the B image of each step (R366) -/
  frags : List (List VReg × List VReg) := []
  /-- PVR keys the instruction holds references on (R204) -/
  refs : List Nat := []
  steps : Nat := 1
  step : Nat := 0
  aq : Option Nat := none
  bq : Option Nat := none
  rowM : W64 := 0
  colM : W64 := 0
  depM : W64 := 0
  d : Nat := 0
  mode : Nat := 0
  /-- the memory operation of an MLD or MST that selects an element -/
  op : Option Nat := none
  rel : Bool := false
  /-- the loop word of an MML -/
  loop : W32 := 0
  /-- a matrix envelope: its group waits for it before its first issue on resume (R376) -/
  replay : Bool := false
  /-- accesses that the acquire bit waits for (R188) -/
  acqOps : List Nat := []
  deriving DecidableEq, Repr

/-- An accumulator bank (R217): element (i, j) of tile t at key 4096 t + 64 i + j. -/
structure Bank where
  team : Option Nat := none
  tiles : SMap W32 := []
  rowM : W64 := 0
  colM : W64 := 0
  depM : W64 := 0
  q : List MOp := []
  /-- the step at the head of the queue has been granted and charged -/
  started : Bool := false
  shadow : Option (SMap W32) := none
  /-- queue entries popped by the instruction at the head, not released until it completes -/
  popped : List (Nat × VReg) := []
  deriving DecidableEq, Repr

/-- What the elements of a CHAIN go through (R351). -/
structure ChainSpec where
  srcTy : Nat
  dstTy : Nat
  ops : List (Nat × W32)
  deriving DecidableEq, Repr

/-- A copy slot in use (R218, R350). -/
structure Copy where
  slot : Nat
  gen : BitVec 4
  path : Nat
  pid : Nat := 0
  pc : W64
  ctx : Nat
  team : Nat
  id : Nat
  dst : W64
  src : W64
  len : Nat
  chain : Option ChainSpec := none
  rel : Bool := false
  scope : BitVec 2 := 0
  ssp : Bool := false
  dsp : Bool := false
  remote : Bool := false
  fm : Bool := false
  route : Nat := 0
  flag : Option Nat := none
  /-- accesses that the acquire bit waits for (R188) -/
  acqOps : List Nat := []
  /-- destination bytes written or sent -/
  pos : Nat := 0
  /-- the operation that reads the chunk's source -/
  read : Option Nat := none
  /-- the chunk has won its arbitration and is charged -/
  started : Bool := false
  turn : Nat := 0
  deriving DecidableEq, Repr

/-- A trace record waiting to be written (R244). -/
structure TraceRec where
  kind : Nat
  pidx : Nat
  grp : Nat
  det : Nat
  ctx : Nat
  core : Nat
  quarter : Nat
  pc : W64
  mask : W64
  time : Nat
  team : Nat
  arg : W64
  /-- the order of events -/
  seq : Nat := 0
  deriving DecidableEq, Repr

/-- A context slot of a core (R202, R252, R256). -/
structure CtxSlot where
  ctx : Nat
  salt : BitVec 48
  own : SMap Nat := []
  deriving DecidableEq, Repr

/-- A core (R194). -/
structure Core where
  groups : SMap Group := []
  gens : SMap (BitVec 4) := []
  slots : SMap CtxSlot := []
  pvrs : SMap Pvr := []
  rt : List RtEntry := []
  epoch : BitVec 32 := 0
  l1 : List L1Line := []
  tlb : List TlbEnt := []
  recv : SMap RecvQ := []
  banks : SMap Bank := []
  /-- the bank whose tile-step was granted last (R100) -/
  lastBank : Nat := 1
  copies : SMap Copy := []
  trace : List TraceRec := []
  /-- records of a context lost since its last kind-11 record (R247) -/
  lostSince : SMap Nat := []
  deriving DecidableEq, Repr

/-- A barrier of a team (R291). -/
structure Barrier where
  phase : Bool := false
  arrivals : Nat := 0
  expected : Nat := 0
  groups : List Nat := []
  paths : List (Nat × Nat) := []
  deriving DecidableEq, Repr

/-- A scratchpad region (R160). -/
structure Region where
  off : Nat
  len : Nat
  va : Nat
  sys : Bool
  we : Bool
  deriving DecidableEq, Repr

/-- A filled line of a region (R161): V or D by its mask; or one whose fill is in flight. -/
structure RLine where
  filling : Bool
  dirty : BitVec 128
  /-- bytes that a fence wrote back while the line's fill was in flight: the fill leaves them -/
  keep : BitVec 128 := 0
  deriving DecidableEq, Repr

/-- One access a lane makes, kept with an operation in flight. -/
structure LaneAcc where
  lane : Nat
  addr : Nat
  x : W64 := 0
  y : W64 := 0
  deriving DecidableEq, Repr

/-- What an operation in flight is and where its result goes (R174, R264). Load forms: 0 to 3 for .w8 to
.w64, 4 and 5 for .sx8 and .sx16. -/
inductive OpKind where
  | load (d form : Nat)
  | loadQ (q form : Nat)
  | store
  | atom (d op : Nat)
  | red
  | pref
  | uload (d : Nat)
  | dload (d : Nat)
  | fill
  /-- scratchpad accesses that do not perform at retirement (R161, R180, R339) -/
  | ldsp (d form : Nat)
  | stsp
  | atsp (d op : Nat)
  | descRead
  /-- the walker of a unit reads a table entry (R167) -/
  | walkRead (unit : Nat)
  | wb (token : Option Nat)
  | aldq (q : Nat)
  | astq
  | mld
  | mst
  | copyRead
  | copyWrite (copy : Nat)
  | scrub (part : Nat)
  | collRead
  | collWrite (coll : Nat)
  | traceWrite
  /-- the management context writes or reads the image of a team (R102, R133) -/
  | image (team : Nat)
  /-- an access of the host port: for a queue pair, or for a COPYH (R80, R88) -/
  | portRead (qpn : Option Nat)
  | portWrite (qpn : Option Nat)
  deriving DecidableEq, Repr

/-- An operation in flight. -/
structure Op where
  core : Nat := 0
  slot : Nat := 0
  gen : BitVec 4 := 0
  path : Nat := 0
  pid : Nat := 0
  grp : Nat := 0
  pc : W64 := 0
  ctx : Nat := 0
  team : Nat := 0
  kind : OpKind
  ctr : Option Nat := none
  flag : Option Nat := none
  /-- packets still outstanding -/
  left : Nat := 0
  lanes : List LaneAcc := []
  size : Nat := 0
  /-- lines that have returned, by line number of the virtual address -/
  got : SMap Line := []
  /-- results of atomics by lane -/
  olds : SMap W64 := []
  remote : Bool := false
  /-- scratchpad lines it fills -/
  lines : List Nat := []
  /-- 4 KiB virtual pages it writes -/
  pages : List Nat := []
  /-- result-table key of an eligible load, until an invalidating event occurs -/
  key : Option RtEntry := none
  /-- the registers that the key names, each with the stamp of its placing -/
  named : List (Nat × Nat) := []
  /-- lanes of its registers that a younger instruction has written, by register (R308) -/
  skip : List (Nat × W64) := []
  /-- the first failure of one of its requests: class, address, detail -/
  fail : Option (Nat × W64 × Nat) := none
  deriving DecidableEq, Repr

/-- Where the image of a team stands in its partition's save area, its lines, and the operation that writes or reads it (R133). -/
structure SaveArea where
  base : Nat
  lines : Nat := 0
  op : Option Nat := none
  deriving DecidableEq, Repr

/-- A team put aside by pre-emption (R133). -/
structure Saved where
  kind : Nat
  core : Nat
  /-- its groups, by 64 × core + slot that each left -/
  groups : List (Nat × Group) := []
  ops : List (Nat × Op) := []
  copies : List (Nat × Copy) := []
  banks : List (Nat × Bank) := []
  /-- receive queues: half of the pair, queue number, contents -/
  recv : List (Nat × Nat × RecvQ) := []
  deriving DecidableEq, Repr

/-- A started team (R122, R291). -/
structure Team where
  grid : Nat
  ctx : Nat
  idx : Nat
  pair : Bool := false
  core : Option Nat := none
  placedAt : Nat := 0
  stamp : Nat := 0
  migrated : Option Nat := none
  bars : SMap Barrier := []
  regions : SMap Region := []
  lines : SMap RLine := []
  /-- scratchpad bytes by offset; an unlisted byte is zero (R159) -/
  sp : List Host.Cell := []
  /-- physical page of each scratchpad page, by 64 × half + page -/
  pages : SMap Nat := []
  exits : List Nat := []
  /-- a pending pre-emption: its kind 0 cooperative, 1 forced, 2 migration, 3 displacement (R129, R136) -/
  stop : Option Nat := none
  /-- it was taken off a recalled home cluster and has not been placed since (R109, R136) -/
  reclaimed : Bool := false
  /-- loads and fills put aside by a forced halt, to be sent again (R132) -/
  envs : SMap Op := []
  /-- banks of a resumed team that wait for a free bank, each with its half of the pair (R376) -/
  banksDue : List (Nat × Bank) := []
  /-- the core that a hot-spot migration moves it to (R135) -/
  dest : Option Nat := none
  /-- the core that displaced teams make room on for it (R136) -/
  holds : Option Nat := none
  saved : Option Saved := none
  /-- the save area that holds its image, until the image has been read back -/
  area : Option SaveArea := none
  /-- a deferred write-back fault that no FWAIT reported: its record (R140) -/
  orphan : Option FaultRec := none
  deriving DecidableEq, Repr

/-- The fields of a grid descriptor (R117). -/
structure Desc where
  entry : W64 := 0
  aentry : W64 := 0
  handler : W64 := 0
  args : W64 := 0
  arglen : Nat := 0
  gx : Nat := 1
  gy : Nat := 1
  gz : Nat := 1
  gpt : Nat := 1
  wcode : Nat := 0
  pair : Bool := false
  noru : Bool := false
  wdog : Bool := false
  vbase : Nat := 8
  vext : Nat := 0
  spages : Nat := 0
  dirs : Nat := 0
  qmask : Nat := 0
  qdepth : Nat := 0
  wdinit : Nat := 0
  lright : List Nat := []
  faultrec : W64 := 0
  deriving DecidableEq, Repr

/-- A grid (R117, R120). -/
structure Grid where
  ctx : Nat := 0
  queue : Nat := 0
  cmd : Nat := 0
  launch : Nat := 0
  desc : Desc := {}
  /-- the address of its descriptor -/
  descAt : W64 := 0
  /-- lease number of each of the 16 slots, 255 when unused -/
  leases : List Nat := []
  /-- lease that holds FAULTREC -/
  recLease : Option Nat := none
  next : Nat := 0
  live : Nat := 0
  fault : Option FaultRec := none
  inEdge : Option Nat := none
  outEdge : Option Nat := none
  deriving DecidableEq, Repr

/-- How far a command has come (R85, R86). -/
inductive CmdSt where
  | taken | started | waiting
  deriving DecidableEq, Repr

/-- How far the chunk of a COPYH has come (R88): its bytes are read or written at the home slices, it waits for the copy servers,
it has won its arbitration, or the host is to answer. -/
inductive CopyhSt where
  | idle | moving | ready | granted | sent
  deriving DecidableEq, Repr

/-- A command copied from its ring (R83, R87). -/
structure Cmd where
  queue : Nat
  ctx : Nat
  index : Nat
  bytes : BitVec 512
  /-- address of its completion record, and the lease that holds the completion ring -/
  recAt : Nat := 0
  leaseD : Nat := 255
  st : CmdSt := .taken
  started : Nat := 0
  grid : Option Nat := none
  /-- the lease that holds the device range of a COPYH, or that a RELEASE names -/
  lease : Option Nat := none
  /-- an earlier command of the ring completed with a status other than 0 (R85) -/
  fenceFail : Bool := false
  /-- bytes of a COPYH moved so far -/
  progress : Nat := 0
  /-- its chunk: how far it has come, its bytes, and the data that the host sent for it -/
  phase : CopyhSt := .idle
  chunk : Nat := 0
  buf : Bytes := []
  /-- the operation that reads or writes the chunk at the home slices -/
  op : Option Nat := none
  /-- the route of an unbinding ROUTE -/
  value : Nat := 0
  deriving DecidableEq, Repr

/-- The command ring of a hardware queue (R81). -/
structure Ring where
  isSet : Bool := false
  ctx : Nat := 0
  base : W64 := 0
  logn : Nat := 0
  head : BitVec 32 := 0
  tail : BitVec 32 := 0
  leaseC : Nat := 0
  leaseD : Nat := 0
  dead : Bool := false
  /-- a command of the ring completed with a status other than 0 since the ring was last set or reset -/
  failed : Bool := false
  reset : Option (BitVec 32) := none
  held : List Doorbell := []
  /-- what the head's slot held before host writes that came after it was exposed: a read of it may mix them (R83) -/
  was : List (BitVec 512) := []
  deriving DecidableEq, Repr

/-- What the device sends out of the package. -/
inductive Out where
  | mgmtReply (mseq : BitVec 64) (status : Nat) (data : Bytes)
  | echoReply (dest : BitVec 128) (src : BitVec 128) (data : Bytes)
  | neighbourReply (dest target : BitVec 128)
  | roceAck (qpn : Nat) (psn : BitVec 24)
  | nakSequence (qpn : Nat) (psn : BitVec 24)
  | nakInvalid (qpn : Nat) (psn : BitVec 24)
  | nakAccess (qpn : Nat) (psn : BitVec 24)
  | readResponse (qpn : Nat) (psn : BitVec 24) (form : RoceForm) (data : Bytes)
  | delayReq (master : BitVec 64) (seq : BitVec 16)
  | rdmaWrite (qpn : Nat) (psn : BitVec 24) (rkey : BitVec 32) (va : BitVec 64) (data : Bytes)
  | rdmaRead (qpn : Nat) (psn : BitVec 24) (rkey : BitVec 32) (va : BitVec 64) (len : Nat)
  | send (qpn : Nat) (psn : BitVec 24) (data : Bytes)
  | linkFlit (link : Nat) (f : LinkFlit)
  /-- to the sorting office of a device: the route entry that is to drain there (R71) -/
  | unbindRoute (device route : Nat)
  deriving DecidableEq, Repr

/-- A request of a queue pair that the peer has not acknowledged, and the COPYH it serves. -/
structure Unacked where
  psn : BitVec 24
  out : Out
  cmd : Option Nat := none
  deriving DecidableEq, Repr

/-- What a request of a queue pair has the device do: place the data of a WRITE message of which n bytes from an address were
still to come, send what a READ asks for, deliver a SEND's doorbell, or only answer (R79 to R82). A NAK leaves the PSN that it
answers, as RoCEv2 has it. -/
inductive PortWork where
  | write (h : RoceHdr) (rkey : BitVec 32) (va n : Nat) (data : Bytes)
  | read (h : RoceHdr) (rkey : BitVec 32) (va n : Nat)
  | bell (data : Bytes)
  | answer (o : Out)
  | nak (h : RoceHdr) (o : Out)
  deriving DecidableEq, Repr

/-- A request that a queue pair has accepted, and the operation that carries it out. -/
structure PortJob where
  work : PortWork
  op : Option Nat := none
  deriving DecidableEq, Repr

/-- A RoCEv2 queue pair (R79). -/
structure QPair where
  peer : BitVec 128 := 0
  peerQp : Nat := 0
  rxPsn : BitVec 24 := 0
  txPsn : BitVec 24 := 0
  /-- the WRITE message in progress: R_Key, next address, bytes left -/
  write : Option (BitVec 32 × Nat × Nat) := none
  /-- the data of the SEND message in progress -/
  send : Option Bytes := none
  /-- requests accepted and not carried out, oldest first: they are carried out one after another (R82, R191) -/
  jobs : List PortJob := []
  /-- requests sent and not acknowledged, oldest first -/
  unacked : List Unacked := []
  sentAt : Nat := 0
  deriving DecidableEq, Repr

/-- A lease (R87, R163). -/
structure Lease where
  st : Nat := 0
  base : Nat := 0
  len : Nat := 0
  rights : Nat := 0
  psize : Nat := 0
  rkey : BitVec 32 := 0
  /-- physical base of each page -/
  frames : List Nat := []
  /-- grids bound to the lease (R88) -/
  grids : List Nat := []
  makeCmd : Option Nat := none
  freeCmd : Option Nat := none
  deriving DecidableEq, Repr

/-- A line of L2 (R156), with its valid and dirty masks and poisoned words (R158). -/
structure L2Line where
  data : Line := 0
  valid : BitVec 128 := 0
  dirty : BitVec 128 := 0
  poison : BitVec 16 := 0
  way : Nat := 0
  sg : Nat := 0
  ctx : Nat := 0
  used : Nat := 0
  deriving DecidableEq, Repr

/-- Where a packet is. -/
inductive Stage where
  /-- waiting for its translation (R167) -/
  | xlat
  /-- about to enter a router -/
  | net (router : Nat)
  /-- at its home slice -/
  | home
  /-- waiting for a burst of its channel -/
  | burst
  /-- delivered to a core -/
  | core
  /-- dropped; its issuer waits for the timeout (R39) -/
  | dropped
  deriving DecidableEq, Repr

/-- A packet of the on-chip network (R32, R45, R157). -/
structure Pkt where
  op : Nat
  drt : Nat := 0
  dep : Nat := 0
  srt : Nat := 0
  sep : Nat := 0
  part : Nat := 0
  ctx : Nat := 0
  cls : Nat := 1
  fm : Bool := false
  seq : Nat := 0
  addr : Nat := 0
  data : Line := 0
  mask : BitVec 128 := 0
  poison : BitVec 16 := 0
  lanes : List LaneAcc := []
  /-- operation and width of an atomic (R340) -/
  aop : Nat := 0
  img : VReg := 0
  va : Nat := 0
  opId : Nat := 0
  core : Nat := 0
  slot : Nat := 0
  gen : BitVec 4 := 0
  stage : Stage := .home
  born : Nat := 0
  missed : Bool := false
  /-- the reason for which a router dropped it (R38) -/
  why : Nat := 0
  /-- when it came to where it is, by the model's order -/
  arr : Nat := 0
  /-- the postmark at which it came to its router, and the input port it came by (R36) -/
  came : Nat := 0
  inp : Nat := 15
  /-- the bits of its header that soft errors have flipped since a router looked at it last (R34) -/
  flips : BitVec 128 := 0
  /-- what its fault record would say of the path that issued a message, and its grid (R39) -/
  frec : FaultRec := {}
  pid : Nat := 0
  grid : Nat := 0
  /-- its line does not go into L1: the L1 has been invalidated since it left (R156) -/
  noAlloc : Bool := false
  /-- the link packet it carries between a core and a gateway, with the route entry (R37) -/
  sys : Option (Nat × SysPkt) := none
  deriving DecidableEq, Repr

/-- A burst waiting at a memory channel (R95): a line read for a packet, or a line written. -/
structure Burst where
  chan : Nat
  ctx : Nat
  line : Nat
  write : Bool
  data : Line := 0
  mask : BitVec 128 := 0
  poison : BitVec 16 := 0
  pkt : Option Nat := none
  deriving DecidableEq, Repr

/-- States of a server instance (R99). -/
inductive SrvSt where
  | idle | ready | run | capped
  deriving DecidableEq, Repr

/-- A server instance (R96, R99): budget in 1/1024 ns, deadline, remainder and release time. -/
structure Srv where
  cls : Nat
  inst : Nat
  ctx : Nat
  route : Nat := 0
  slot : Nat := 0
  q : Nat := 0
  p : Nat := 1
  /-- the budget of its template, which `q` exceeds while it is raised (R150) -/
  tq : Nat := 0
  tcls : Nat := 1
  hcap : Bool := false
  c : Int := 0
  d : Nat := 0
  e : Nat := 0
  r : Nat := 0
  st : SrvSt := .idle
  /-- when it was last granted, by the model's order (R100: ties round robin) -/
  last : Nat := 0
  deriving DecidableEq, Repr

/-- Units that hold current reservations, in the tie order of R143. -/
inductive SlewUnit where
  | matrix | vector | copy | quarter
  deriving DecidableEq, Repr

/-- A current reservation, or a request for one (R141 to R143). -/
structure Resv where
  unit : SlewUnit
  core : Nat
  quarter : Nat := 0
  ctx : Nat := 0
  size : Nat
  /-- the cycle of the partition's clock in which it was requested, or became free -/
  since : Nat := 0
  free : Bool := false
  /-- cycles left of the macro-operation that uses it, if it is one of a fixed length -/
  busy : Nat := 0
  /-- the unit that held it has left the core's number to a spare: nothing uses it any more (R147) -/
  gone : Bool := false
  deriving DecidableEq, Repr

/-- The slew controller of a partition (R143, R146, R148). -/
structure Slew where
  held : List Resv := []
  pending : List Resv := []
  /-- ten-millionths of a core cycle counted since the last whole one, and cycles counted -/
  frac : Nat := 0
  cycles : Nat := 0
  /-- cycles of the partition's clock so far, and filler cycles not yet counted in PSLCNT -/
  clock : Nat := 0
  fill : Nat := 0
  /-- cycles of the present ns that are still to come -/
  todo : Nat := 0
  /-- clock cycles since the droop trip whose skipping stands (R146) -/
  droop : Option Nat := none
  deriving DecidableEq, Repr

/-- A request of a remote flow that is not over (R62, R66, R67). -/
structure TxReq where
  seq : Nat
  op : Nat
  issued : Nat
  /-- it has left on a link -/
  sent : Bool := false
  acked : Bool := false
  /-- a response is still to come, for the line or the lane `item` -/
  waits : Bool := false
  item : Nat := 0
  deriving DecidableEq, Repr

/-- The sending side of a remote flow (R62). -/
structure TxFlow where
  route : Nat
  srt : Nat
  sep : Nat
  cls : Nat
  /-- the next SEQ to assign (R62), which an FRESET names as the new base, and the base (R67) -/
  next : Nat := 0
  base : Nat := 0
  reqs : List TxReq := []
  deriving DecidableEq, Repr

/-- The receiving side of a remote flow (R65, R66). -/
structure RxFlow where
  route : Nat
  sdev : Nat
  srt : Nat
  sep : Nat
  cls : Nat
  /-- the next undelivered value N, and the delivered marks above it -/
  next : Nat := 0
  marks : List Nat := []
  held : List SysPkt := []
  /-- packets that have performed above the next SEQ to acknowledge, and when -/
  performed : List (Nat × Nat) := []
  acked : Nat := 0
  sinceAck : Nat := 0
  /-- when the oldest packet that has performed and is not acknowledged performed -/
  oldest : Option Nat := none
  /-- what the last acknowledgement covered, and whether it came when `oldest` was already due -/
  told : Nat := 0
  timed : Bool := false
  deriving DecidableEq, Repr

/-- A data flit in a replay buffer: its sequence number, what its packets share, its body's slots, and the credits that it
returns, by pool (R54, R56, R57). -/
structure DataFlit where
  lseq : Nat
  ctx : Nat
  cls : Nat
  rsp : Bool
  slots : List (BitVec 128)
  credit : Option (Nat × Nat) := none
  deriving DecidableEq, Repr

/-- A link direction pair (R53 to R58). -/
structure Link where
  /-- the LSEQ of the next data flit: 1 after reset, one past the LACK of 0 that the far end then holds (log 112) -/
  txSeq : Nat := 1
  rxLack : Nat := 0
  peerLack : Nat := 0
  replay : List DataFlit := []
  /-- the slots of a packet begun in the last data flit sent that are still to go, and its route, class and kind -/
  txPart : List (BitVec 128) := []
  txRoute : Nat := 0
  txCls : Nat := 0
  txRsp : Bool := false
  /-- the slots that have come of a packet which the next data flit continues, and the flit's CTX, CLS and RSP -/
  rxPart : List (BitVec 128) := []
  rxKey : Nat × Nat × Bool := (0, 0, false)
  /-- credits used, by 2 × class + response -/
  used : SMap Nat := []
  back : SMap Nat := []
  /-- packets waiting for a flit, with their route entry -/
  wait : List (Nat × SysPkt) := []
  requests : Nat := 0
  reqSent : Bool := false
  /-- a replay request waits for the end of a packet that is being sent in parts -/
  owed : Bool := false
  /-- the LSEQ of the last flit discarded since the replay request -/
  seen : Option Nat := none
  retrain : Option Nat := none
  recal : Option Nat := none
  deriving DecidableEq, Repr

/-- States of a collective instance (R73). -/
inductive CollSt where
  | wait | run
  deriving DecidableEq, Repr

/-- How far the transfers of a collective in RUN have come here: its SEND is being read, with what the peers sent, or its
RECV is being written (R356). -/
inductive CollXfer where
  | read (op : Nat) (parts : Parts)
  | write (op : Nat)
  deriving DecidableEq, Repr

/-- A collective instance (R72, R355). -/
structure Coll where
  team : Nat
  ctx : Nat
  core : Nat
  slot : Nat
  gen : BitVec 4
  path : Nat
  pid : Nat := 0
  pc : W64
  job : Nat
  inst : Nat
  op : Nat
  ty : Nat
  hto : Nat
  count : Nat
  send : W64
  recv : W64
  peers : W64
  root : Nat
  flag : Option Nat := none
  rel : Bool := false
  scope : BitVec 2 := 0
  st : CollSt := .wait
  hoisted : W64 := 0
  timer : Nat := 0
  /-- when it came to RUN and its transfers were issued -/
  ranAt : Nat := 0
  acqOps : List Nat := []
  xfer : Option CollXfer := none
  deriving DecidableEq, Repr

/-- A pre-emption request (R129). -/
structure Preempt where
  teams : List Nat
  kind : Nat
  /-- the postmark at which a cooperative window ends -/
  due : Option Nat
  cluster : Option Nat := none
  deriving DecidableEq, Repr

/-- A firmware image accepted into the measurement chain, or being loaded (R19, R23). -/
structure FwDigest where
  stage : Nat
  part : Nat
  digest : BitVec 512
  deriving DecidableEq, Repr

/-- Bring-up, firmware and maintenance (R15 to R24). -/
structure Boot where
  /-- the postmark at which the present bring-up state was entered -/
  entered : Nat := 0
  /-- whether the postmark has been set by a lock since reset (R14) -/
  locked : Bool := false
  failedLanes : List Nat := []
  /-- an accepted retest has the failed host lanes train again (R15) -/
  retraining : Bool := false
  report : List TestFailure := []
  spareUse : List (Bool × Nat × Nat) := []
  digests : List FwDigest := []
  chain : BitVec 512 := 0
  staged : SMap Byte := []
  hbmHeld : Option (Nat × Nat) := none
  hostLane : Option (Nat × Nat) := none
  outOfService : List (Bool × Nat) := []
  /-- the clock step that each quadrant's voltage supports, and the one it is rising to (R12) -/
  volt : SMap Nat := []
  rise : SMap Nat := []
  /-- the partition whose firmware is being updated, and the updates waiting for their turn (R21) -/
  updating : Option Nat := none
  updates : List (Nat × FwImage) := []
  /-- the rate correction of the postmark that its servo holds, in parts per million (R14, R78) -/
  ppm : Int := 0
  /-- the cluster being drained for a spare (R24) -/
  remap : Option Nat := none
  deriving DecidableEq, Repr

/-- What the clock servo holds between messages (R78). -/
structure PtpClock where
  master : BitVec 64 := 0
  seq : BitVec 16 := 0
  /-- when the Sync came, and when it left the master -/
  came : Option Nat := none
  origin : Option Nat := none
  /-- when the Delay_Req for it left -/
  asked : Option Nat := none
  deriving DecidableEq, Repr

/-- The host port (R76 to R80, R89). -/
structure HostPort where
  /-- the MACsec connectivity association key, kept across resets (R76) -/
  cak : BitVec 256 := 0
  qps : SMap QPair := []
  pauseUntil : Nat := 0
  /-- what has been sent, oldest first, and what waits for transmission to resume -/
  out : List Out := []
  waiting : List Out := []
  /-- the Sync whose delay is being measured: its master and number, its times at the master and here, and the postmark at
  which the Delay_Req left (R78) -/
  ptp : PtpClock := {}
  /-- answers to accepted CONFIG messages that wait for what they started to finish -/
  replies : List (BitVec 64 × List Instr) := []
  deriving DecidableEq, Repr

/-- Commands, grids and the distributor (R81 to R88, R117 to R136). -/
structure Sched where
  /-- the partition of each context that is being destroyed (R94) -/
  ending : SMap Nat := []
  rings : SMap Ring := []
  cmds : SMap Cmd := []
  sems : SMap W64 := []
  /-- opcodes of each context's allow-list (R84); an unlisted context may use every opcode -/
  allow : SMap (BitVec 256) := []
  grids : SMap Grid := []
  /-- LAUNCH commands that passed their checks so far: the next launch number (R208) -/
  launches : Nat := 0
  teams : SMap Team := []
  /-- grids of each hardware queue, oldest first -/
  queues : SMap (List Nat) := []
  resume : SMap (List Nat) := []
  lastCore : SMap Nat := []
  /-- postmark at which each queue's head first failed everywhere (R124) -/
  clocks : SMap Nat := []
  /-- postmark at which each queue's head reached its ageing limit (R124) -/
  aged : SMap Nat := []
  preempts : SMap Preempt := []
  /-- postmark since when each home cluster has been idle for its owner (R108) -/
  idle : SMap Nat := []
  round : List Nat := []
  deriving DecidableEq, Repr

/-- A walk in progress: the page, the level and the table entry that it reads now, and the operation that reads it; a stale one's
entry is discarded (R166 to R168, R170). -/
structure Walk where
  ctx : Nat
  va : Nat
  level : Nat
  entry : Nat
  op : Nat
  stale : Bool := false
  deriving DecidableEq, Repr

/-- The walker of a partition unit: one walk at a time, and at most 32 requests that wait (R167). -/
structure Walker where
  queue : List Nat := []
  walk : Option Walk := none
  deriving DecidableEq, Repr

/-- Memory and translation (R154 to R175). -/
structure MemSys where
  /-- bytes of HBM by physical address, in canonical form; an unlisted byte reads as zero -/
  cells : List Host.Cell := []
  /-- poisoned words by physical address divided by 8 (R158) -/
  poison : List Nat := []
  l2 : SMap L2Line := []
  l2tlb : SMap (List TlbEnt) := []
  /-- 4 KiB frames of management memory that hold tables which LEASE has put below a root (R166, log 109) -/
  tables : List Nat := []
  /-- walkers by unit (R167) -/
  walkers : SMap Walker := []
  leases : SMap Lease := []
  /-- frames waiting for the scrub engine, by partition: physical base and 4 KiB frames -/
  scrub : SMap (List (Nat × Nat)) := []
  /-- the 4 KiB frame each scrub engine is working on, and its lines not acknowledged -/
  scrubbing : SMap (Nat × Nat) := []
  bursts : List Burst := []
  /-- TINV values accepted and not complete, each with the accesses translated before it (R168) -/
  tinvs : List (W64 × List Nat) := []
  /-- the partition last granted at a router's output, by 128 × router + output (R40) -/
  granted : SMap Nat := []
  deriving DecidableEq, Repr

/-- Links, routes and collectives (R51 to R75). -/
structure Lodra where
  links : SMap Link := []
  tx : SMap TxFlow := []
  rx : SMap RxFlow := []
  colls : SMap Coll := []
  /-- reorder-buffer entries reserved for each route at its far end (R64) -/
  far : SMap Nat := []
  /-- ROUTE commands waiting for their match (R69) -/
  binding : List Nat := []
  /-- remote requests being served here, by their packet: flow, SEQ and AKQ -/
  serving : SMap (Nat × Nat × Bool) := []
  deriving DecidableEq, Repr

/-- Thermal history and counters with no register (R149, R257). -/
structure Monitor where
  /-- the postmark of each quadrant's last sample -/
  sampledAt : SMap Nat := []
  /-- single-bit errors corrected: by router, at 64 in HBM, at 65 in L2, at 66 in L1 (R34, R158) -/
  corrected : SMap Nat := []
  tstepAt : SMap Nat := []
  belowSince : SMap Nat := []
  hotSince : SMap Nat := []
  /-- shared-resource counters (R256): by 64 × partition + counter, or by counter for the device's -/
  shared : SMap Nat := []
  /-- their snapshots, newest first: postmark and values (R257) -/
  snaps : List (Nat × SMap Nat) := []
  /-- trace state of a context: WRITTEN and LOST (R246), and the writes in flight -/
  written : SMap Nat := []
  lost : SMap Nat := []
  performed : SMap Nat := []
  /-- the LOST that the header of a context's buffer shows -/
  lostShown : SMap Nat := []
  sampleFrom : SMap Nat := []
  deriving DecidableEq, Repr

/-- The path whose instruction is issuing. `access` names the group's access thread instead. -/
structure Cur where
  core : Nat
  slot : Nat
  path : Nat
  access : Bool := false
  deriving DecidableEq, Repr

/-- A soft error (R34, R158): bits flipped in the header or in a payload word of a packet, or in an 8-byte word of HBM, of an
L2 line or of an L1 line. -/
inductive Upset where
  | header (pkt : Nat) (flips : BitVec 128)
  | payload (pkt word bits : Nat)
  | memory (word bits : Nat)
  | l2 (line word bits : Nat)
  | l1 (core line word bits : Nat)
  deriving DecidableEq, Repr

/-- What happens next when no path is issuing: an input or an engine's step, the end of a cycle, or the passing of 1 ns. -/
inductive Turn where
  | upset (u : Upset)
  /-- the far end of a route unbinds it (R71) -/
  | farUnbind (route : Nat)
  | ev (i : Instr)
  /-- the access thread of a group issues (R357) -/
  | access (core slot : Nat)
  /-- a cycle of a partition's clock ends (R143) -/
  | clock (part : Nat)
  /-- the walker of a unit has read a table entry (R166) -/
  | walk (unit : Nat)
  /-- the other core of a pair acknowledges a scratchpad access (R180) -/
  | spad (op : Nat)
  /-- an image has been written to its save area, or read back -/
  | image (op team : Nat)
  /-- the host port goes on with the requests of a queue pair (R79) -/
  | port (qpn : Nat)
  /-- a signed CONFIG sets the connectivity association key; no rule gives its encoding (R76, log 113) -/
  | setCak (m : MgmtMsg) (key : BitVec 256)
  | tick
  deriving DecidableEq, Repr

/-- The machine. -/
structure State where
  /-- device registers that do not hold their reset value (R25) -/
  regs : SMap W64 := []
  /-- the postmark, in ns (R14) -/
  now : Nat := 0
  cur : Option Cur := none
  turns : List Turn := []
  cores : SMap Core := []
  pkts : SMap Pkt := []
  ops : SMap Op := []
  msys : MemSys := {}
  sched : Sched := {}
  lodra : Lodra := {}
  srvs : List Srv := []
  slew : SMap Slew := []
  mon : Monitor := {}
  boot : Boot := {}
  host : HostPort := {}
  /-- the model's own: numbers handed out to operations, packets, grids and ages, strictly rising -/
  stamp : Nat := 1
  /-- the model's own: how many free values have been taken -/
  free : Nat := 0
  deriving DecidableEq, Repr

/-- The machine right after power-on (R15): every register at its reset value, bring-up in REG. -/
def State.reset : State := {}

end Sys2Proof.Machine
end

