-- ==== Sys2Proof/Machine/Regs.lean ====
section
/-! DEFINITION. The device register space (R25): which register an address names, its fields with
their access codes and reset values (R4), and the one home of every register, `State.regs`. -/

namespace Sys2Proof.Machine

/-- Bits [lo + n − 1 : lo] of a register. -/
def fld (w : W64) (lo n : Nat) : Nat := w.toNat >>> lo % 2 ^ n

/-- Put `v` into bits [lo + n − 1 : lo]. -/
def putFld (w : W64) (lo n v : Nat) : W64 :=
  BitVec.ofNat 64 (w.toNat - (w.toNat >>> lo % 2 ^ n) * 2 ^ lo + v % 2 ^ n * 2 ^ lo)

/-- Access codes (R4). -/
inductive AccCode where
  | ro | rw | w1c | wo | sig
  deriving DecidableEq, Repr

/-- A field of a register: place, width, access code, reset value. -/
structure Fld where
  lo : Nat
  n : Nat
  acc : AccCode
  reset : Nat := 0
  deriving DecidableEq, Repr

/-- The registers of the device register space (R25). -/
inductive RegName where
  | ident | bstat | vdstat | spmap | postmark | meas (i : Nat)
  | pgeo (n : Nat) | pstat (n : Nat) | dlog (i j : Nat) | dlhead | psched (n : Nat)
  | ctxcfg (n : Nat) | chome (n j : Nat) | edgst (k : Nat) | edgcnt (k : Nat) | sgmask (n : Nat)
  | hqcfg (n : Nat) | hqdone (n : Nat) | clend (c : Nat)
  | svcfg (n k : Nat) | svumask (n : Nat) | svlink (i : Nat) | svbound | svsel | svsta | svstb
  | fmeter (n m : Nat)
  | pslew (n : Nat) | pslst (n : Nat) | pramp (n r : Nat) | pslcnt (n : Nat) | therm (q : Nat) | ctemp (c : Nat)
  | hpcfg | hpstat | hmaddr (j : Nat) | haddr (n j : Nat) | mkey (i : Nat) | mseqlast | hqsub (n : Nat)
  | lcfg | rte (i j : Nat) | lstat (n : Nat) | lcnt (n : Nat)
  | troot (n : Nat) | tinv | tinvst | lsel | lsta | lstb | scrub (n : Nat) | fpool (c : Nat)
  | dbgcfg (n : Nat) | dtrbase (n : Nat) | ctrpol (n : Nat) | dbp (n k : Nat) | hist (x b : Nat) | reason (x r : Nat)
  | dsel | drd (i : Nat) | dresume | dclr
  deriving DecidableEq, Repr

/-- The address of a register (R25, R43, R68, R75, R92, R114 to R116, R119, R125, R151, R175, R259). -/
def RegName.addr : RegName → Nat
  | .ident => 0x00
  | .bstat => 0x08
  | .vdstat => 0x10
  | .spmap => 0x18
  | .postmark => 0x20
  | .meas i => 0x40 + 8 * i
  | .pgeo n => 0x10000 + 0x10 * n
  | .pstat n => 0x10008 + 0x10 * n
  | .dlog i j => 0x10400 + 0x10 * i + 8 * j
  | .dlhead => 0x10500
  | .psched n => 0x10600 + 8 * n
  | .ctxcfg n => 0x20000 + 0x40 * n
  | .chome n j => 0x20008 + 0x40 * n + 8 * j
  | .edgst k => 0x24000 + 8 * k
  | .sgmask n => 0x30000 + 8 * n
  | .hqcfg n => 0x31000 + 8 * n
  | .hqdone n => 0x31200 + 8 * n
  | .clend c => 0x31800 + 8 * c
  | .edgcnt k => 0x38000 + 8 * k
  | .svcfg n k => 0x40000 + 0x100 * n + 0x10 * k
  | .svumask n => 0x40040 + 0x100 * n
  | .svlink i => 0x58000 + 0x10 * i
  | .svbound => 0x70000
  | .svsel => 0x70100
  | .svsta => 0x70108
  | .svstb => 0x70110
  | .fmeter n m => 0x80000 + 0x40 * n + 8 * m
  | .pslew n => 0xC0000 + 0x80 * n
  | .pslst n => 0xC0008 + 0x80 * n
  | .pramp n r => 0xC0010 + 0x80 * n + 8 * r
  | .pslcnt n => 0xC0050 + 0x80 * n
  | .therm q => 0xC2000 + 0x10 * q
  | .ctemp c => 0xC3000 + 8 * c
  | .hpcfg => 0x100000
  | .hpstat => 0x100008
  | .hmaddr j => 0x100010 + 8 * j
  | .mkey i => 0x100020 + 8 * i
  | .mseqlast => 0x100040
  | .haddr n j => 0x101000 + 0x10 * n + 8 * j
  | .hqsub n => 0x102000 + 8 * n
  | .lcfg => 0x140000
  | .lstat n => 0x140100 + 0x10 * n
  | .lcnt n => 0x140108 + 0x10 * n
  | .rte i j => 0x141000 + 0x10 * i + 8 * j
  | .troot n => 0x180000 + 8 * n
  | .tinv => 0x181000
  | .tinvst => 0x181008
  | .lsel => 0x181010
  | .lsta => 0x181018
  | .lstb => 0x181020
  | .scrub n => 0x182000 + 8 * n
  | .fpool c => 0x183000 + 8 * c
  | .dbgcfg n => 0x1C0000 + 0x100 * n
  | .dtrbase n => 0x1C0008 + 0x100 * n
  | .ctrpol n => 0x1C0010 + 0x100 * n
  | .dbp n k => 0x1C0020 + 0x100 * n + 8 * k
  | .hist x b => 0x1D0000 + 0x100 * x + 8 * b
  | .reason x r => 0x1D0088 + 0x100 * x + 8 * r
  | .dsel => 0x220000
  | .drd i => 0x220008 + 8 * i
  | .dresume => 0x220100
  | .dclr => 0x220108

/-- An element of an array of registers: `n` elements of `step` bytes at `base`. -/
def slotOf (a base step n : Nat) : Option Nat :=
  if base ≤ a ∧ a < base + step * n ∧ (a - base) % step = 0 then some ((a - base) / step) else none

/-- The first array among several that holds the address. -/
def pickReg (a : Nat) : List (Nat × Nat × Nat × (Nat → RegName)) → Option RegName
  | [] => none
  | (base, step, n, f) :: rs =>
    match slotOf a base step n with
    | some i => some (f i)
    | none => pickReg a rs

/-- The register at an address, if it names one (R25). -/
def regAt (a : Nat) : Option RegName :=
  if a < 0x10000 then
    pickReg a [(0x00, 8, 1, fun _ => .ident), (0x08, 8, 1, fun _ => .bstat), (0x10, 8, 1, fun _ => .vdstat),
      (0x18, 8, 1, fun _ => .spmap), (0x20, 8, 1, fun _ => .postmark), (0x40, 8, 8, fun i => .meas i)]
  else if a < 0x20000 then
    pickReg a [(0x10000, 0x10, 48, .pgeo), (0x10008, 0x10, 48, .pstat), (0x10400, 0x10, 16, fun i => .dlog i 0),
      (0x10408, 0x10, 16, fun i => .dlog i 1), (0x10500, 8, 1, fun _ => .dlhead), (0x10600, 8, 48, .psched)]
  else if a < 0x40000 then
    pickReg a [(0x20000, 0x40, 256, .ctxcfg), (0x20008, 0x40, 256, fun n => .chome n 0),
      (0x20010, 0x40, 256, fun n => .chome n 1), (0x24000, 8, 4096, .edgst), (0x30000, 8, 256, .sgmask),
      (0x31000, 8, 64, .hqcfg), (0x31200, 8, 64, .hqdone), (0x31800, 8, 128, .clend), (0x38000, 8, 4096, .edgcnt)]
  else if a < 0x80000 then
    pickReg a [(0x40000, 0x100, 256, fun n => .svcfg n 0), (0x40010, 0x100, 256, fun n => .svcfg n 1),
      (0x40020, 0x100, 256, fun n => .svcfg n 2), (0x40030, 0x100, 256, fun n => .svcfg n 3),
      (0x40040, 0x100, 256, .svumask), (0x58000, 0x10, 1024, .svlink), (0x70000, 8, 1, fun _ => .svbound),
      (0x70100, 8, 1, fun _ => .svsel), (0x70108, 8, 1, fun _ => .svsta), (0x70110, 8, 1, fun _ => .svstb)]
  else if a < 0xC0000 then
    pickReg a ((List.range 6).map fun m => (0x80000 + 8 * m, 0x40, 257, fun n => .fmeter n m))
  else if a < 0x100000 then
    pickReg a ([(0xC0000, 0x80, 48, .pslew), (0xC0008, 0x80, 48, .pslst), (0xC0050, 0x80, 48, .pslcnt),
      (0xC2000, 0x10, 4, .therm), (0xC3000, 8, 256, .ctemp)] ++
      (List.range 8).map fun r => (0xC0010 + 8 * r, 0x80, 48, fun n => .pramp n r))
  else if a < 0x140000 then
    pickReg a [(0x100000, 8, 1, fun _ => .hpcfg), (0x100008, 8, 1, fun _ => .hpstat), (0x100010, 8, 2, .hmaddr),
      (0x100020, 8, 4, .mkey), (0x100040, 8, 1, fun _ => .mseqlast), (0x101000, 0x10, 256, fun n => .haddr n 0),
      (0x101008, 0x10, 256, fun n => .haddr n 1), (0x102000, 8, 64, .hqsub)]
  else if a < 0x180000 then
    pickReg a [(0x140000, 8, 1, fun _ => .lcfg), (0x140100, 0x10, 16, .lstat), (0x140108, 0x10, 16, .lcnt),
      (0x141000, 0x10, 1024, fun i => .rte i 0), (0x141008, 0x10, 1024, fun i => .rte i 1)]
  else if a < 0x1C0000 then
    pickReg a [(0x180000, 8, 256, .troot), (0x181000, 8, 1, fun _ => .tinv), (0x181008, 8, 1, fun _ => .tinvst),
      (0x181010, 8, 1, fun _ => .lsel), (0x181018, 8, 1, fun _ => .lsta), (0x181020, 8, 1, fun _ => .lstb),
      (0x182000, 8, 48, .scrub), (0x183000, 8, 64, .fpool)]
  else
    pickReg a ([(0x1C0000, 0x100, 256, .dbgcfg), (0x1C0008, 0x100, 256, .dtrbase), (0x1C0010, 0x100, 256, .ctrpol),
      (0x220000, 8, 1, fun _ => .dsel), (0x220008, 8, 8, .drd), (0x220100, 8, 1, fun _ => .dresume),
      (0x220108, 8, 1, fun _ => .dclr)] ++
      ((List.range 4).map fun k => (0x1C0020 + 8 * k, 0x100, 256, fun n => .dbp n k)) ++
      ((List.range 17).map fun b => (0x1D0000 + 8 * b, 0x100, 1024, fun x => .hist x b)) ++
      (List.range 11).map fun r => (0x1D0088 + 8 * r, 0x100, 1024, fun x => .reason x r))

/-- Default ramp-table rows (R144). -/
def rampDefault (r : Nat) : Nat :=
  if r ≤ 1 then 80 else if r = 2 then 64 else if r = 3 then 48 else 40

/-- The fields of a register; every bit that no field covers is reserved and reads as zero (R4, R5). -/
def RegName.fields : RegName → List Fld
  | .ident => [⟨0, 16, .ro, 0x9740⟩, ⟨16, 8, .ro, 0⟩, ⟨24, 8, .ro, 0xDA⟩]
  | .bstat => [⟨0, 3, .ro, 0⟩, ⟨3, 1, .ro, 0⟩, ⟨8, 8, .ro, 0⟩, ⟨16, 8, .ro, 0⟩, ⟨24, 8, .ro, 0⟩]
  | .vdstat => [⟨0, 8, .ro, 0⟩, ⟨8, 8, .w1c, 0⟩]
  | .spmap => [⟨0, 4, .ro, 0⟩, ⟨16, 4, .ro, 0⟩, ⟨32, 4, .ro, 0⟩, ⟨48, 4, .ro, 0⟩]
  | .postmark => [⟨0, 64, .ro, 0⟩]
  | .meas _ => [⟨0, 64, .ro, 0⟩]
  | .pgeo _ => [⟨0, 1, .sig, 0⟩, ⟨1, 3, .sig, 0⟩, ⟨4, 3, .sig, 0⟩, ⟨7, 2, .sig, 0⟩, ⟨9, 2, .sig, 0⟩, ⟨11, 2, .sig, 0⟩]
  | .pstat _ => [⟨0, 2, .ro, 0⟩, ⟨2, 7, .ro, 0⟩, ⟨16, 32, .ro, 0⟩]
  | .dlog _ _ => [⟨0, 64, .ro, 0⟩]
  | .dlhead => [⟨0, 4, .ro, 0⟩, ⟨16, 32, .ro, 0⟩]
  | .psched _ => [⟨0, 16, .sig, 200⟩, ⟨16, 1, .sig, 1⟩, ⟨17, 15, .sig, 200⟩]
  | .ctxcfg _ => [⟨0, 1, .sig, 0⟩, ⟨1, 6, .sig, 0⟩, ⟨7, 8, .sig, 0⟩, ⟨15, 1, .sig, 0⟩, ⟨16, 1, .sig, 0⟩, ⟨17, 1, .sig, 0⟩,
      ⟨18, 16, .sig, 100⟩]
  | .chome _ _ => [⟨0, 64, .sig, 0⟩]
  | .edgst _ => [⟨0, 36, .ro, 0⟩]
  | .edgcnt _ => [⟨0, 16, .ro, 0⟩, ⟨16, 16, .ro, 0⟩]
  | .sgmask _ => [⟨0, 8, .sig, 0⟩, ⟨8, 16, .sig, 0⟩, ⟨24, 6, .sig, 0⟩, ⟨30, 1, .sig, 0⟩]
  | .hqcfg _ => [⟨0, 9, .sig, 0⟩, ⟨9, 8, .sig, 1⟩, ⟨17, 3, .sig, 1⟩, ⟨20, 1, .sig, 0⟩]
  | .hqdone _ => [⟨0, 32, .ro, 0⟩]
  | .clend _ => [⟨0, 3, .ro, 0⟩, ⟨3, 9, .ro, 0x1FF⟩, ⟨12, 6, .ro, 0⟩]
  | .svcfg _ _ => [⟨0, 24, .sig, 0⟩, ⟨24, 24, .sig, 0⟩, ⟨48, 3, .sig, 1⟩, ⟨51, 1, .sig, 0⟩, ⟨52, 1, .sig, 0⟩]
  | .svumask _ => [⟨0, 64, .sig, 0⟩]
  | .svlink _ => [⟨0, 24, .sig, 0⟩, ⟨24, 24, .sig, 0⟩, ⟨48, 3, .sig, 1⟩, ⟨51, 1, .sig, 0⟩, ⟨52, 1, .sig, 0⟩]
  | .svbound => [⟨0, 10, .sig, 973⟩, ⟨10, 10, .sig, 973⟩, ⟨20, 10, .sig, 973⟩, ⟨30, 10, .sig, 973⟩, ⟨40, 10, .sig, 973⟩]
  | .svsel => [⟨0, 3, .rw, 0⟩, ⟨3, 10, .rw, 0⟩, ⟨13, 6, .rw, 0⟩, ⟨19, 1, .rw, 0⟩]
  | .svsta => [⟨0, 64, .ro, 0⟩]
  | .svstb => [⟨0, 35, .ro, 0⟩, ⟨35, 5, .ro, 0⟩, ⟨40, 2, .ro, 0⟩, ⟨42, 9, .ro, 0x1FF⟩, ⟨51, 10, .ro, 0⟩]
  | .fmeter _ _ => [⟨0, 64, .sig, 0⟩]
  | .pslew _ => [⟨0, 8, .sig, 176⟩, ⟨8, 8, .sig, 64⟩, ⟨16, 4, .sig, 0⟩]
  | .pslst _ => [⟨0, 14, .ro, 0⟩, ⟨14, 3, .ro, 0⟩, ⟨17, 4, .ro, 0⟩, ⟨21, 1, .ro, 0⟩]
  | .pramp _ r => [⟨0, 8, .sig, rampDefault r⟩, ⟨8, 8, .sig, rampDefault r⟩]
  | .pslcnt _ => [⟨0, 32, .w1c, 0⟩, ⟨32, 16, .w1c, 0⟩]
  | .therm _ => [⟨0, 8, .sig, 95⟩, ⟨8, 8, .sig, 5⟩, ⟨16, 8, .sig, 90⟩, ⟨24, 4, .ro, 0⟩, ⟨28, 8, .ro, 0⟩]
  | .ctemp _ => [⟨0, 8, .ro, 0⟩, ⟨8, 1, .ro, 0⟩]
  | .hpcfg => [⟨0, 16, .sig, 0xDA97⟩, ⟨16, 1, .sig, 0⟩, ⟨17, 3, .sig, 3⟩]
  | .hpstat => [⟨0, 4, .ro, 0⟩, ⟨4, 1, .ro, 0⟩, ⟨16, 32, .w1c, 0⟩]
  | .hmaddr _ => [⟨0, 64, .sig, 0⟩]
  | .haddr _ _ => [⟨0, 64, .sig, 0⟩]
  | .mkey _ => [⟨0, 64, .sig, 0⟩]
  | .mseqlast => [⟨0, 64, .ro, 0⟩]
  | .hqsub _ => [⟨0, 8, .ro, 0⟩, ⟨8, 9, .ro, 0⟩, ⟨17, 1, .ro, 0⟩]
  | .lcfg => [⟨0, 6, .sig, 0⟩, ⟨6, 2, .sig, 0⟩, ⟨8, 7, .sig, 0⟩, ⟨16, 24, .sig, 500⟩]
  | .rte _ 0 => [⟨0, 57, .ro, 0⟩]
  | .rte _ _ => [⟨0, 30, .ro, 0⟩]
  | .lstat _ => [⟨0, 38, .ro, 0⟩]
  | .lcnt _ => [⟨0, 32, .w1c, 0⟩, ⟨32, 16, .w1c, 0⟩, ⟨48, 16, .w1c, 0⟩]
  | .troot _ => [⟨0, 1, .sig, 0⟩, ⟨16, 23, .sig, 0⟩]
  | .tinv => [⟨0, 9, .sig, 0⟩, ⟨9, 1, .sig, 0⟩, ⟨10, 40, .sig, 0⟩, ⟨50, 2, .sig, 0⟩]
  | .tinvst => [⟨0, 1, .ro, 0⟩, ⟨1, 1, .ro, 0⟩]
  | .lsel => [⟨0, 9, .rw, 0⟩, ⟨9, 8, .rw, 0⟩]
  | .lsta => [⟨0, 52, .ro, 0⟩]
  | .lstb => [⟨0, 56, .ro, 0⟩]
  | .scrub _ => [⟨0, 32, .ro, 0⟩, ⟨32, 32, .ro, 0⟩]
  | .fpool _ => [⟨0, 21, .ro, 2031616⟩, ⟨21, 21, .ro, 0⟩]
  | .dbgcfg _ => [⟨0, 1, .sig, 0⟩, ⟨1, 1, .sig, 0⟩, ⟨2, 6, .sig, 0⟩, ⟨8, 5, .sig, 0⟩, ⟨13, 2, .sig, 0⟩]
  | .dtrbase _ => [⟨0, 52, .sig, 0⟩, ⟨52, 5, .sig, 0⟩]
  | .ctrpol _ => [⟨0, 5, .sig, 16⟩, ⟨5, 16, .sig, 1000⟩]
  | .dbp _ _ => [⟨0, 1, .sig, 0⟩, ⟨1, 2, .sig, 0⟩, ⟨3, 52, .sig, 0⟩]
  | .hist _ _ => [⟨0, 64, .ro, 0⟩]
  | .reason _ _ => [⟨0, 64, .ro, 0⟩]
  | .dsel => [⟨0, 8, .rw, 0⟩, ⟨8, 3, .rw, 0⟩, ⟨11, 14, .rw, 0⟩, ⟨25, 2, .rw, 0⟩, ⟨27, 2, .rw, 0⟩, ⟨29, 1, .rw, 0⟩]
  | .drd _ => [⟨0, 64, .ro, 0⟩]
  | .dresume => [⟨0, 8, .wo, 0⟩, ⟨8, 6, .wo, 0⟩, ⟨14, 8, .wo, 0⟩, ⟨22, 9, .wo, 0⟩]
  | .dclr => [⟨0, 10, .wo, 0⟩]

/-- A register's reset value, from its fields. -/
def RegName.resetVal (r : RegName) : W64 :=
  BitVec.ofNat 64 (r.fields.foldl (fun a f => a + f.reset * 2 ^ f.lo) 0)

/-- What the register at an address that `State.regs` does not list reads as. -/
def regReset (a : Nat) : W64 :=
  match regAt a with
  | some r => r.resetVal
  | none => 0

/-- Read a register held in `State.regs`. -/
def State.reg (s : State) (r : RegName) : W64 := (s.regs.find r.addr).getD r.resetVal

/-- Write a register held in `State.regs`; its reset value removes the entry. -/
def State.setReg (s : State) (r : RegName) (v : W64) : State :=
  if v = r.resetVal then { s with regs := s.regs.erase r.addr } else { s with regs := s.regs.put r.addr v }

/-- Read a field of a register. -/
def State.rfld (s : State) (r : RegName) (lo n : Nat) : Nat := fld (s.reg r) lo n

/-- Write a field of a register. -/
def State.setRfld (s : State) (r : RegName) (lo n v : Nat) : State := s.setReg r (putFld (s.reg r) lo n v)

/-- Add to a field of a register, saturating at its greatest value. -/
def State.satFld (s : State) (r : RegName) (lo n k : Nat) : State :=
  s.setRfld r lo n (min (2 ^ n - 1) (s.rfld r lo n + k))

/-- The bits of a field. -/
def Fld.mask (f : Fld) : W64 := BitVec.ofNat 64 ((2 ^ f.n - 1) * 2 ^ f.lo)

/-- The bits of a register that have a given access code. -/
def RegName.accMask (r : RegName) (a : AccCode) : W64 :=
  r.fields.foldl (fun m f => if f.acc = a then m ||| f.mask else m) 0

/-- The value a masked write leaves in a register with no behaviour of its own (R4, R90):
SIG and RW fields take the written bits, each 1 written clears a W1C bit, read-only bits keep theirs. -/
def RegName.written (r : RegName) (old value mask : W64) : W64 :=
  let w := (r.accMask .sig ||| r.accMask .rw) &&& mask
  let c := r.accMask .w1c &&& mask &&& value
  ((old &&& ~~~w) ||| (value &&& w)) &&& ~~~c

end Sys2Proof.Machine
end

