-- ==== Sys2Proof/Machine/Geometry.lean ====
section
/-! DEFINITION. Where things are: routers, units, slices, channels and partitions (R26 to R28, R38, R41). -/

namespace Sys2Proof.Machine

/-- The router number of row y, column x (R26). -/
def routerAt (y x : Nat) : Nat := 8 * y + x

/-- Row and column of a router. -/
def routerRow (r : Nat) : Nat := r / 8
def routerCol (r : Nat) : Nat := r % 8

/-- The router pair that a router belongs to (R26). -/
def pairOfRouter (r : Nat) : Nat := 8 * (routerRow r / 2) + routerCol r

/-- The cluster router and the slice router of a pair (R26). -/
def clusterRouter (p : Nat) : Nat := routerAt (2 * (p / 8)) (p % 8)
def sliceRouter (p : Nat) : Nat := routerAt (2 * (p / 8) + 1) (p % 8)

/-- Whether a router is a slice router. -/
def isSliceRouter (r : Nat) : Bool := routerRow r % 2 = 1

/-- The partition unit of a core, and the cluster of a core (R27). -/
def unitOfCore (c : Nat) : Nat := c / 4
def clusterOfCore (c : Nat) : Nat := c / 2

/-- The router and the endpoint port of a core (R27). -/
def coreRouter (c : Nat) : Nat := clusterRouter (c / 8)
def corePort (c : Nat) : Nat := c % 8

/-- The router and the endpoint port of a slice (R27). -/
def sliceRtr (sl : Nat) : Nat := sliceRouter (sl / 2)
def slicePort (sl : Nat) : Nat := sl % 2

/-- The quadrant of a router pair (R26). -/
def quadOfPair (p : Nat) : Nat := 2 * (p / 8 / 2) + p % 8 / 4
def quadOfUnit (u : Nat) : Nat := quadOfPair (u / 2)

/-- The channel that a slice homes (R28). -/
def channelOfSlice (sl : Nat) : Nat :=
  let p := sl / 2
  16 * quadOfPair p + 2 * (4 * (p / 8 % 2) + p % 8 % 4) + sl % 2

/-- The slice that homes a channel: the inverse of `channelOfSlice` (R28). -/
def sliceOfChannel (c : Nat) : Nat :=
  let q := c / 16
  let j := c % 16 / 2
  let k := 2 * (q / 2) + j / 4
  2 * (8 * k + (4 * (q % 2) + j % 4)) + c % 2

/-- The channel of a physical address (R28, R154). -/
def channelOf (pa : Nat) : Nat := pa / 2 ^ 33

/-- The unit whose slice homes a channel. -/
def unitOfChannel (c : Nat) : Nat := sliceOfChannel c

/-- The fields of a partition's geometry (R43). -/
def State.partValid (s : State) (n : Nat) : Bool := n < 48 && s.rfld (.pgeo n) 0 1 == 1
def State.partX0 (s : State) (n : Nat) : Nat := s.rfld (.pgeo n) 1 3
def State.partX1 (s : State) (n : Nat) : Nat := s.rfld (.pgeo n) 4 3
def State.partK0 (s : State) (n : Nat) : Nat := s.rfld (.pgeo n) 7 2
def State.partK1 (s : State) (n : Nat) : Nat := s.rfld (.pgeo n) 9 2
def State.partHalf (s : State) (n : Nat) : Nat := s.rfld (.pgeo n) 11 2

/-- Whether a geometry register's rectangle holds a router pair. -/
def geoHasPair (g : W64) (p : Nat) : Bool :=
  fld g 0 1 == 1 && fld g 1 3 ≤ p % 8 && p % 8 ≤ fld g 4 3 && fld g 7 2 ≤ p / 8 && p / 8 ≤ fld g 9 2

/-- Whether a geometry register holds a partition unit (R38, R41). -/
def geoHasUnit (g : W64) (u : Nat) : Bool :=
  geoHasPair g (u / 2) &&
    (fld g 11 2 == 0 || (fld g 11 2 == 1 && u % 2 == 0) || (fld g 11 2 == 2 && u % 2 == 1))

/-- Whether partition n holds a unit. -/
def State.partHasUnit (s : State) (n u : Nat) : Bool := n < 48 && geoHasUnit (s.reg (.pgeo n)) u

/-- Whether a router lies in partition n's rectangle. -/
def State.partHasRouter (s : State) (n r : Nat) : Bool := n < 48 && geoHasPair (s.reg (.pgeo n)) (pairOfRouter r)

/-- Whether (router, port) is an endpoint of partition n; the gateway counts for every partition that
holds its router (R38). -/
def State.partHasEndpoint (s : State) (n r port : Nat) : Bool :=
  s.partHasRouter n r &&
    (if port = 15 then true
     else if isSliceRouter r then port < 2 && s.partHasUnit n (2 * pairOfRouter r + port)
     else port < 8 && s.partHasUnit n (2 * pairOfRouter r + port / 4))

/-- The units of partition n, in increasing number. -/
def State.partUnits (s : State) (n : Nat) : List Nat := (List.range 64).filter fun u => s.partHasUnit n u

/-- The cores of partition n, in increasing number. -/
def State.partCores (s : State) (n : Nat) : List Nat := (List.range 256).filter fun c => s.partHasUnit n (unitOfCore c)

/-- The partition that holds a unit. -/
def State.partOfUnit (s : State) (u : Nat) : Option Nat := (List.range 48).find? fun n => s.partHasUnit n u

/-- The next router on the row-then-column route from `r` to `d` (R35). -/
def nextHop (r d : Nat) : Nat :=
  if routerCol r ≠ routerCol d then routerAt (routerRow r) (routerCol d) else d

/-- Fields of the context table (R114). -/
def State.ctxValid (s : State) (n : Nat) : Bool := n < 256 && s.rfld (.ctxcfg n) 0 1 == 1
/-- The partition of a context; one that is being destroyed keeps the one it had (R94). -/
def State.ctxPart (s : State) (n : Nat) : Nat := (s.sched.ending.find n).getD (s.rfld (.ctxcfg n) 1 6)
def State.ctxSg (s : State) (n : Nat) : Nat := s.rfld (.ctxcfg n) 7 8

/-- The clock step in effect in partition n (R148). -/
def State.keff (s : State) (n : Nat) : Nat := s.rfld (.pslst n) 17 4

end Sys2Proof.Machine
end

