-- ==== Sys2Proof/Machine/Ops.lean ====
section
/-! DEFINITION. The named operations over registers, memory, translation, servers, trace and faults.
Taking an exception is `State.takeFault`; the return from its handler is `Path.leaveHandler`. -/

namespace Sys2Proof.Machine

/-! ## Register images -/

/-- Lane i of a register image (R45, R202). -/
def VReg.lane (v : VReg) (i : Nat) : W32 := v.extractLsb' (32 * i) 32

/-- Half h of lane i. -/
def VReg.half (v : VReg) (i : Nat) : BitVec 16 := v.extractLsb' (16 * i) 16

/-- Byte i of an image. -/
def VReg.byte (v : VReg) (i : Nat) : Byte := v.extractLsb' (8 * i) 8

/-- The natural number whose 32-bit digits are `f 0`, `f 1`, …, lowest first. -/
def digits32 (f : Nat → W32) : Nat → Nat
  | 0 => 0
  | n + 1 => digits32 f n + (f n).toNat * 2 ^ (32 * n)

/-- The image whose first `w` lanes are given by `f`; lanes beyond are zero. -/
def VReg.ofFn (w : Nat) (f : Nat → W32) : VReg := BitVec.ofNat 2048 (digits32 f w)

/-- The natural number whose 16-bit digits are `f 0`, `f 1`, …. -/
def digits16 (f : Nat → BitVec 16) : Nat → Nat
  | 0 => 0
  | n + 1 => digits16 f n + (f n).toNat * 2 ^ (16 * n)

/-- The image whose first `n` halves are given by `f`. -/
def VReg.ofHalves (n : Nat) (f : Nat → BitVec 16) : VReg := BitVec.ofNat 2048 (digits16 f n)

/-- New lanes where the mask is set, old lanes elsewhere (R305). -/
def VReg.merge (w : Nat) (mask : W64) (new : Nat → W32) (old : VReg) : VReg :=
  VReg.ofFn w fun i => if mask.getLsbD i then new i else old.lane i

/-- A mask of W64 lanes from a condition. -/
def laneMask (w : Nat) (f : Nat → Bool) : W64 :=
  BitVec.ofNat 64 ((List.range w).foldl (fun a i => if f i then a + 2 ^ i else a) 0)

/-- Every lane of a group of width w. -/
def fullMask (w : Nat) : W64 := BitVec.ofNat 64 (2 ^ w - 1)

/-- The lanes of a mask, in increasing number. -/
def lanesOf (w : Nat) (m : W64) : List Nat := (List.range w).filter fun i => m.getLsbD i

/-! ## CRC-64 (R202, R208) -/

/-- The ECMA-182 polynomial. -/
def crcPoly : W64 := 0x42F0E1EBA9EA3693

/-- Shift one bit through the CRC register, `n` times. -/
def crcShift : Nat → W64 → W64
  | 0, c => c
  | n + 1, c => crcShift n (if c.getLsbD 63 then (c <<< 1) ^^^ crcPoly else c <<< 1)

/-- The ECMA-182 CRC-64 of bytes, first byte first, initial value all ones, no final inversion. -/
def crc64 (bs : List Byte) : W64 :=
  bs.foldl (fun (c : W64) (b : Byte) => crcShift 8 (c ^^^ ((b.setWidth 64 : W64) <<< (56 : Nat)))) (BitVec.allOnes 64)

/-! ## Bytes -/

/-- The little-endian number in `n` bytes from `a` (R3). -/
def readLE (rd : Nat → Byte) (a : Nat) : Nat → Nat
  | 0 => 0
  | n + 1 => (rd a).toNat + 256 * readLE rd (a + 1) n

/-- The `n` low bytes of a number, lowest first (R3). -/
def bytesLE : Nat → Nat → List Byte
  | 0, _ => []
  | n + 1, x => BitVec.ofNat 8 x :: bytesLE n (x / 256)

/-- The number in a list of bytes, lowest first. -/
def leOf : List Byte → Nat
  | [] => 0
  | b :: bs => b.toNat + 256 * leOf bs

/-- Write bytes into a sparse byte map whose unlisted bytes read as zero. -/
def writeBytes (m : SMap Byte) (a : Nat) : List Byte → SMap Byte
  | [] => m
  | b :: bs => writeBytes (SMap.set 0 m a b) (a + 1) bs

/-- The bytes of a line from its lowest. -/
def Line.byte (l : Line) (i : Nat) : Byte := l.extractLsb' (8 * i) 8

/-- The bits of a line that a byte mask selects. -/
def spreadMask (m : BitVec 128) : Line :=
  BitVec.ofNat 1024 ((List.range 128).foldl (fun a i => if m.getLsbD i then a + 255 * 2 ^ (8 * i) else a) 0)

/-- Bytes of `new` where the mask is set, bytes of `old` elsewhere. -/
def Line.merge (m : BitVec 128) (new old : Line) : Line :=
  let k := spreadMask m
  (new &&& k) ||| (old &&& ~~~k)

/-- A byte mask of bytes [lo, lo + n) of a line. -/
def byteMask (lo n : Nat) : BitVec 128 := BitVec.ofNat 128 ((2 ^ n - 1) * 2 ^ lo)

/-- Whether the mask covers every byte of a line. -/
def wholeMask : BitVec 128 := BitVec.allOnes 128

/-! ## State access -/

def State.core (s : State) (n : Nat) : Core := s.cores.get {} n

def State.updCore (s : State) (n : Nat) (f : Core → Core) : State :=
  { s with cores := s.cores.put n (f (s.core n)) }

def State.group? (s : State) (c sl : Nat) : Option Group := (s.core c).groups.find sl

def State.updGroup (s : State) (c sl : Nat) (f : Group → Group) : State :=
  s.updCore c fun k => { k with groups := k.groups.upd sl f }

def Group.path (g : Group) (i : Nat) : Path := g.paths[i]?.getD {}

def Group.updPath (g : Group) (i : Nat) (f : Path → Path) : Group := { g with paths := updAt g.paths i f }

def State.updPath (s : State) (c sl i : Nat) (f : Path → Path) : State :=
  s.updGroup c sl fun g => g.updPath i f

def State.grid (s : State) (n : Nat) : Grid := s.sched.grids.get {} n

def State.updGrid (s : State) (n : Nat) (f : Grid → Grid) : State :=
  { s with sched := { s.sched with grids := s.sched.grids.upd n f } }

def State.team? (s : State) (n : Nat) : Option Team := s.sched.teams.find n

def State.updTeam (s : State) (n : Nat) (f : Team → Team) : State :=
  { s with sched := { s.sched with teams := s.sched.teams.upd n f } }

/-- The cores that a team holds (R120): both of its cluster for a pair team. -/
def Team.cores (t : Team) : List Nat :=
  match t.core with
  | none => []
  | some c => if t.pair then [c - c % 2, c - c % 2 + 1] else [c]

/-- A number never handed out before. -/
def State.bump (s : State) : State := { s with stamp := s.stamp + 1 }

/-- Put events at the front of what happens next. -/
def State.push (s : State) (is : List Instr) : State := { s with turns := is.map .ev ++ s.turns }

/-- The next free choice of the device (R7). -/
def State.choose (s : State) (n : Nat) : Nat := Config.choice s.free % n

def State.chose (s : State) : State := { s with free := s.free + 1 }

/-- The width code and the width of a group (R200). -/
def Group.wc (g : Group) : Nat := g.gsr.toNat % 4
def Group.w (g : Group) : Nat := 16 * 2 ^ g.wc

/-- Bits of GSR (R200): 2 NORU, 3 EXT, 4 XR, 5 MM, 6 MBR, 7 DOV. -/
def Group.gsrBit (g : Group) (i : Nat) : Bool := g.gsr.getLsbD i
def Group.setGsr (g : Group) (i : Nat) : Group := { g with gsr := g.gsr ||| (1#32 <<< i) }
def Group.clrGsr (g : Group) (i : Nat) : Group := { g with gsr := g.gsr &&& ~~~(1#32 <<< i) }

/-- S register n (R199). -/
def Group.sreg (g : Group) (n : Nat) : W32 := g.s.get 0 n
def Group.setS (g : Group) (n : Nat) (x : W32) : Group := { g with s := SMap.set 0 g.s n x }

/-- S(n+1) ‖ S(n). -/
def Group.spair (g : Group) (n : Nat) : W64 := g.sreg (n + 1) ++ g.sreg n

/-- V register n (R199). -/
def Group.vreg (g : Group) (n : Nat) : VReg := g.v.get 0 n

/-- Predicate register n of a path: P0 reads its active mask (R199). -/
def Group.preg (g : Group) (p : Path) (n : Nat) : W64 := if n = 0 then p.mask else g.p.get 0 n

/-- Write predicate n; writes of P0 are ignored (R199). -/
def Group.setP (g : Group) (n : Nat) (m : W64) : Group :=
  if n = 0 then g else { g with p := SMap.set 0 g.p n m }

/-- K register n (R199). -/
def Group.kreg (g : Group) (n : Nat) : Bool := g.k.getLsbD n
def Group.setK (g : Group) (n : Nat) (b : Bool) : Group :=
  { g with k := if b then g.k ||| (1#4 <<< n) else g.k &&& ~~~(1#4 <<< n) }

/-- The lanes a predicated instruction of a path writes (R267, R305). -/
def Group.written (g : Group) (p : Path) (pred : Nat) : W64 :=
  if pred = 0 then p.mask else p.mask &&& g.p.get 0 pred

/-- Direction register n (R199, R213). -/
def Group.dreg (g : Group) (n : Nat) : DReg := g.d.get {} n
def Group.setD (g : Group) (n : Nat) (x : DReg) : Group := { g with d := SMap.set {} g.d n x }

/-- The count of flag k; pending while it is not zero (R263). -/
def Group.flag (g : Group) (k : Nat) : Nat := g.flags.get 0 k
def Group.addFlag (g : Group) (k : Nat) : Group := { g with flags := SMap.set 0 g.flags k (g.flag k + 1) }
def Group.subFlag (g : Group) (k : Nat) : Group := { g with flags := SMap.set 0 g.flags k (g.flag k - 1) }

/-- In-flight counter c (R174). -/
def Group.ctr (g : Group) (c : Nat) : Nat := (g.ctrs.get [] c).length

/-- What an in-flight counter counts of some operations (R174, R346). -/
def Group.ctrOf (g : Group) (c : Nat) (ids : List Nat) : Nat := ((g.ctrs.get [] c).filter fun e => ids.contains e.1).length

/-- Raise an in-flight counter for an operation (R174). -/
def Group.raise (g : Group) (c id : Nat) : Group :=
  { g with ctrs := g.ctrs.put c (g.ctrs.get [] c ++ [(id, false)]) }

/-- Drop the operations at the head of a counter that have reached their lowering event (R174). -/
def dropDone : List (Nat × Bool) → List (Nat × Bool)
  | (_, true) :: xs => dropDone xs
  | xs => xs

/-- An operation reaches its lowering event; counters are lowered in order (R174). -/
def Group.lower (g : Group) (c id : Nat) : Group :=
  { g with ctrs := SMap.set [] g.ctrs c (dropDone ((g.ctrs.get [] c).map fun x => if x.1 = id then (x.1, true) else x)) }

/-- The operand queue a V field names, if it names one (R309). -/
def queueOf (qmask f : Nat) : Option Nat := if qmask ≠ 0 ∧ 60 ≤ f then some (f - 60) else none

def Group.queue (g : Group) (q : Nat) : OpQueue := g.queues.get {} q
def Group.setQueue (g : Group) (q : Nat) (x : OpQueue) : Group := { g with queues := g.queues.put q x }

/-- Entries whose data stands in a queue. -/
def OpQueue.len (q : OpQueue) : Nat := q.tail - q.head

/-- Whether another entry fits (R215, R369). -/
def OpQueue.room (q : OpQueue) (depth : Nat) : Bool := q.len + q.fills + q.held < depth

/-- The entry at a queue's head. -/
def OpQueue.front (q : OpQueue) (depth : Nat) : VReg := q.slots.get 0 (q.head % depth)

/-- Push an entry: unwritten lanes keep what the entry's slot held (R309). -/
def OpQueue.push (q : OpQueue) (depth w : Nat) (mask : W64) (x : VReg) : OpQueue :=
  let i := q.tail % depth
  { q with slots := SMap.set 0 q.slots i (VReg.merge w mask x.lane (q.slots.get 0 i)), tail := q.tail + 1 }

def OpQueue.pop (q : OpQueue) : OpQueue := { q with head := q.head + 1 }

/-! ## Memory at the channel and at the home slice (R154, R156, R158) -/

/-- What the channel holds of one line. -/
def MemSys.dramLine (m : MemSys) (line : Nat) : Line :=
  BitVec.ofNat 1024 (readLE (SMap.get 0 m.cells) (128 * line) 128)

/-- The poisoned words of a line in its channel. -/
def MemSys.dramPoison (m : MemSys) (line : Nat) : BitVec 16 :=
  BitVec.ofNat 16 ((List.range 16).foldl (fun a i => if m.poison.contains (16 * line + i) then a + 2 ^ i else a) 0)

/-- Write bytes [i, i + n) of a line to a sparse byte map where the mask is set. -/
def writeMasked (m : SMap Byte) (line : Nat) (mask : BitVec 128) (d : Line) : Nat → SMap Byte
  | 0 => m
  | n + 1 =>
    let r := writeMasked m line mask d n
    if mask.getLsbD n then SMap.set 0 r (128 * line + n) (d.byte n) else r

/-- A word's poison after a masked write: cleared where all 8 bytes are written without poison (R158). -/
def poisonAfter (old new : BitVec 16) (mask : BitVec 128) : BitVec 16 :=
  BitVec.ofNat 16 ((List.range 16).foldl (fun a i =>
    let b := if mask.extractLsb' (8 * i) 8 = 0xff then new.getLsbD i else old.getLsbD i || new.getLsbD i
    if b then a + 2 ^ i else a) 0)

/-- Write the masked bytes of a line to its channel. -/
def MemSys.dramWrite (m : MemSys) (line : Nat) (mask : BitVec 128) (d : Line) (poison : BitVec 16) : MemSys :=
  let p := poisonAfter (m.dramPoison line) poison mask
  { m with
    cells := writeMasked m.cells line mask d 128
    poison := (m.poison.filter fun a => a / 16 ≠ line) ++
      ((List.range 16).filter fun i => p.getLsbD i).map fun i => 16 * line + i }

/-- The key of a line of L2 in a server group's ways: each group has its own lines (R106, R156). -/
def l2Key (sg line : Nat) : Nat := sg * 2 ^ 36 + line
def l2LineOf (key : Nat) : Nat := key % 2 ^ 36

/-- A line of L2 that a server group may hit (R106). -/
def MemSys.l2Find (m : MemSys) (sg line : Nat) : Option L2Line := m.l2.find (l2Key sg line)

/-- A byte as its home slice gives it to a server group: the valid bytes of its L2 line stand over the channel's. -/
def MemSys.homeByte (m : MemSys) (sg pa : Nat) : Byte :=
  match m.l2Find sg (pa / 128) with
  | some l => if l.valid.getLsbD (pa % 128) then l.data.byte (pa % 128) else SMap.get 0 m.cells pa
  | none => SMap.get 0 m.cells pa

def MemSys.homePoison (m : MemSys) (sg line : Nat) : BitVec 16 :=
  match m.l2Find sg line with
  | some l => if l.valid = wholeMask then l.poison else l.poison ||| m.dramPoison line
  | none => m.dramPoison line

/-- The device's own write at a home slice: into the L2 line if it is there, else into the channel. -/
def MemSys.homeWrite (m : MemSys) (sg line : Nat) (mask : BitVec 128) (d : Line) : MemSys :=
  match m.l2Find sg line with
  | some l =>
    { m with l2 := m.l2.put (l2Key sg line) { l with
        data := Line.merge mask d l.data, valid := l.valid ||| mask, dirty := l.dirty ||| mask
        poison := poisonAfter l.poison 0 mask } }
  | none => m.dramWrite line mask d 0

/-- The lines of [a, a + n). -/
def linesOf (a n : Nat) : List Nat := if n = 0 then [] else (List.range ((a + n - 1) / 128 - a / 128 + 1)).map fun i => a / 128 + i

/-- The mask and data of one line of a run of bytes at an address. -/
def lineOf (a : Nat) (bs : List Byte) (ln : Nat) : BitVec 128 × Line :=
  let lo := max a (128 * ln)
  let hi := min (a + bs.length) (128 * ln + 128)
  (byteMask (lo - 128 * ln) (hi - lo), BitVec.ofNat 1024 (leOf ((bs.drop (lo - a)).take (hi - lo)) * 2 ^ (8 * (lo - 128 * ln))))

def State.updMem (s : State) (f : MemSys → MemSys) : State := { s with msys := f s.msys }

/-! ## Translation and leases (R163 to R167) -/

/-- The key of a lease. -/
def leaseKey (ctx n : Nat) : Nat := 256 * ctx + n

def State.lease (s : State) (ctx n : Nat) : Lease := s.msys.leases.get {} (leaseKey ctx n)

def State.updLease (s : State) (ctx n : Nat) (f : Lease → Lease) : State :=
  s.updMem fun m => { m with leases := m.leases.upd (leaseKey ctx n) f }

/-- Bytes of a page of size code 0 to 3 (R87). -/
def pageBytes (size : Nat) : Nat := [4096, 65536, 2097152, 1073741824][size]?.getD 4096

/-- Whether a table entry's reserved bits are zero and it is valid (R166). -/
def entryOk (e : W64) : Bool := e.getLsbD 0 && fld e 5 7 == 0 && fld e 39 25 == 0

/-- A table entry: one 8-byte word of management memory (R166). -/
def MemSys.entryAt (m : MemSys) (pa : Nat) : W64 := BitVec.ofNat 64 (readLE (SMap.get 0 m.cells) pa 8)

/-- The address of the entry of a table of a level that serves an address: the root has 8192 entries, the others 512 (R166). -/
def entryPa (table level va : Nat) : Nat := table + 8 * (va / 2 ^ (12 + 9 * level) % if level = 3 then 8192 else 512)

/-- What a walk makes of an entry: it fails, has its leaf and page size, or goes on in the next table. -/
inductive WalkStep where
  | bad
  | leaf (e : W64) (size : Nat)
  | next (table : Nat)
  deriving DecidableEq, Repr

/-- A walk at an entry of a level (R166). -/
def walkStep (level : Nat) (e : W64) : WalkStep :=
  if !entryOk e || (e.getLsbD 4 && level != 0) then .bad
  else if e.getLsbD 3 then
    match level with
    | 0 => .leaf e (if e.getLsbD 4 then 1 else 0)
    | 1 => .leaf e 2
    | 2 => .leaf e 3
    | _ => .bad
  else if level = 0 then .bad
  else .next (fld e 12 27 * 4096)

/-- The walk below a table of a level. -/
def MemSys.walkFrom (m : MemSys) (va : Nat) : Nat → Nat → Option (W64 × Nat)
  | 0, t => match walkStep 0 (m.entryAt (entryPa t 0 va)) with | .leaf e k => some (e, k) | _ => none
  | n + 1, t =>
    match walkStep (n + 1) (m.entryAt (entryPa t (n + 1) va)) with
    | .bad => none
    | .leaf e k => some (e, k)
    | .next u => m.walkFrom va n u

/-- The root of a context's shadow table, if it is set (R166, R175). -/
def State.tableRoot (s : State) (ctx : Nat) : Option Nat :=
  if ctx < 256 ∧ s.rfld (.troot ctx) 0 1 = 1 then some (s.rfld (.troot ctx) 16 23 * 65536) else none

/-- Walk a context's shadow table: the leaf and its page size, or nothing where the walk fails (R166). -/
def State.walk (s : State) (ctx va : Nat) : Option (W64 × Nat) := (s.tableRoot ctx).bind fun t => s.msys.walkFrom va 3 t

/-- The physical address a leaf gives a virtual address (R166). -/
def leafPa (leaf : W64) (size va : Nat) : Nat :=
  let f := fld leaf 12 27 * 4096
  let b := pageBytes size
  f - f % b + va % b

/-- Translate through the shadow table alone. -/
def State.translate (s : State) (ctx va : Nat) : Option Nat := (s.walk ctx va).map fun (e, sz) => leafPa e sz va

/-- Whether [va, va + n) lies wholly within lease `l`. -/
def Lease.covers (l : Lease) (va n : Nat) : Bool := l.st ≠ 0 && l.base ≤ va && va + n ≤ l.base + l.len

/-- A lease number of the context in state LIVE that covers the range with the rights (bits of `need`). -/
def State.liveLease (s : State) (ctx va n need : Nat) : Option Nat :=
  (List.range 255).find? fun i =>
    let l := s.lease ctx i
    l.st == 2 && l.covers va n && (l.rights &&& need) == need

/-- Whether slot i of a grid covers [va, va + n) with the needed right: 1 read, 2 write (R165). -/
def State.slotCovers (s : State) (gr : Grid) (need va n i : Nat) : Bool :=
  let num := gr.leases[i]?.getD 255
  num != 255 && (s.lease gr.ctx num).covers va n && ((gr.desc.lright[i]?.getD 0) &&& need) == need

/-- The check of R165 on one access. -/
def State.mayAccess (s : State) (gr : Grid) (need va n : Nat) : Bool :=
  va + n ≤ 2 ^ 52 && (List.range 16).any fun i => s.slotCovers gr need va n i

/-- Whether the home slice of a physical address is out of service: nothing reaches it (R24, log 89). -/
def State.lost (s : State) (pa : Nat) : Bool := s.boot.outOfService.contains (true, sliceOfChannel (channelOf pa))

/-- Bytes of a context's memory at the home slices; unmapped bytes read as zero, and what a lost slice held as free values. -/
def State.virtByte (s : State) (ctx va : Nat) : Byte :=
  match s.translate ctx va with
  | some pa => if s.lost pa then Config.lostByte pa s.free else s.msys.homeByte (s.ctxSg ctx) pa
  | none => 0

def State.virtRead (s : State) (ctx va n : Nat) : Nat := readLE (s.virtByte ctx) va n

/-- Write bytes of a context's memory in the device's own name, where it is mapped and its slice in service. -/
def State.virtWrite (s : State) (ctx va : Nat) (bs : List Byte) : State :=
  (linesOf va bs.length).foldl (fun s ln =>
    match s.translate ctx (128 * ln) with
    | some pa => if s.lost pa then s else let (k, d) := lineOf va bs ln; s.updMem fun m => m.homeWrite (s.ctxSg ctx) (pa / 128) k d
    | none => s) s

/-! ## Servers and charging (R95 to R101, R112) -/

/-- The context number of management. -/
def mgmtCtx : Nat := 256

/-- The management server of R102. -/
def mgmtSrv (cls inst : Nat) : Srv := { cls, inst, ctx := mgmtCtx, q := 49, p := 1000, tcls := 0 }

def Srv.is (v : Srv) (cls inst ctx route : Nat) : Bool :=
  v.cls == cls && v.inst == inst && v.ctx == ctx && v.route == route

/-- The instance of a context at an engine. -/
def State.srv? (s : State) (cls inst ctx route : Nat) : Option Srv :=
  match s.srvs.find? fun v => v.is cls inst ctx route with
  | some v => some v
  | none => if ctx = mgmtCtx then some (mgmtSrv cls inst) else none

/-- Replace an instance. -/
def State.putSrv (s : State) (v : Srv) : State :=
  if s.srvs.any fun u => u.is v.cls v.inst v.ctx v.route then
    { s with srvs := mapIf (fun u : Srv => u.is v.cls v.inst v.ctx v.route) (fun _ => v) s.srvs }
  else { s with srvs := s.srvs ++ [v] }

/-- Backlog appears while an instance is IDLE, at postmark t (R99). -/
def Srv.wake (v : Srv) (t : Nat) : Srv :=
  if v.d > t ∧ v.c * v.p < 1024 * (v.d - t) * v.q then { v with st := .ready }
  else { v with st := .ready, d := t + v.p, c := 1024 * v.q }

/-- A charge of n units of a/b ns: the amount taken, in 1/1024 ns (R96). -/
def Srv.amount (v : Srv) (a b n : Nat) : Nat := (1024 * a * n + v.e) / b

/-- A unit of the instance starts: it is charged, and its deadline is postponed while no budget is left
(R96, R99). -/
def Srv.charge (v : Srv) (a b n : Nat) : Srv :=
  let x := v.amount a b n
  let c := v.c - x
  let k := if c ≤ 0 then ((-c) / (1024 * v.q)).toNat + 1 else 0
  let d := v.d + k * v.p
  { v with c := c + 1024 * v.q * k, d := d, e := (1024 * a * n + v.e) % b, st := .run
           r := if k ≠ 0 ∧ v.hcap then d - v.p else v.r }

/-- A unit of the instance ends, at postmark t (R99). -/
def Srv.endUnit (v : Srv) (t : Nat) (backlogged : Bool) : Srv :=
  if v.hcap ∧ t < v.r then { v with st := .capped }
  else { v with st := if backlogged then .ready else .idle }

/-- Add to a franking meter (R112). -/
def State.meter (s : State) (ctx m x : Nat) : State :=
  s.setReg (.fmeter ctx m) (s.reg (.fmeter ctx m) + BitVec.ofNat 64 x)

/-- A unit of a server starts: charge it and raise its meter (R96, R112). -/
def State.chargeSrv (s : State) (v : Srv) (a b n : Nat) : State :=
  (s.putSrv (v.charge a b n)).meter v.ctx v.cls (v.amount a b n)

/-- Add to an own-context counter of a core (R256). -/
def State.own (s : State) (core ctx e k : Nat) : State :=
  s.updCore core fun c => { c with slots := c.slots.map fun (i, x) =>
    (i, if x.ctx = ctx then { x with own := x.own.put e (x.own.get 0 e + k) } else x) }

/-- Whether a path could issue its next instruction if the port were free (R126, R198, R250). -/
def Path.ready (p : Path) : Bool :=
  p.valid && p.wait == .none && p.park.isNone && !p.dstop && !p.entry

/-- Whether a group waits for the extended block: one of its paths stands at RACQ, which parks the group, or it has resumed and
has not drawn the block again (R304). -/
def Group.waitsPool (g : Group) : Bool := g.redraw || g.paths.any fun p => p.park == some .pool

def Group.readyPath (g : Group) : Bool := !g.done && !g.stopped && !g.restoring && g.unplaced.isEmpty && !g.waitsPool && g.replays == 0 && g.paths.any Path.ready

/-- Whether a context has an issue candidate on a quarter (R99). -/
def State.issueBacklog (s : State) (core quarter ctx : Nat) : Bool :=
  (s.core core).groups.any fun (_, g) => g.ctx == ctx && g.quarter == quarter && g.readyPath

/-- Charge beats of an issue port to a context, and end the unit (R95, R99, R107). -/
def State.chargeIssue (s : State) (core quarter ctx beats : Nat) : State :=
  let s := s.own core ctx 1 beats
  match s.srv? 0 (4 * core + quarter) ctx 0 with
  | none => s
  | some v =>
    let s := s.chargeSrv v 10 (17 - s.keff (s.ctxPart ctx)) beats
    match s.srv? 0 (4 * core + quarter) ctx 0 with
    | none => s
    | some v => s.putSrv (v.endUnit s.now (s.issueBacklog core quarter ctx))

/-! ## Trace (R244 to R248) -/

/-- The bit of `DBGCFGn.TKIND` that enables a record kind (R245); `none` for a kind always enabled. -/
def traceEnable (kind : Nat) : Option Nat :=
  [none, some 0, some 0, some 1, some 1, some 2, some 3, some 3, some 4, some 5, some 5, none][kind]?.getD none

/-- An event writes a trace record, or counts it lost when the core's queue is full (R247). A record that a kind-11 record
precedes fits only with it (log 96). -/
def State.trace (s : State) (r : TraceRec) : State :=
  let cfg := s.reg (.dbgcfg r.ctx)
  let on := cfg.getLsbD 1 && (match traceEnable r.kind with | some b => cfg.getLsbD (2 + b) | none => true)
  if ¬ on then s
  else
    let r := { r with seq := s.stamp }
    let s := s.bump
    let c := s.core r.core
    let missed := c.lostSince.get 0 r.ctx
    if c.trace.length + (if missed = 0 then 1 else 2) ≤ 64 then
      let lost := { r with kind := 11, det := 0, arg := BitVec.ofNat 64 missed }
      s.updCore r.core fun c =>
        { c with trace := c.trace ++ (if missed = 0 then [r] else [lost, r]), lostSince := c.lostSince.erase r.ctx }
    else
      { s.updCore r.core (fun c => { c with lostSince := c.lostSince.put r.ctx (missed + 1) }) with
        mon := { s.mon with lost := s.mon.lost.put r.ctx (s.mon.lost.get 0 r.ctx + 1) } }

/-- A trace record of a path's event. -/
def State.tracePath (s : State) (core slot path kind det : Nat) (arg : W64) : State :=
  match s.group? core slot with
  | none => s
  | some g =>
    let p := g.path path
    s.trace { kind, pidx := path, grp := g.num, det, ctx := g.ctx, core, quarter := g.quarter
              pc := p.pc, mask := p.mask, time := s.now, arg
              team := match s.team? g.team with | some t => t.idx | none => 0 }

/-! ## Faults (R137 to R140) -/

/-- Whether a fault class can be trapped (R137). -/
def trappable (cls : Nat) : Bool := cls ≠ 4 && cls ≠ 12 && cls ≠ 14

/-- The record of a fault of a group on a core (R138). -/
def State.faultRec (s : State) (core : Nat) (g : Group) (path : Nat) (mask : W64) (pc : W64) (cls : Nat) (va : W64) (detail : Nat) :
    FaultRec :=
  { cls, path, grp := g.num, ctx := g.ctx, team := (match s.team? g.team with | some t => t.idx | none => 0)
    pc, mask, time := s.now, va, detail, core }

/-- Whether a record comes before another: by postmark, then linear index, group and path index (R139). -/
def FaultRec.before (a b : FaultRec) : Bool :=
  a.time < b.time || (a.time == b.time &&
    (a.team < b.team || (a.team == b.team &&
      (a.grp < b.grp || (a.grp == b.grp && a.path < b.path)))))

/-- A round of a partition's distributor is due (R121). -/
def State.askRound (s : State) (part : Nat) : State :=
  if s.sched.round.contains part then s else { s with sched := { s.sched with round := s.sched.round ++ [part] } }

/-- Teams of a grid. -/
def Desc.teams (d : Desc) : Nat := d.gx * d.gy * d.gz

/-- The next unplaced team of a queue: its oldest grid with one (R111, R124). -/
def State.headGrid (s : State) (q : Nat) : Option (Nat × Grid) :=
  ((s.sched.queues.get [] q).map fun g => (g, s.grid g)).find? fun (_, g) => g.fault.isNone && decide (g.next < g.desc.teams)

/-- The wait clocks of the queues whose head a grid holds clear, as another head comes (R124). -/
def State.leaveHead (s : State) (grid : Nat) : State :=
  let heads (q : Nat) : Bool := (s.headGrid q).any fun e => e.1 == grid
  { s with sched := { s.sched with
    clocks := s.sched.clocks.filter fun (q, _) => !heads q
    aged := s.sched.aged.filter fun (q, _) => !heads q } }

/-- A fault ends a grid: its first record stands, and every further fault is counted (R139). -/
def State.gridFault (s : State) (grid : Nat) (r : FaultRec) : State :=
  (s.leaveHead grid).updGrid grid fun g =>
    match g.fault with
    | none => { g with fault := some r }
    | some old =>
      let n := min (2 ^ 32 - 1) (old.further + 1)
      if r.before old then { g with fault := some { r with further := n } }
      else { g with fault := some { old with further := n } }

/-- A path enters the handler with its record (R139, R290). -/
def Path.enterHandler (p : Path) (handler : W64) (r : FaultRec) : Path :=
  { p with pc := handler, hndl := true, left := 0, waitMask := 0, entry := false, wait := .none, park := none
           desc := none, run := 0, frec := { r with trapped := true } }

/-- The return from the handler: a path's first JMPI or RET there clears HNDL (R290). -/
def Path.leaveHandler (p : Path) : Path := { p with hndl := false }

/-- A path no longer waits for a message (R47). -/
def State.unwait (s : State) (core slot path : Nat) : State :=
  s.updCore core fun c => { c with recv := c.recv.map fun (q, (r : RecvQ)) => (q, { r with waiters := r.waiters.erase (slot, path) }) }

/-- No path of a group waits for a message any more. -/
def Core.unwaitAll (c : Core) (slot : Nat) : Core :=
  { c with recv := c.recv.map fun (q, (r : RecvQ)) => (q, { r with waiters := r.waiters.filter fun w => w.1 != slot }) }

/-- The copy or the collective that an operation writes for (R188). -/
def OpKind.partOf : OpKind → Option Nat
  | .copyWrite c | .collWrite c => some c
  | _ => none

/-- Whether a forced halt is taking a team off its core (R132). -/
def State.teamHalted (s : State) (team : Nat) : Bool := (s.team? team).any fun t => t.stop == some 1 || t.stop == some 2

/-- Whether an operation or a command has not performed: it stands, or a write that it has sent does (R180, R188). -/
def State.outstanding (s : State) (id : Nat) : Bool :=
  (s.ops.any fun (k, o) => k == id || o.kind.partOf == some id) || (s.lodra.colls.find id).isSome ||
    s.cores.any fun (_, c) => c.copies.any fun (_, y) => y.id == id

/-- Whether the accesses and commands of a list have all performed (R181, R188). -/
def State.performed (s : State) (ids : List Nat) : Bool := ids.all fun i => !s.outstanding i

/-- What a path has in flight comes before its next instruction in program order; what has performed is forgotten (R177). -/
def State.remember (s : State) (core slot path : Nat) (ids : List Nat) : State :=
  s.updGroup core slot fun g => g.updPath path fun p =>
    { p with past := (p.past.filter fun i => s.outstanding i || g.dpipe.any fun w => w.id == i) ++ ids }

/-- Taking a fault at an instruction of a path (R139): a trappable fault in a grid with a handler moves
only the faulting path there; a fault in the handler, and every other fault, ends the grid. -/
def State.takeFault (s : State) (core slot path : Nat) (pc : W64) (cls : Nat) (va : W64) (detail : Nat) : State :=
  match s.group? core slot with
  | none => s
  | some g =>
    let p := g.path path
    let gr := s.grid g.grid
    let r := s.faultRec core g path p.mask pc cls va detail
    let s := s.tracePath core slot path 8 cls va
    if trappable cls && gr.desc.handler != 0 && !p.hndl then
      (s.updPath core slot path fun p => p.enterHandler gr.desc.handler r).unwait core slot path
    else s.gridFault g.grid r

/-- A fault of an access thread is never trapped (R359). It is no path: which PIDX its trace record names is left open
(R244, log 97). -/
def State.accessFault (s : State) (core slot : Nat) (pc : W64) (cls : Nat) (va : W64) (detail : Nat) : State :=
  match s.group? core slot with
  | none => s
  | some g =>
    let t : TraceRec := { kind := 8, pidx := s.choose 8, grp := g.num, det := cls, ctx := g.ctx, core, quarter := g.quarter, pc
                          mask := 0, time := s.now, arg := va, team := match s.team? g.team with | some t => t.idx | none => 0 }
    (s.chose.trace t).gridFault g.grid (s.faultRec core g 255 0 pc cls va detail)

/-- A fault that no path or access thread stands for any more ends a grid; it is recorded in the trace as a fault of the
core where it arose, in a quarter that the spec leaves open (R139, R245, log 97). -/
def State.strayFault (s : State) (grid : Nat) (r : FaultRec) : State :=
  let t : TraceRec := { kind := 8, pidx := r.path % 8, grp := r.grp, det := r.cls, ctx := r.ctx, core := r.core, quarter := s.choose 4, pc := r.pc
                        mask := r.mask, time := s.now, arg := r.va, team := r.team }
  (s.chose.trace t).gridFault grid r

/-- The lowest core that holds a team of a grid, or else the first of its partition: where a fault of the whole grid is
recorded (log 97). -/
def State.gridCore (s : State) (grid : Nat) : Nat :=
  match leastBy id ((s.sched.teams.filter fun (_, t) => t.grid == grid).filterMap fun (_, t) => t.core) with
  | some c => c
  | none => match s.partCores (s.ctxPart (s.grid grid).ctx) with | c :: _ => c | [] => 0

/-! ## L1, epoch and the result table (R156, R192, R211) -/

/-- The acquire epoch of a core advances; when it wraps to 0 every load entry goes (R211). -/
def Core.advance (c : Core) : Core :=
  let e := c.epoch + 1
  { c with epoch := e, rt := if e = 0 then c.rt.filter fun t => !t.load else c.rt }

/-- Invalidate the L1 lines of a server group on a core that `p` picks (R106, R156). A read already on its way does not bring
such a line back: a later load would find what its home held before. -/
def State.dropL1If (s : State) (core sg : Nat) (p : Nat → Bool) : State :=
  let s := s.updCore core fun c => { c with l1 := c.l1.filter fun l => !(l.sg == sg && p l.line) }
  { s with pkts := s.pkts.map fun (i, (q : Pkt)) =>
    (i, if q.core = core ∧ q.opId ≠ 0 ∧ s.ctxSg q.ctx = sg ∧ p (q.addr / 128) then { q with noAlloc := true } else q) }

/-- Invalidate every L1 line of a server group on a core, or one line. -/
def State.dropL1 (s : State) (core sg : Nat) : State := s.dropL1If core sg fun _ => true
def State.dropLine (s : State) (core sg line : Nat) : State := s.dropL1If core sg fun l => l == line

/-- The ways of a context's group. They hold for a group whose SGMASK.VALID is 0 as well, which only leaves it out of the
overlap check: the model's choice (log 87). -/
def State.l1Mask (s : State) (ctx : Nat) : BitVec 8 := BitVec.ofNat 8 (s.rfld (.sgmask (s.ctxSg ctx)) 0 8)
def State.l2Mask (s : State) (ctx : Nat) : BitVec 16 := if ctx = mgmtCtx then 0 else BitVec.ofNat 16 (s.rfld (.sgmask (s.ctxSg ctx)) 8 16)

end Sys2Proof.Machine
end

