-- ==== Sys2Proof/Machine/Naming.lean ====
section
/-! DEFINITION. Content-named registers and the result table (R201 to R212).

A group's V registers hold their values; beside them stand the mapping entries, and each core keeps its
physical registers with their tags and contents. A result-table hit takes the physical register's
contents, so a hit gives what the file holds under the name. -/

namespace Sys2Proof.Machine

/-- The key of the physical register that a mapping entry names at a width; the zero register has none
(R201). -/
def mapKey (wc : Nat) (e : BitVec 14) : Option Nat :=
  if e = 0 then none
  else if e.getLsbD 13 then some (32768 + e.toNat % 64) else some (8192 * wc + e.toNat)

/-- The 64-byte units [lo, hi) of the main array that the register of a key occupies; empty for an
overflow entry (R201). -/
def unitsOf (key : Nat) : Nat × Nat :=
  if 32768 ≤ key then (0, 0) else
    let wc := key / 8192
    let n := key % 8192
    (n * 2 ^ wc, (n + 1) * 2 ^ wc)

/-- The allocated main-array registers that overlap a place (R203). -/
def Core.occupants (c : Core) (wc n : Nat) : List (Nat × Pvr) :=
  c.pvrs.filter fun (k, _) =>
    let (lo, hi) := unitsOf k
    lo < (n + 1) * 2 ^ wc && n * 2 ^ wc < hi

/-- Whether a place lies within position 0, which is never allocated (R201). -/
def inPositionZero (wc n : Nat) : Bool := n * 2 ^ wc < 4

/-- Whether a result-table entry names the register of a key, as its value, a source or its prior. -/
def RtEntry.names (t : RtEntry) (key : Nat) : Bool :=
  [t.val, t.srca, t.srcb, t.srcc, t.prior].any fun e => mapKey t.wc e == some key

/-- Whether a register has a soft reference (R204). -/
def Core.soft (c : Core) (key : Nat) : Bool := c.rt.any fun t => t.names key

/-- Whether a register is reclaimable: no count, at least one soft reference (R204). -/
def Core.reclaimable (c : Core) (kp : Nat × Pvr) : Bool := kp.2.count == 0 && !kp.2.pinned && c.soft kp.1

/-- Free a register that has neither a count nor a soft reference (R204). -/
def Core.freeIfDead (c : Core) (key : Nat) : Core :=
  match c.pvrs.find key with
  | some p => if p.count = 0 ∧ ¬ p.pinned ∧ ¬ c.soft key then { c with pvrs := c.pvrs.erase key } else c
  | none => c

/-- Lower the count of the register a mapping entry names (R204, R205). -/
def Core.release (c : Core) (wc : Nat) (e : BitVec 14) : Core :=
  match mapKey wc e with
  | none => c
  | some k => ({ c with pvrs := c.pvrs.upd k fun p => if p.pinned then p else { p with count := p.count - 1 } }).freeIfDead k

/-- Raise a count; at 255 it saturates and the register is pinned (R204, R205). -/
def Pvr.hold (p : Pvr) (stamp : Nat) : Pvr :=
  if p.pinned then { p with used := stamp }
  else if 254 ≤ p.count then { p with count := 255, pinned := true, used := stamp }
  else { p with count := p.count + 1, used := stamp }

/-- Drop result-table entries, and free the registers that lose their last reference (R211). -/
def Core.dropRt (c : Core) (f : RtEntry → Bool) : Core :=
  let c' := { c with rt := c.rt.filter fun t => !f t }
  { c' with pvrs := c'.pvrs.filter fun (k, p) => !(p.count == 0 && !p.pinned && !c'.soft k) }

/-- Reclaim every occupant of a place: its entries go with it (R203). -/
def Core.reclaim (c : Core) (ks : List (Nat × Pvr)) : Core :=
  let c := c.dropRt fun t => ks.any fun (k, _) => t.names k
  { c with pvrs := c.pvrs.filter fun (k, _) => !ks.any fun (k', _) => k' == k }

/-- The fingerprint of a register image: the low 48 bits of the CRC-64 of its W × 4 bytes (R202). -/
def fingerprint (w : Nat) (x : VReg) : BitVec 48 := (crc64 (bytesLE (4 * w) x.toNat)).setWidth 48

/-- Sets of the main array at a width code (R201). -/
def setCount (wc : Nat) : Nat := 2 ^ (11 - wc)

/-- The context slot of a core that a context holds. -/
def Core.ctxSlot (c : Core) (ctx : Nat) : Option (Nat × CtxSlot) := c.slots.find? fun (_, x) => x.ctx == ctx

/-- The ways of a set that are free, in order (R203 step 1). -/
def Core.freeWay (c : Core) (wc : Nat) (names : List Nat) : Option Nat :=
  names.find? fun n => !inPositionZero wc n && (c.occupants wc n).isEmpty

/-- The least recently used reclaimable place among names, by its most recently used occupant (R203). -/
def Core.lruPlace (c : Core) (wc : Nat) (names : List Nat) : Option Nat :=
  let ok := names.filter fun n =>
    !inPositionZero wc n && !(c.occupants wc n).isEmpty && (c.occupants wc n).all c.reclaimable
  leastBy (fun n => (c.occupants wc n).foldl (fun a kp => max a kp.2.used) 0) ok

/-- Put a new register at a key and map it. -/
def Core.newPvr (c : Core) (key : Nat) (p : Pvr) : Core := { c with pvrs := c.pvrs.put key p }

/-- Set the collided bit of the registers of some keys (R203). -/
def markCollided (keys : List Nat) : SMap Pvr → SMap Pvr
  | [] => []
  | (k, p) :: m => (k, if keys.contains k then { p with collided := true } else p) :: markCollided keys m

/-- The salt of a context on a core (R202). -/
def Core.saltOf (c : Core) (ctx : Nat) : BitVec 48 := match c.ctxSlot ctx with | some (_, y) => y.salt | none => 0

/-- Steps 1 to 4 of R203 for a new register `p shared`: a free way of its set, the least recently used reclaimable
way, the group's overflow entry, or any reclaimable or free place. Nothing where the write must stall. -/
def Core.placeNew (c : Core) (slot wc : Nat) (names : List Nat) (p : Bool → Pvr) : Option (Core × BitVec 14 × Bool) :=
  let all := List.range (8192 / 2 ^ wc)
  match c.freeWay wc names with
  | some n => some (c.newPvr (8192 * wc + n) (p true), BitVec.ofNat 14 n, true)
  | none =>
    match c.lruPlace wc names with
    | some n => some ((c.reclaim (c.occupants wc n)).newPvr (8192 * wc + n) (p true), BitVec.ofNat 14 n, true)
    | none =>
      if (c.pvrs.find (32768 + slot)).isNone then
        some (c.newPvr (32768 + slot) (p false), BitVec.ofNat 14 (8192 + slot), false)
      else
        match c.lruPlace wc all with
        | some n => some ((c.reclaim (c.occupants wc n)).newPvr (8192 * wc + n) (p false), BitVec.ofNat 14 n, false)
        | none =>
          match c.freeWay wc all with
          | some n => some (c.newPvr (8192 * wc + n) (p false), BitVec.ofNat 14 n, false)
          | none => none

/-- Place a result under R203: the core after it, the mapping entry, and whether the register has the
shared bit. Nothing where the write must stall for register allocation. -/
def Core.place (c : Core) (ctx slot wc : Nat) (x : VReg) (stamp : Nat) : Option (Core × BitVec 14 × Bool) :=
  if x = 0 then some (c, 0, false) else
    let fp := fingerprint (16 * 2 ^ wc) x
    let set := (fp ^^^ c.saltOf ctx).toNat % setCount wc
    let names := (List.range 4).map fun i => 4 * set + i
    let cands := names.filter fun n => n != 0 && (c.pvrs.find (8192 * wc + n)).any fun p =>
      p.ctx == ctx && p.fp == fp && p.shared && !p.pinned
    match cands.find? fun n => (c.pvrs.find (8192 * wc + n)).any fun p => p.val == x with
    | some n => some ({ c with pvrs := c.pvrs.upd (8192 * wc + n) fun p => p.hold stamp }, BitVec.ofNat 14 n, true)
    | none =>
      ({ c with pvrs := markCollided (cands.map fun n => 8192 * wc + n) c.pvrs } : Core).placeNew slot wc names fun shared =>
        { ctx, fp, count := 1, collided := !cands.isEmpty, shared, wc, val := x, used := stamp, born := stamp }

/-- Whether a new result of a group can be placed now; a group is never stalled while a free or
reclaimable place of its width, or its overflow entry, exists (R203). -/
def Core.canPlace (c : Core) (slot wc : Nat) : Bool :=
  (c.pvrs.find (32768 + slot)).isNone ||
    (List.range (8192 / 2 ^ wc)).any fun n => !inPositionZero wc n && (c.occupants wc n).all c.reclaimable

/-- Map V register `r` to the zero register (R199, R212). -/
def State.zeroV (s : State) (core slot r : Nat) : State :=
  match s.group? core slot with
  | none => s
  | some g =>
    let old := g.vname.get 0 r
    let s := s.updGroup core slot fun g => { g with v := g.v.erase r, vname := g.vname.erase r }
    s.updCore core fun c => c.release g.wc old

/-! ## The result table (R208 to R211) -/

/-- The 31 key bytes of an entry, CTX in the lowest bits (R208). -/
def RtEntry.keyBytes (t : RtEntry) : List Byte :=
  bytesLE 31 (t.ctx + t.opw.toNat * 2 ^ 9 + t.wc * 2 ^ 41 + t.srca.toNat * 2 ^ 43 + t.srcb.toNat * 2 ^ 57
    + t.srcc.toNat * 2 ^ 71 + t.uval.toNat * 2 ^ 85 + t.wmask.toNat * 2 ^ 149 + t.prior.toNat * 2 ^ 213
    + t.grid % 2 ^ 16 * 2 ^ 227)

/-- The set of a key. -/
def RtEntry.keySet (t : RtEntry) : Nat := (crc64 t.keyBytes).toNat % 128

/-- Every key field equal (R210). -/
def RtEntry.sameKey (a b : RtEntry) : Bool :=
  a.ctx == b.ctx && a.opw == b.opw && a.wc == b.wc && a.srca == b.srca && a.srcb == b.srcb && a.srcc == b.srcc &&
    a.uval == b.uval && a.wmask == b.wmask && a.prior == b.prior && a.grid == b.grid

/-- Look up the table; a load's entry hits only in its own epoch (R210). -/
def Core.lookup (c : Core) (k : RtEntry) : Option RtEntry :=
  c.rt.find? fun t => t.sameKey k && (!t.load || t.epoch == c.epoch)

/-- Insert an entry whose value is `e`: it replaces one of the same key, else takes a free way of its set,
else the least recently used (R208, R210). -/
def Core.insertRt (c : Core) (k : RtEntry) (e : BitVec 14) (stamp : Nat) : Core :=
  let k := { k with val := e, set := k.keySet, used := stamp }
  let c := c.dropRt fun t => t.sameKey k
  let inSet := c.rt.filter fun t => t.set == k.set
  let c := if inSet.length < 8 then c else
    match leastBy (fun t : RtEntry => t.used) inSet with
    | some old => c.dropRt fun t => t == old
    | none => c
  let way := (List.range 8).find? fun w => !(c.rt.any fun t => t.set == k.set && t.way == w)
  { c with rt := c.rt ++ [{ k with way := way.getD 0 }] }

/-- The entry of a result that is in place: inserted if there is one and the register has the shared bit (R203, R210). -/
def Core.learn (c : Core) (key : Option RtEntry) (shared : Bool) (e : BitVec 14) (stamp : Nat) : Core :=
  match key with
  | some k => if shared then c.insertRt k e stamp else c
  | none => c

/-- The registers that a key names beside its value, each with the stamp of its placing. -/
def Core.births (c : Core) (k : RtEntry) : List (Nat × Nat) :=
  ([k.srca, k.srcb, k.srcc, k.prior].filterMap (mapKey k.wc)).map fun n => (n, match c.pvrs.find n with | some p => p.born | none => 0)

/-- Write a whole register image to V register `r` of a group: the value is placed and mapped, the entry of the instruction
inserted, and the old mapping released, which the entry may name (R203, R204, R210). Nothing where it must stall. The last
part tells whether the register has the shared bit, and its name. -/
def State.writeV (s : State) (core slot r : Nat) (x : VReg) (key : Option RtEntry := none) : Option (State × BitVec 14 × Bool) :=
  match s.group? core slot with
  | none => none
  | some g =>
    match (s.core core).place g.ctx slot g.wc x s.stamp with
    | none => none
    | some (c, e, sh) =>
      let old := g.vname.get 0 r
      let g := { g with v := SMap.set 0 g.v r x, vname := SMap.set 0 g.vname r e }
      let c := ({ c with groups := c.groups.put slot g } : Core).learn key sh e s.stamp
      some ((s.updCore core fun _ => c.release g.wc old).bump, e, sh)

/-- Invalidate the load entries of a context that record a global page (R211). -/
def Core.dropPage (c : Core) (ctx page : Nat) : Core :=
  c.dropRt fun t => t.load && t.sp.isNone && t.ctx == ctx && t.pages.contains page

/-- Invalidate the load entries that record a team's scratchpad page (R211). -/
def Core.dropSpPage (c : Core) (team page : Nat) : Core :=
  c.dropRt fun t => t.load && t.sp == some team && t.pages.contains page

/-! ## Register blocks (R212) -/

/-- The descriptor of a group's grid. -/
def State.descOf (s : State) (g : Group) : Desc := (s.grid g.grid).desc

/-- Units of 64 bytes that the base reserves and the extended blocks of a core hold (R122, R212). -/
def State.reserved (s : State) (core : Nat) : Nat :=
  (s.core core).groups.foldl (fun a (_, g) =>
    let d := s.descOf g
    a + (d.vbase + if g.gsrBit 3 then d.vext else 0) * 2 ^ g.wc) 0

/-- Whether E more registers of a width fit in the pool (R212). -/
def State.poolFits (s : State) (core wc e : Nat) : Bool := 4 + s.reserved core + e * 2 ^ wc ≤ 8192

end Sys2Proof.Machine
end

