-- ==== Sys2Proof/Machine/Issue.lean ====
section
/-! DEFINITION. What every encoded instruction shares: the order in which an issue is checked, parked,
charged, retired or trapped (R126, R127, R131, R134, R262, R265, R275, R283, R307, R337). -/

namespace Sys2Proof.Machine

/-- The path that issues, with everything its instruction reads. -/
structure IssueCtx where
  s : State
  c : Cur
  g : Group
  p : Path
  gr : Grid

/-- The descriptor of the issuing group's grid. -/
def IssueCtx.d (x : IssueCtx) : Desc := x.gr.desc

/-- The width of the issuing group. -/
def IssueCtx.w (x : IssueCtx) : Nat := x.g.w

/-- What an instruction does at its issue. -/
inductive Act where
  /-- a fault of a class, with its address and detail; nothing else changes (R275, R137) -/
  | trap (cls : Nat) (va : W64) (detail : Nat)
  /-- a fault of an earlier instruction at `pc`, raised here (R140, R344) -/
  | trapAt (s : State) (pc : W64) (cls : Nat) (va : W64)
  /-- it cannot issue yet: nothing is charged and nothing changes (R97, R198) -/
  | park (a : Await)
  /-- it has started what it must wait for, and cannot issue yet -/
  | start (s : State) (a : Await)
  /-- it takes effect; the path goes on at the next parcel -/
  | done (s : State)
  /-- it takes effect; the path goes on at the header of a clause -/
  | jump (s : State) (pc : W64)
  /-- it takes effect; the path stays at this parcel until it is released -/
  | stay (s : State)
  /-- it retires as a result-table hit (R210) -/
  | hit (s : State)

/-- How an instruction uses the port. -/
structure Info where
  /-- bytes of its parcel -/
  size : Nat := 4
  /-- its S bit (R265) -/
  sp : Bool := false
  /-- beats it holds the port for and is charged -/
  beats : Nat := 1
  /-- it must be the last parcel of its clause (R262) -/
  last : Bool := false
  /-- it is YIELDD (R134) -/
  yieldd : Bool := false
  /-- it is a load, a store or an atomic, which draws its current within the standing quantum (R141) -/
  moves : Bool := false

/-- Whether an instruction draws on the 4-beat reservation of its quarter (R141). -/
def Info.draws (i : Info) : Bool := i.beats == 4 && !i.moves

/-- The beats of an instruction of W lanes (R95, R307). -/
def beatsOf (g : Group) : Nat := g.w / 16

/-- Whether a reservation is that of a unit (R141, R142, R147). -/
def Resv.isOf (r : Resv) (u : SlewUnit) (core quarter : Nat) : Bool := !r.gone && r.unit == u && r.core == core && r.quarter == quarter

/-- The held 4-beat reservation of a quarter (R141, R142). -/
def State.vectorResv (s : State) (core quarter : Nat) : Bool :=
  match s.partOfUnit (unitOfCore core) with
  | none => true
  | some n => (s.slew.get {} n).held.any fun r => r.isOf .vector core quarter

/-- Whether a quarter holds its standing quantum (R141). -/
def State.standing (s : State) (core quarter : Nat) : Bool :=
  match s.partOfUnit (unitOfCore core) with
  | none => false
  | some n => (s.slew.get {} n).held.any fun r => r.isOf .quarter core quarter

/-- Raise a request for a current reservation, if the unit has none waiting (R141, R143). -/
def State.slewRequest (s : State) (r : Resv) : State :=
  match s.partOfUnit (unitOfCore r.core) with
  | none => s
  | some n =>
    let sl := s.slew.get {} n
    if sl.pending.any fun q => q.isOf r.unit r.core r.quarter then s
    else { s with slew := s.slew.put n { sl with pending := sl.pending ++ [{ r with since := sl.clock }] } }

/-- A unit's reservation becomes free: its macro-operation has ended (R142). -/
def State.slewFree (s : State) (u : SlewUnit) (core quarter : Nat) : State :=
  match s.partOfUnit (unitOfCore core) with
  | none => s
  | some n =>
    let sl := s.slew.get {} n
    { s with slew := s.slew.put n { sl with
        held := mapIf (fun r => r.isOf u core quarter && !r.free)
          (fun r => { r with free := true, busy := 0, since := sl.clock }) sl.held } }

/-- A unit has nothing left to wait for: its request is withdrawn (R147). -/
def State.slewForget (s : State) (u : SlewUnit) (core quarter : Nat) : State :=
  match s.partOfUnit (unitOfCore core) with
  | none => s
  | some n =>
    let sl := s.slew.get {} n
    { s with slew := s.slew.put n { sl with pending := sl.pending.filter fun r => !r.isOf u core quarter } }

/-- A unit starts a macro-operation on the reservation it holds (R142): one of some cycles, or, with 0, one that lasts until
it is said to end. -/
def State.slewTake (s : State) (u : SlewUnit) (core quarter cycles : Nat) : State :=
  match s.partOfUnit (unitOfCore core) with
  | none => s
  | some n =>
    let sl := s.slew.get {} n
    { s with slew := s.slew.put n { sl with
        held := mapIf (fun r => r.isOf u core quarter) (fun r => { r with free := false, busy := cycles }) sl.held } }

/-- Park a path on what its next instruction awaits (R198). -/
def State.parkPath (s : State) (c : Cur) (a : Await) : State :=
  s.updPath c.core c.slot c.path fun p => { p with park := some a }

/-- The path goes to the parcel after one of `size` bytes; a safe point takes its mask word with it. -/
def Path.step (p : Path) (size parcels : Nat) : Path :=
  { p with pc := p.pc + BitVec.ofNat 64 size, left := p.left - parcels }

/-- The path goes to a clause header (R262). -/
def Path.goto (p : Path) (pc : W64) : Path := { p with pc := pc, left := 0 }

/-- Issue counts of a group and path, counters of the context, and the charge (R95, R126, R127, R134,
R256). A path's run counts its issues in a row while a sibling is ready (R127). -/
def State.countIssue (s : State) (c : Cur) (g : Group) (wdog : Bool) (beats : Nat) : State :=
  let s := s.updGroup c.core c.slot fun g => { g with
    issued := min (2 ^ 32 - 1) (g.issued + 1)
    watchdog := if wdog then g.watchdog - 1 else g.watchdog
    atSafe := none }
  let s := s.updGroup c.core c.slot fun g =>
    let sibling := (List.range 8).any fun i => i != c.path && (g.path i).ready
    { g with paths := (List.range 8).map fun i =>
        let p := g.path i
        if !p.valid then p
        else if i = c.path then { p with run := if sibling then p.run + 1 else 0, bpSkip := none, done := p.done + 1 }
        else { p with run := 0 } }
  (s.own c.core g.ctx 0 1).chargeIssue c.core g.quarter g.ctx beats

/-- The live-mask word after a safe point (R130). -/
def IssueCtx.maskWord (x : IssueCtx) : W32 :=
  BitVec.ofNat 32 (x.s.virtRead x.g.ctx (x.p.pc.toNat + 4) 4)

/-- The trap code of a clause-structure error (R262, R275 code 6). -/
def IssueCtx.structureError (x : IssueCtx) (inf : Info) : Bool :=
  x.p.left == 0 || (inf.sp && (x.p.left != 2 || x.maskWord.toNat / 2 ^ 26 != 0)) || (inf.last && x.p.left != 1)

/-- Whether the path that caused a late fault still exists. -/
def Group.causer (g : Group) (l : LateFault) : Bool := (g.path l.path).valid && (g.path l.path).born == l.pid

/-- The late fault that the next issue of a path raises: one that it caused, or, if it is the group's oldest path, one whose
path no longer exists (R337). -/
def Group.lateOf (g : Group) (path : Nat) : Option (Nat × LateFault) :=
  let oldest := leastBy (fun i : Nat => (g.path i).born) ((List.range 8).filter fun i => (g.path i).valid)
  findAt (fun l : LateFault => if g.causer l then l.path == path else oldest == some path) g.late

/-- Raise a path's late fault (R337). -/
def State.raiseLate (s : State) (core slot path : Nat) : State :=
  match s.group? core slot with
  | none => s
  | some g =>
    match g.lateOf path with
    | none => s
    | some (i, l) =>
      (s.updGroup core slot fun g => { g with late := g.late.eraseIdx i }).takeFault core slot path l.pc l.cls l.va l.detail

/-- Carry out what an instruction's meaning answered. -/
def IssueCtx.finish (x : IssueCtx) (inf : Info) (a : Act) : State :=
  let s := x.s
  let wd := x.d.wdog && !inf.yieldd && x.g.watchdog ≤ 1
  let dog := s.takeFault x.c.core x.c.slot x.c.path x.p.pc 12 0 0
  let move (s : State) : State := s.updPath x.c.core x.c.slot x.c.path fun p => p.step (inf.size + if inf.sp then 4 else 0) (if inf.sp then 2 else 1)
  let safe (s : State) : State :=
    if inf.sp then s.updGroup x.c.core x.c.slot fun g => { g with atSafe := some x.maskWord } else s
  let count (s : State) (b : Nat) : State := s.countIssue x.c x.g (x.d.wdog && !inf.yieldd) b
  match a with
  | .trap cls va detail => s.takeFault x.c.core x.c.slot x.c.path x.p.pc cls va detail
  | .trapAt t pc cls va => t.takeFault x.c.core x.c.slot x.c.path pc cls va 0
  | .park a => s.parkPath x.c a
  | .start t a => t.parkPath x.c a
  | .done t =>
    if wd then dog
    else if inf.draws then
      if s.vectorResv x.c.core x.g.quarter then
        safe (move (count (t.slewTake .vector x.c.core x.g.quarter 4) inf.beats))
      else (s.slewRequest { unit := .vector, core := x.c.core, quarter := x.g.quarter, ctx := x.g.ctx, size := 5 }).parkPath x.c .slewGrant
    else safe (move (count t inf.beats))
  | .jump t pc => if wd then dog else count (t.updPath x.c.core x.c.slot x.c.path fun p => p.goto pc) inf.beats
  | .stay t => if wd then dog else count t inf.beats
  | .hit t => if wd then dog else
      safe (move ((count t 1).meter x.g.ctx 5 1))

/-- One issue of an execute-slice instruction: `code` is the trap code of an encoding that is no
instruction (R275); `body` is the instruction's own meaning. -/
def issueAt (s : State) (c : Cur) (code : Option Nat) (inf : Group → Info) (body : IssueCtx → Act) : State :=
  let s := { s with cur := none }
  match s.group? c.core c.slot with
  | none => s
  | some g =>
    if c.access then s.accessFault c.core c.slot ((g.acc.getD {}).pc) 1 0 7
    else
      let x : IssueCtx := { s, c, g, p := g.path c.path, gr := s.grid g.grid }
      if (g.lateOf c.path).isSome then s.raiseLate c.core c.slot c.path
      else if x.p.left == 0 then s.takeFault c.core c.slot c.path x.p.pc 1 0 6
      else match code with
        | some k => s.takeFault c.core c.slot c.path x.p.pc 1 0 k
        | none =>
          if x.structureError (inf g) then s.takeFault c.core c.slot c.path x.p.pc 1 0 6
          else x.finish (inf g) (body x)

/-- The meaning of an encoded instruction: one issue by the path that is issuing; without one it is no
step of the machine. -/
def issue (s : State) (code : Option Nat) (inf : Group → Info) (body : IssueCtx → Act) :
    Host.Outcome State Fault Refusal :=
  match s.cur with
  | none => .fault .noIssuingPath
  | some c => .next (issueAt s c code inf body)

end Sys2Proof.Machine
end

