-- ==== Sys2Proof/WellFormed.lean ====
section
/-! DEFINITION. Well-formedness: which field values an instruction's own meaning leaves undefined.

`Instr.illegalCode` is the trap code of R275 that an encoded instruction takes for its fields alone,
whatever the state: reserved selectors, modes and regions, odd or overlong register runs, unused
fields that are not zero. Checks that need the grid's declarations stand with the meanings.
`Instr.inRange` bounds the operands of the device's steps by the device's own sizes (R9). -/

namespace Sys2Proof

/-- The first code whose condition holds (R275). -/
def firstCode : List (Bool × Nat) → Option Nat
  | [] => none
  | (c, n) :: rest => if c then some n else firstCode rest

def oddReg {n : Nat} (r : BitVec n) : Bool := r.toNat % 2 = 1
def beyondS (r : BitVec 8) : Bool := decide (192 ≤ r.toNat)

/-- Elements of one lane that a CVT source type may select (R229, R322). -/
def cvtIndexLimit (t : Nat) : Nat :=
  if t < 2 ∨ t = 13 then 1 else if t < 6 then 2 else 4

/-- Registers an atomic's data run takes from D (R274, R340). -/
def atomRun (o : Nat) : Nat :=
  if o = 14 then 4 else if o = 1 ∨ o = 12 ∨ o = 13 then 2 else 1

/-- URDS selectors that R302 lists. -/
def urdsListed (s : Nat) : Bool :=
  decide (s ≤ 2 ∨ (0x10 ≤ s ∧ s ≤ 0x12) ∨ (0x14 ≤ s ∧ s ≤ 0x16) ∨ (0x18 ≤ s ∧ s ≤ 0x1D) ∨
    (0x20 ≤ s ∧ s ≤ 0x23) ∨ (0x30 ≤ s ∧ s ≤ 0x3F) ∨ (0x100 ≤ s ∧ s ≤ 0x1FF))

/-- REGION codes that name a tile the team can hold (R268, R362). -/
def regionOk (r : BitVec 7) : Bool :=
  let n := r.toNat
  decide (n < 32 ∨ (64 ≤ n ∧ n < 72) ∨ n = 80 ∨ n = 81)

def illegalMem (b d z : Nat) : Option Nat :=
  firstCode [(b % 2 = 1, 5), (z = 3 ∧ d = 63, 5)]

def illegalUa (f : UA) : Option Nat :=
  firstCode [(beyondS f.d || beyondS f.a || beyondS f.b, 5)]

def illegalUaMem (f : UA) : Option Nat :=
  firstCode [(beyondS f.d || beyondS f.a || beyondS f.b, 5), (oddReg f.a, 5)]

def illegalUun (f : UUn) : Option Nat := firstCode [(beyondS f.d || beyondS f.a, 5)]
def illegalUi (f : UI) : Option Nat := firstCode [(beyondS f.d, 5)]
def illegalCmp (f : VCmpF) : Option Nat := firstCode [(f.d = 0, 5), (6 ≤ f.c.toNat, 4)]
def illegalFcmp (f : VCmpF) : Option Nat := firstCode [(f.d = 0, 5), (7 ≤ f.c.toNat, 4)]
def illegalSel (f : VA) : Option Nat := firstCode [(f.pred = 0, 4)]
def illegalCnt (f : CntF) : Option Nat := firstCode [(3 ≤ f.w.toNat, 4)]
def illegalPred (d : BitVec 3) : Option Nat := firstCode [(d = 0, 5)]
def illegalBar (f : BarF) : Option Nat := firstCode [(f.x = 0 ∧ f.v ≠ 0, 3)]
def illegalAtom (f : AtomF) : Option Nat :=
  firstCode [(f.o = 15, 2), (oddReg f.b, 5), (63 < f.d.toNat + atomRun f.o.toNat - 1, 5)]
def illegalRed (f : AtomF) : Option Nat :=
  firstCode [(f.o = 15, 2), (11 ≤ f.o.toNat, 4), (oddReg f.b, 5), (63 < f.d.toNat + atomRun f.o.toNat - 1, 5)]
def illegalAtsp (f : AtspF) : Option Nat :=
  firstCode [(f.o = 15, 2), (2 ≤ f.c.toNat, 4), (63 < f.d.toNat + atomRun f.o.toNat - 1, 5)]
def illegalRegion (b : BitVec 6) (g : BitVec 1) : Option Nat :=
  firstCode [(g = 0 ∧ b ≠ 0, 3), (oddReg b, 5)]
def illegalTile (r : BitVec 7) : Option Nat := firstCode [(!regionOk r, 4)]
def illegalD (r : BitVec 6) : Bool := decide (32 ≤ r.toNat)
def illegalD3 (f : D3F) : Option Nat := firstCode [(illegalD f.x || illegalD f.b, 5)]
def illegalDot (f : DDotF) : Option Nat := firstCode [(5 ≤ f.r.toNat, 4), (illegalD f.b, 5)]
def illegalDmem (f : DMemF) : Option Nat := firstCode [(oddReg f.b, 5)]
def illegalSp (d z : Nat) : Option Nat := firstCode [(z = 3 ∧ d = 63, 5)]
def illegalBra (f : BraF) : Option Nat := firstCode [(f.n = 0 ∧ f.g = 1, 2)]
def illegalBrx (f : BraF) : Option Nat := firstCode [(f.n = 0, 2)]
def illegalMbsetRoute (f : MbsetF) : Option Nat := firstCode [(f.n ≠ 0, 3)]
def illegalVote (f : VoteF) : Option Nat :=
  firstCode [(f.o = 3, 4), (f.o ≠ 2 ∧ 8 ≤ f.d.toNat, 3), (f.o ≠ 2 ∧ f.d = 0, 5)]
def illegalUnpk (f : UnpkF) : Option Nat :=
  firstCode [(f.y = 7, 4), ((f.y.toNat < 2 ∨ f.y = 3 ∨ f.y = 4) ∧ 2 ≤ f.j.toNat, 4)]

/-- The trap code an encoded instruction takes for its fields alone (R275, R276). -/
def Instr.illegalCode (i : Instr) : Option Nat :=
  match i with
  | .powerOnReset _ => none
  | .regulatorsStarted => none
  | .regulatorFault _ => none
  | .hostPortLanesTrained => none
  | .hostLaneTrainingFailure _ => none
  | .ieee1588Lock _ => none
  | .ieee1588LockLoss => none
  | .selfTestComplete _ => none
  | .firmwareMeasurement _ => none
  | .bringupStateTimeout => none
  | .voltageSettled _ => none
  | .partitionFirmwareUpdate _ _ => none
  | .hbmChannelRetraining _ => none
  | .lodraLaneRecalibration _ _ => none
  | .hostPortLaneRecalibration _ => none
  | .spareRemap _ _ => none
  | .configStatusRead _ => none
  | .configRegisterWriteSet _ => none
  | .configRegisterRead _ => none
  | .configFirmwareLoad _ => none
  | .configRetest _ => none
  | .configReset _ => none
  | .configAttestation _ => none
  | .configQueuePair _ => none
  | .meterset _ => none
  | .contextDestroy _ => none
  | .partitionTableChange _ => none
  | .wayMaskChange _ _ => none
  | .serverTemplateChange _ _ => none
  | .lendClear _ => none
  | .hardwareQueueBind _ => none
  | .tinv _ => none
  | .traceEnable _ => none
  | .dsel _ => none
  | .dresume _ => none
  | .dclr _ => none
  | .ethernetFrame _ => none
  | .mkaFrame _ => none
  | .icmpv6Echo _ _ _ => none
  | .neighbourDiscovery _ _ => none
  | .ptpMessage _ => none
  | .rdmaWrite _ _ _ _ => none
  | .rdmaRead _ _ _ _ => none
  | .send _ _ => none
  | .roceAck _ => none
  | .roceNak _ => none
  | .retransmissionTimeout _ => none
  | .pfcPause _ _ => none
  | .setRing _ => none
  | .advanceTail _ => none
  | .resetRing _ => none
  | .resetRingComplete _ => none
  | .commandTake _ => none
  | .launch _ => none
  | .launchStart _ => none
  | .copyh _ => none
  | .lease _ => none
  | .leaseLive _ _ => none
  | .release _ => none
  | .signal _ => none
  | .waitsem _ => none
  | .waitsemTimeout _ => none
  | .edge _ => none
  | .edgeDestroyComplete _ => none
  | .route _ _ => none
  | .routeMatchTimeout _ => none
  | .routeDrainComplete _ => none
  | .recall _ => none
  | .readmeter _ => none
  | .flit _ => none
  | .requestTimeout _ => none
  | .mailboxMessage _ => none
  | .mailboxResponse _ => none
  | .mailboxRetry _ _ _ => none
  | .readLine _ => none
  | .readLineUncached _ => none
  | .writeLine _ => none
  | .maskedWrite _ => none
  | .atomicWithReturn _ => none
  | .reductionNoReturn _ => none
  | .prefetchToL2 _ => none
  | .invalidateLine _ => none
  | .zeroLine _ => none
  | .readData _ => none
  | .writeAcknowledgement _ => none
  | .atomicResult _ => none
  | .accessFault _ => none
  | .linkDataFlit _ _ => none
  | .linkIdleFlit _ _ => none
  | .replayRequest _ _ => none
  | .linkRetrain _ => none
  | .linkRetrainComplete _ _ => none
  | .linkDown _ => none
  | .linkReturn _ => none
  | .remoteRequest _ => none
  | .ack _ => none
  | .ackTimer _ => none
  | .flowTimeout _ => none
  | .freset _ => none
  | .hoist _ => none
  | .go _ => none
  | .abort _ => none
  | .withdraw _ => none
  | .hoistTimeout _ => none
  | .collectiveComplete _ _ => none
  | .serverWake _ => none
  | .arbitration _ _ => none
  | .unitEnd _ => none
  | .cappedRelease _ => none
  | .lendDelayExpiry _ => none
  | .cooperativeWindowExpiry _ => none
  | .distributorRound _ => none
  | .ageLimitReached _ => none
  | .cooperativeStop _ _ => none
  | .forcedHalt _ _ => none
  | .teamOffCore _ => none
  | .hotSpotMigration _ => none
  | .watchdogExpiry => none
  | .lateFault _ _ => none
  | .gridEnd _ => none
  | .teamComplete _ => none
  | .groupUnpark _ _ => none
  | .clauseEntry _ _ _ => none
  | .slewStepBoundary _ => none
  | .droopTrip _ => none
  | .droopSkipEnd _ => none
  | .thermalSample _ _ => none
  | .pageWalk _ _ _ => none
  | .scrubFrame _ => none
  | .scrubFrameComplete _ => none
  | .waitmemWake _ _ _ => none
  | .waitmemRecheck _ _ _ => none
  | .sleepExpiry _ _ _ => none
  | .barrierRelease _ _ => none
  | .fenceTakesEffect _ _ _ => none
  | .copyChunk _ _ => none
  | .copyComplete _ _ => none
  | .matrixQueueTurn _ _ => none
  | .directionPipeEnd _ _ => none
  | .registerAllocationRetry _ => none
  | .registerBlockGrant _ _ => none
  | .matrixBankGrant _ => none
  | .breakpointMatch _ _ _ => none
  | .traceWrittenUpdate _ => none
  | .sample _ _ => none
  | .counterSnapshot => none
  | .illegalInstruction _ => none
  | .hbmChannelRetrainingComplete _ => none
  | .lodraLaneRecalibrationComplete _ _ => none
  | .hostPortLaneRecalibrationComplete _ => none
  | .rdmaReadResponse _ _ => none
  | .pfcPauseExpiry => none
  | .voltageBackInRegulation _ => none
  | .clauseHeader f => firstCode [(f.len = 0, 6)]
  | .vadd _ => none
  | .vsub _ => none
  | .vmul _ => none
  | .vmulhS32 _ => none
  | .vmad _ => none
  | .vand _ => none
  | .vor _ => none
  | .vxor _ => none
  | .vnot _ => none
  | .vshl _ => none
  | .vshr _ => none
  | .vsar _ => none
  | .vminS32 _ => none
  | .vmaxS32 _ => none
  | .vabs _ => none
  | .vaddsS32 _ => none
  | .vsubsS32 _ => none
  | .vcmp f => illegalCmp f
  | .vsel f => illegalSel f
  | .vmov _ => none
  | .vmovMbs _ => none
  | .vmovMbg _ => none
  | .vli _ => none
  | .vbfe _ => none
  | .vbfi _ => none
  | .vclz f => illegalCnt f
  | .vctz f => illegalCnt f
  | .vffs f => illegalCnt f
  | .vpopc f => illegalCnt f
  | .vdot4S8 _ => none
  | .vaddVu _ => none
  | .vsubVu _ => none
  | .vmulVu _ => none
  | .vmulhS32Vu _ => none
  | .vmadVu _ => none
  | .vandVu _ => none
  | .vorVu _ => none
  | .vxorVu _ => none
  | .vshlVu _ => none
  | .vshrVu _ => none
  | .vsarVu _ => none
  | .vminS32Vu _ => none
  | .vmaxS32Vu _ => none
  | .vaddsS32Vu _ => none
  | .vsubsS32Vu _ => none
  | .vcmpVu f => illegalCmp f
  | .vselVu f => illegalSel f
  | .vbfeVu _ => none
  | .vbfiVu _ => none
  | .vdot4S8Vu _ => none
  | .faddF32 _ => none
  | .fsubF32 _ => none
  | .fmulF32 _ => none
  | .faccF32 _ => none
  | .fminF32 _ => none
  | .fmaxF32 _ => none
  | .fneg _ => none
  | .fabs _ => none
  | .fcmp f => illegalFcmp f
  | .fclass _ => none
  | .fscale _ => none
  | .frnd f => firstCode [(4 ≤ f.o.toNat, 4)]
  | .fdot2F16 _ => none
  | .fdot2Bf16 _ => none
  | .faddF16x2 _ => none
  | .fsubF16x2 _ => none
  | .fmulF16x2 _ => none
  | .faccF16x2 _ => none
  | .faddBf16x2 _ => none
  | .fsubBf16x2 _ => none
  | .fmulBf16x2 _ => none
  | .faccBf16x2 _ => none
  | .rcp _ => none
  | .rsq _ => none
  | .sqrt _ => none
  | .exp2 _ => none
  | .log2 _ => none
  | .sin _ => none
  | .cos _ => none
  | .tanh _ => none
  | .faddF32Vu _ => none
  | .fsubF32Vu _ => none
  | .fmulF32Vu _ => none
  | .faccF32Vu _ => none
  | .fminF32Vu _ => none
  | .fmaxF32Vu _ => none
  | .fcmpVu f => illegalFcmp f
  | .fscaleVu _ => none
  | .fdot2F16Vu _ => none
  | .fdot2Bf16Vu _ => none
  | .faddF16x2Vu _ => none
  | .fsubF16x2Vu _ => none
  | .fmulF16x2Vu _ => none
  | .faccF16x2Vu _ => none
  | .faddBf16x2Vu _ => none
  | .fsubBf16x2Vu _ => none
  | .fmulBf16x2Vu _ => none
  | .faccBf16x2Vu _ => none
  | .cvtToF32 f => firstCode [(14 ≤ f.t.toNat, 4), (cvtIndexLimit f.t.toNat ≤ f.i.toNat, 4)]
  | .cvtFromF32 f => firstCode [(5 ≤ f.o.toNat, 4)]
  | .cvtInt f => firstCode [(f.x = 7 ∨ f.y = 7, 4)]
  | .cvtF16F8 f => firstCode [(f.w = 1 ∧ f.o ≠ 0, 4)]
  | .pack2 f => firstCode [(5 ≤ f.o.toNat, 4)]
  | .pack4 f => firstCode [(5 ≤ f.o.toNat, 4)]
  | .unpk f => illegalUnpk f
  | .pk6 _ => none
  | .upk6 _ => none
  | .cbset _ => none
  | .cbenc _ => none
  | .shfl _ => none
  | .shflVu _ => none
  | .vote f => illegalVote f
  | .bcast _ => none
  | .lanei _ => none
  | .redu _ => none
  | .scan _ => none
  | .pand f => illegalPred f.d
  | .por f => illegalPred f.d
  | .pxor f => illegalPred f.d
  | .pnot f => illegalPred f.d
  | .pmov f => illegalPred f.d
  | .vmulhZ32 _ => none
  | .vminZ32 _ => none
  | .vmaxZ32 _ => none
  | .vaddsZ32 _ => none
  | .vsubsZ32 _ => none
  | .vdot4Z8 _ => none
  | .vaddI16x2 _ => none
  | .vsubI16x2 _ => none
  | .vmulI16x2 _ => none
  | .vminS16x2 _ => none
  | .vmaxS16x2 _ => none
  | .vminZ16x2 _ => none
  | .vmaxZ16x2 _ => none
  | .vaddsS16x2 _ => none
  | .vsubsS16x2 _ => none
  | .vaddsZ16x2 _ => none
  | .vsubsZ16x2 _ => none
  | .vaddI8x4 _ => none
  | .vsubI8x4 _ => none
  | .vmulI8x4 _ => none
  | .vminS8x4 _ => none
  | .vmaxS8x4 _ => none
  | .vminZ8x4 _ => none
  | .vmaxZ8x4 _ => none
  | .vaddsS8x4 _ => none
  | .vsubsS8x4 _ => none
  | .vaddsZ8x4 _ => none
  | .vsubsZ8x4 _ => none
  | .vmulhZ32Vu _ => none
  | .vminZ32Vu _ => none
  | .vmaxZ32Vu _ => none
  | .vaddsZ32Vu _ => none
  | .vsubsZ32Vu _ => none
  | .vdot4Z8Vu _ => none
  | .vaddI16x2Vu _ => none
  | .vsubI16x2Vu _ => none
  | .vmulI16x2Vu _ => none
  | .vminS16x2Vu _ => none
  | .vmaxS16x2Vu _ => none
  | .vminZ16x2Vu _ => none
  | .vmaxZ16x2Vu _ => none
  | .vaddsS16x2Vu _ => none
  | .vsubsS16x2Vu _ => none
  | .vaddsZ16x2Vu _ => none
  | .vsubsZ16x2Vu _ => none
  | .vaddI8x4Vu _ => none
  | .vsubI8x4Vu _ => none
  | .vmulI8x4Vu _ => none
  | .vminS8x4Vu _ => none
  | .vmaxS8x4Vu _ => none
  | .vminZ8x4Vu _ => none
  | .vmaxZ8x4Vu _ => none
  | .vaddsS8x4Vu _ => none
  | .vsubsS8x4Vu _ => none
  | .vaddsZ8x4Vu _ => none
  | .vsubsZ8x4Vu _ => none
  | .faddF32Rz _ => none
  | .fsubF32Rz _ => none
  | .fmulF32Rz _ => none
  | .faccF32Rz _ => none
  | .faddF32Ru _ => none
  | .fsubF32Ru _ => none
  | .fmulF32Ru _ => none
  | .faccF32Ru _ => none
  | .faddF32Rd _ => none
  | .fsubF32Rd _ => none
  | .fmulF32Rd _ => none
  | .faccF32Rd _ => none
  | .fminF16x2 _ => none
  | .fmaxF16x2 _ => none
  | .fminBf16x2 _ => none
  | .fmaxBf16x2 _ => none
  | .faddF32RzVu _ => none
  | .fsubF32RzVu _ => none
  | .fmulF32RzVu _ => none
  | .faccF32RzVu _ => none
  | .faddF32RuVu _ => none
  | .fsubF32RuVu _ => none
  | .fmulF32RuVu _ => none
  | .faccF32RuVu _ => none
  | .faddF32RdVu _ => none
  | .fsubF32RdVu _ => none
  | .fmulF32RdVu _ => none
  | .faccF32RdVu _ => none
  | .fminF16x2Vu _ => none
  | .fmaxF16x2Vu _ => none
  | .fminBf16x2Vu _ => none
  | .fmaxBf16x2Vu _ => none
  | .vaddN _ => none
  | .vsubN _ => none
  | .vmulN _ => none
  | .vandN _ => none
  | .vorN _ => none
  | .vxorN _ => none
  | .vshlN _ => none
  | .vshrN _ => none
  | .vsarN _ => none
  | .vmovN _ => none
  | .vminS32N _ => none
  | .vmaxS32N _ => none
  | .faddF32N _ => none
  | .fsubF32N _ => none
  | .fmulF32N _ => none
  | .fmaxF32N _ => none
  | .uadd f => illegalUa f
  | .usub f => illegalUa f
  | .umul f => illegalUa f
  | .umulh f => illegalUa f
  | .umad f => illegalUa f
  | .uand f => illegalUa f
  | .uor f => illegalUa f
  | .uxor f => illegalUa f
  | .ushl f => illegalUa f
  | .ushr f => illegalUa f
  | .usar f => illegalUa f
  | .umin f => illegalUa f
  | .umax f => illegalUa f
  | .ucmp f => firstCode [(10 ≤ f.c.toNat, 4), (beyondS f.a || beyondS f.b, 5)]
  | .usel f => firstCode [(beyondS f.d, 5)]
  | .umov f => illegalUun f
  | .uclz f => illegalUun f
  | .upopc f => illegalUun f
  | .ubfe f => illegalUa f
  | .uld f => illegalUaMem f
  | .ust f => illegalUaMem f
  | .uli f => illegalUi f
  | .ulih f => illegalUi f
  | .uaddi f => illegalUi f
  | .urds f => firstCode [(beyondS f.d, 5), (!urdsListed f.i.toNat, 2)]
  | .uwrs f => firstCode [(beyondS f.d, 5), (f.i ≠ 0 ∧ f.i ≠ 2, 2)]
  | .racq => none
  | .rrel => none
  | .rdpm f => firstCode [(beyondS f.d, 5), (oddReg f.d, 5)]
  | .bra f => illegalBra f
  | .brak _ => none
  | .brx f => illegalBrx f
  | .join => none
  | .call _ => none
  | .jmpi _ => none
  | .ret _ => none
  | .exit _ => none
  | .yieldd f => firstCode [(f.o = 0 ∨ 13 < f.e.toNat, 4)]
  | .waitmem _ => none
  | .sleep _ => none
  | .bar f => illegalBar f
  | .bara f => illegalBar f
  | .barw _ => none
  | .nop => none
  | .trap _ => none
  | .bkpt => none
  | .ldgReg f => illegalMem f.b.toNat f.d.toNat f.z.toNat
  | .ldgSxReg f => firstCode [(oddReg f.b, 5)]
  | .stgReg f => illegalMem f.b.toNat f.d.toNat f.z.toNat
  | .ldgImm f => illegalMem f.b.toNat f.d.toNat f.z.toNat
  | .ldgSxImm f => firstCode [(oddReg f.b, 5)]
  | .stgImm f => illegalMem f.b.toNat f.d.toNat f.z.toNat
  | .ldsp f => illegalSp f.d.toNat f.z.toNat
  | .ldspSx _ => none
  | .stsp f => illegalSp f.d.toNat f.z.toNat
  | .atom f => illegalAtom f
  | .red f => illegalRed f
  | .atsp f => illegalAtsp f
  | .pref f => firstCode [(oddReg f.b, 5)]
  | .fence f => firstCode [(f.k = 0, 4)]
  | .fwait _ => none
  | .waitc f => firstCode [(6 ≤ f.c.toNat, 4)]
  | .spmap f => firstCode [(oddReg f.b, 5)]
  | .spfill f => illegalRegion f.b f.g
  | .spwb f => illegalRegion f.b f.g
  | .spinv f => illegalRegion f.b f.g
  | .cpy f => firstCode [(oddReg f.b, 5)]
  | .chain f => firstCode [(oddReg f.b, 5)]
  | .mbsetSend _ => none
  | .mbsetRecv _ => none
  | .mbsetRoute f => illegalMbsetRoute f
  | .mbsetLocal _ => none
  | .mbpoll _ => none
  | .coll f => firstCode [(oddReg f.b, 5)]
  | .afor f => firstCode [(12 ≤ f.k.toNat ∧ f.k ≠ 15, 4)]
  | .anext _ => none
  | .aldq _ => none
  | .astq _ => none
  | .aset f => firstCode [(oddReg f.a, 5)]
  | .ainc f => firstCode [(f.f = 1 ∧ f.a ≠ 0, 3)]
  | .asig f => firstCode [(12 ≤ f.k.toNat, 4)]
  | .ahalt => none
  | .mbank => none
  | .mfree => none
  | .mzero f => illegalTile f.r
  | .mld f => firstCode [(!regionOk f.r, 4), (oddReg f.b, 5)]
  | .mst f => firstCode [(!regionOk f.r, 4), (oddReg f.b, 5)]
  | .mmask f => firstCode [(oddReg f.d, 5), (58 < f.d.toNat, 5)]
  | .mma f => firstCode [(!regionOk f.r, 4), (f.t = 7, 4)]
  | .mml f => firstCode [(!regionOk f.r, 4), (f.t = 7, 4)]
  | .msca f => illegalTile f.r
  | .mcvt f => firstCode [(!regionOk f.r, 4), (5 ≤ f.o.toNat, 4)]
  | .dld f => illegalDmem f
  | .dst f => illegalDmem f
  | .dfromv f => firstCode [(f.t = 3, 4)]
  | .dtov f => firstCode [(f.t = 3, 4), (5 ≤ f.r.toNat, 4)]
  | .dmov f => firstCode [(illegalD f.x, 5)]
  | .dadd f => illegalD3 f
  | .dsub f => illegalD3 f
  | .dmix f => firstCode [(illegalD f.x, 5)]
  | .dhad f => illegalD3 f
  | .dscl f => firstCode [(illegalD f.x, 5)]
  | .dsetn f => firstCode [(illegalD f.x, 5)]
  | .dnrm _ => none
  | .ddot f => illegalDot f
  | .ddotf f => illegalDot f
  | .dproj f => illegalD3 f
  | .drefl f => illegalD3 f
  | .dtest f => firstCode [(f.c = 3, 4)]

/-- The operands of a device step lie within the device's sizes (R9, R26, R93, R111, R194). -/
def Instr.inRange (i : Instr) : Bool :=
  match i with
  | .powerOnReset _ => true
  | .regulatorsStarted => true
  | .regulatorFault domain0 => decide (domain0 < 8)
  | .hostPortLanesTrained => true
  | .hostLaneTrainingFailure _ => true
  | .ieee1588Lock _ => true
  | .ieee1588LockLoss => true
  | .selfTestComplete _ => true
  | .firmwareMeasurement _ => true
  | .bringupStateTimeout => true
  | .voltageSettled quadrant0 => decide (quadrant0 < 4)
  | .partitionFirmwareUpdate part0 _ => decide (part0 < 48)
  | .hbmChannelRetraining channel0 => decide (channel0 < 64)
  | .lodraLaneRecalibration link0 lane0 => decide (link0 < 16 ∧ lane0 < 8)
  | .hostPortLaneRecalibration lane0 => decide (lane0 < 4)
  | .spareRemap _ unit0 => decide (unit0 < 128)
  | .configStatusRead _ => true
  | .configRegisterWriteSet _ => true
  | .configRegisterRead _ => true
  | .configFirmwareLoad _ => true
  | .configRetest _ => true
  | .configReset _ => true
  | .configAttestation _ => true
  | .configQueuePair _ => true
  | .meterset _ => true
  | .contextDestroy ctx0 => decide (ctx0 < 257)
  | .partitionTableChange part0 => decide (part0 < 48)
  | .wayMaskChange group0 _ => decide (group0 < 256)
  | .serverTemplateChange ctx0 cls0 => decide (ctx0 < 257 ∧ cls0 < 5)
  | .lendClear ctx0 => decide (ctx0 < 257)
  | .hardwareQueueBind queue0 => decide (queue0 < 64)
  | .tinv _ => true
  | .traceEnable ctx0 => decide (ctx0 < 257)
  | .dsel _ => true
  | .dresume _ => true
  | .dclr _ => true
  | .ethernetFrame _ => true
  | .mkaFrame _ => true
  | .icmpv6Echo _ _ _ => true
  | .neighbourDiscovery _ _ => true
  | .ptpMessage _ => true
  | .rdmaWrite _ _ _ _ => true
  | .rdmaRead _ _ _ _ => true
  | .send _ _ => true
  | .roceAck _ => true
  | .roceNak _ => true
  | .retransmissionTimeout _ => true
  | .pfcPause _ _ => true
  | .setRing _ => true
  | .advanceTail _ => true
  | .resetRing _ => true
  | .resetRingComplete queue0 => decide (queue0 < 64)
  | .commandTake queue0 => decide (queue0 < 64)
  | .launch _ => true
  | .launchStart _ => true
  | .copyh _ => true
  | .lease _ => true
  | .leaseLive ctx0 _ => decide (ctx0 < 257)
  | .release _ => true
  | .signal _ => true
  | .waitsem _ => true
  | .waitsemTimeout _ => true
  | .edge _ => true
  | .edgeDestroyComplete _ => true
  | .route _ _ => true
  | .routeMatchTimeout _ => true
  | .routeDrainComplete _ => true
  | .recall _ => true
  | .readmeter _ => true
  | .flit _ => true
  | .requestTimeout _ => true
  | .mailboxMessage _ => true
  | .mailboxResponse _ => true
  | .mailboxRetry core0 slot0 n0 => decide (core0 < 256 ∧ slot0 < 64 ∧ n0 < 4)
  | .readLine _ => true
  | .readLineUncached _ => true
  | .writeLine _ => true
  | .maskedWrite _ => true
  | .atomicWithReturn _ => true
  | .reductionNoReturn _ => true
  | .prefetchToL2 _ => true
  | .invalidateLine _ => true
  | .zeroLine _ => true
  | .readData _ => true
  | .writeAcknowledgement _ => true
  | .atomicResult _ => true
  | .accessFault _ => true
  | .linkDataFlit link0 _ => decide (link0 < 16)
  | .linkIdleFlit link0 _ => decide (link0 < 16)
  | .replayRequest link0 _ => decide (link0 < 16)
  | .linkRetrain link0 => decide (link0 < 16)
  | .linkRetrainComplete link0 _ => decide (link0 < 16)
  | .linkDown link0 => decide (link0 < 16)
  | .linkReturn link0 => decide (link0 < 16)
  | .remoteRequest _ => true
  | .ack _ => true
  | .ackTimer _ => true
  | .flowTimeout _ => true
  | .freset _ => true
  | .hoist _ => true
  | .go _ => true
  | .abort _ => true
  | .withdraw _ => true
  | .hoistTimeout _ => true
  | .collectiveComplete _ _ => true
  | .serverWake _ => true
  | .arbitration cls0 _ => decide (cls0 < 5)
  | .unitEnd _ => true
  | .cappedRelease _ => true
  | .lendDelayExpiry cluster0 => decide (cluster0 < 128)
  | .cooperativeWindowExpiry _ => true
  | .distributorRound part0 => decide (part0 < 48)
  | .ageLimitReached queue0 => decide (queue0 < 64)
  | .cooperativeStop core0 slot0 => decide (core0 < 256 ∧ slot0 < 64)
  | .forcedHalt _ _ => true
  | .teamOffCore _ => true
  | .hotSpotMigration core0 => decide (core0 < 256)
  | .watchdogExpiry => true
  | .lateFault core0 slot0 => decide (core0 < 256 ∧ slot0 < 64)
  | .gridEnd _ => true
  | .teamComplete _ => true
  | .groupUnpark core0 slot0 => decide (core0 < 256 ∧ slot0 < 64)
  | .clauseEntry core0 slot0 path0 => decide (core0 < 256 ∧ slot0 < 64 ∧ path0 < 8)
  | .slewStepBoundary part0 => decide (part0 < 48)
  | .droopTrip unit0 => decide (unit0 < 64)
  | .droopSkipEnd part0 => decide (part0 < 48)
  | .thermalSample quadrant0 _ => decide (quadrant0 < 4)
  | .pageWalk core0 ctx0 _ => decide (core0 < 256 ∧ ctx0 < 257)
  | .scrubFrame part0 => decide (part0 < 48)
  | .scrubFrameComplete part0 => decide (part0 < 48)
  | .waitmemWake core0 slot0 path0 => decide (core0 < 256 ∧ slot0 < 64 ∧ path0 < 8)
  | .waitmemRecheck core0 slot0 path0 => decide (core0 < 256 ∧ slot0 < 64 ∧ path0 < 8)
  | .sleepExpiry core0 slot0 path0 => decide (core0 < 256 ∧ slot0 < 64 ∧ path0 < 8)
  | .barrierRelease _ bar0 => decide (bar0 < 16)
  | .fenceTakesEffect core0 slot0 token0 => decide (core0 < 256 ∧ slot0 < 64 ∧ token0 < 8)
  | .copyChunk core0 slot0 => decide (core0 < 256 ∧ slot0 < 48)
  | .copyComplete core0 slot0 => decide (core0 < 256 ∧ slot0 < 48)
  | .matrixQueueTurn core0 bank0 => decide (core0 < 256 ∧ bank0 < 2)
  | .directionPipeEnd core0 slot0 => decide (core0 < 256 ∧ slot0 < 64)
  | .registerAllocationRetry core0 => decide (core0 < 256)
  | .registerBlockGrant core0 slot0 => decide (core0 < 256 ∧ slot0 < 64)
  | .matrixBankGrant core0 => decide (core0 < 256)
  | .breakpointMatch core0 slot0 path0 => decide (core0 < 256 ∧ slot0 < 64 ∧ path0 < 8)
  | .traceWrittenUpdate ctx0 => decide (ctx0 < 257)
  | .sample core0 quarter0 => decide (core0 < 256 ∧ quarter0 < 4)
  | .counterSnapshot => true
  | .illegalInstruction _ => true
  | .hbmChannelRetrainingComplete channel0 => decide (channel0 < 64)
  | .lodraLaneRecalibrationComplete link0 lane0 => decide (link0 < 16 ∧ lane0 < 8)
  | .hostPortLaneRecalibrationComplete lane0 => decide (lane0 < 4)
  | .rdmaReadResponse _ _ => true
  | .pfcPauseExpiry => true
  | .voltageBackInRegulation domain0 => decide (domain0 < 8)
  | .clauseHeader _ => true
  | .vadd _ => true
  | .vsub _ => true
  | .vmul _ => true
  | .vmulhS32 _ => true
  | .vmad _ => true
  | .vand _ => true
  | .vor _ => true
  | .vxor _ => true
  | .vnot _ => true
  | .vshl _ => true
  | .vshr _ => true
  | .vsar _ => true
  | .vminS32 _ => true
  | .vmaxS32 _ => true
  | .vabs _ => true
  | .vaddsS32 _ => true
  | .vsubsS32 _ => true
  | .vcmp _ => true
  | .vsel _ => true
  | .vmov _ => true
  | .vmovMbs _ => true
  | .vmovMbg _ => true
  | .vli _ => true
  | .vbfe _ => true
  | .vbfi _ => true
  | .vclz _ => true
  | .vctz _ => true
  | .vffs _ => true
  | .vpopc _ => true
  | .vdot4S8 _ => true
  | .vaddVu _ => true
  | .vsubVu _ => true
  | .vmulVu _ => true
  | .vmulhS32Vu _ => true
  | .vmadVu _ => true
  | .vandVu _ => true
  | .vorVu _ => true
  | .vxorVu _ => true
  | .vshlVu _ => true
  | .vshrVu _ => true
  | .vsarVu _ => true
  | .vminS32Vu _ => true
  | .vmaxS32Vu _ => true
  | .vaddsS32Vu _ => true
  | .vsubsS32Vu _ => true
  | .vcmpVu _ => true
  | .vselVu _ => true
  | .vbfeVu _ => true
  | .vbfiVu _ => true
  | .vdot4S8Vu _ => true
  | .faddF32 _ => true
  | .fsubF32 _ => true
  | .fmulF32 _ => true
  | .faccF32 _ => true
  | .fminF32 _ => true
  | .fmaxF32 _ => true
  | .fneg _ => true
  | .fabs _ => true
  | .fcmp _ => true
  | .fclass _ => true
  | .fscale _ => true
  | .frnd _ => true
  | .fdot2F16 _ => true
  | .fdot2Bf16 _ => true
  | .faddF16x2 _ => true
  | .fsubF16x2 _ => true
  | .fmulF16x2 _ => true
  | .faccF16x2 _ => true
  | .faddBf16x2 _ => true
  | .fsubBf16x2 _ => true
  | .fmulBf16x2 _ => true
  | .faccBf16x2 _ => true
  | .rcp _ => true
  | .rsq _ => true
  | .sqrt _ => true
  | .exp2 _ => true
  | .log2 _ => true
  | .sin _ => true
  | .cos _ => true
  | .tanh _ => true
  | .faddF32Vu _ => true
  | .fsubF32Vu _ => true
  | .fmulF32Vu _ => true
  | .faccF32Vu _ => true
  | .fminF32Vu _ => true
  | .fmaxF32Vu _ => true
  | .fcmpVu _ => true
  | .fscaleVu _ => true
  | .fdot2F16Vu _ => true
  | .fdot2Bf16Vu _ => true
  | .faddF16x2Vu _ => true
  | .fsubF16x2Vu _ => true
  | .fmulF16x2Vu _ => true
  | .faccF16x2Vu _ => true
  | .faddBf16x2Vu _ => true
  | .fsubBf16x2Vu _ => true
  | .fmulBf16x2Vu _ => true
  | .faccBf16x2Vu _ => true
  | .cvtToF32 _ => true
  | .cvtFromF32 _ => true
  | .cvtInt _ => true
  | .cvtF16F8 _ => true
  | .pack2 _ => true
  | .pack4 _ => true
  | .unpk _ => true
  | .pk6 _ => true
  | .upk6 _ => true
  | .cbset _ => true
  | .cbenc _ => true
  | .shfl _ => true
  | .shflVu _ => true
  | .vote _ => true
  | .bcast _ => true
  | .lanei _ => true
  | .redu _ => true
  | .scan _ => true
  | .pand _ => true
  | .por _ => true
  | .pxor _ => true
  | .pnot _ => true
  | .pmov _ => true
  | .vmulhZ32 _ => true
  | .vminZ32 _ => true
  | .vmaxZ32 _ => true
  | .vaddsZ32 _ => true
  | .vsubsZ32 _ => true
  | .vdot4Z8 _ => true
  | .vaddI16x2 _ => true
  | .vsubI16x2 _ => true
  | .vmulI16x2 _ => true
  | .vminS16x2 _ => true
  | .vmaxS16x2 _ => true
  | .vminZ16x2 _ => true
  | .vmaxZ16x2 _ => true
  | .vaddsS16x2 _ => true
  | .vsubsS16x2 _ => true
  | .vaddsZ16x2 _ => true
  | .vsubsZ16x2 _ => true
  | .vaddI8x4 _ => true
  | .vsubI8x4 _ => true
  | .vmulI8x4 _ => true
  | .vminS8x4 _ => true
  | .vmaxS8x4 _ => true
  | .vminZ8x4 _ => true
  | .vmaxZ8x4 _ => true
  | .vaddsS8x4 _ => true
  | .vsubsS8x4 _ => true
  | .vaddsZ8x4 _ => true
  | .vsubsZ8x4 _ => true
  | .vmulhZ32Vu _ => true
  | .vminZ32Vu _ => true
  | .vmaxZ32Vu _ => true
  | .vaddsZ32Vu _ => true
  | .vsubsZ32Vu _ => true
  | .vdot4Z8Vu _ => true
  | .vaddI16x2Vu _ => true
  | .vsubI16x2Vu _ => true
  | .vmulI16x2Vu _ => true
  | .vminS16x2Vu _ => true
  | .vmaxS16x2Vu _ => true
  | .vminZ16x2Vu _ => true
  | .vmaxZ16x2Vu _ => true
  | .vaddsS16x2Vu _ => true
  | .vsubsS16x2Vu _ => true
  | .vaddsZ16x2Vu _ => true
  | .vsubsZ16x2Vu _ => true
  | .vaddI8x4Vu _ => true
  | .vsubI8x4Vu _ => true
  | .vmulI8x4Vu _ => true
  | .vminS8x4Vu _ => true
  | .vmaxS8x4Vu _ => true
  | .vminZ8x4Vu _ => true
  | .vmaxZ8x4Vu _ => true
  | .vaddsS8x4Vu _ => true
  | .vsubsS8x4Vu _ => true
  | .vaddsZ8x4Vu _ => true
  | .vsubsZ8x4Vu _ => true
  | .faddF32Rz _ => true
  | .fsubF32Rz _ => true
  | .fmulF32Rz _ => true
  | .faccF32Rz _ => true
  | .faddF32Ru _ => true
  | .fsubF32Ru _ => true
  | .fmulF32Ru _ => true
  | .faccF32Ru _ => true
  | .faddF32Rd _ => true
  | .fsubF32Rd _ => true
  | .fmulF32Rd _ => true
  | .faccF32Rd _ => true
  | .fminF16x2 _ => true
  | .fmaxF16x2 _ => true
  | .fminBf16x2 _ => true
  | .fmaxBf16x2 _ => true
  | .faddF32RzVu _ => true
  | .fsubF32RzVu _ => true
  | .fmulF32RzVu _ => true
  | .faccF32RzVu _ => true
  | .faddF32RuVu _ => true
  | .fsubF32RuVu _ => true
  | .fmulF32RuVu _ => true
  | .faccF32RuVu _ => true
  | .faddF32RdVu _ => true
  | .fsubF32RdVu _ => true
  | .fmulF32RdVu _ => true
  | .faccF32RdVu _ => true
  | .fminF16x2Vu _ => true
  | .fmaxF16x2Vu _ => true
  | .fminBf16x2Vu _ => true
  | .fmaxBf16x2Vu _ => true
  | .vaddN _ => true
  | .vsubN _ => true
  | .vmulN _ => true
  | .vandN _ => true
  | .vorN _ => true
  | .vxorN _ => true
  | .vshlN _ => true
  | .vshrN _ => true
  | .vsarN _ => true
  | .vmovN _ => true
  | .vminS32N _ => true
  | .vmaxS32N _ => true
  | .faddF32N _ => true
  | .fsubF32N _ => true
  | .fmulF32N _ => true
  | .fmaxF32N _ => true
  | .uadd _ => true
  | .usub _ => true
  | .umul _ => true
  | .umulh _ => true
  | .umad _ => true
  | .uand _ => true
  | .uor _ => true
  | .uxor _ => true
  | .ushl _ => true
  | .ushr _ => true
  | .usar _ => true
  | .umin _ => true
  | .umax _ => true
  | .ucmp _ => true
  | .usel _ => true
  | .umov _ => true
  | .uclz _ => true
  | .upopc _ => true
  | .ubfe _ => true
  | .uld _ => true
  | .ust _ => true
  | .uli _ => true
  | .ulih _ => true
  | .uaddi _ => true
  | .urds _ => true
  | .uwrs _ => true
  | .racq => true
  | .rrel => true
  | .rdpm _ => true
  | .bra _ => true
  | .brak _ => true
  | .brx _ => true
  | .join => true
  | .call _ => true
  | .jmpi _ => true
  | .ret _ => true
  | .exit _ => true
  | .yieldd _ => true
  | .waitmem _ => true
  | .sleep _ => true
  | .bar _ => true
  | .bara _ => true
  | .barw _ => true
  | .nop => true
  | .trap _ => true
  | .bkpt => true
  | .ldgReg _ => true
  | .ldgSxReg _ => true
  | .stgReg _ => true
  | .ldgImm _ => true
  | .ldgSxImm _ => true
  | .stgImm _ => true
  | .ldsp _ => true
  | .ldspSx _ => true
  | .stsp _ => true
  | .atom _ => true
  | .red _ => true
  | .atsp _ => true
  | .pref _ => true
  | .fence _ => true
  | .fwait _ => true
  | .waitc _ => true
  | .spmap _ => true
  | .spfill _ => true
  | .spwb _ => true
  | .spinv _ => true
  | .cpy _ => true
  | .chain _ => true
  | .mbsetSend _ => true
  | .mbsetRecv _ => true
  | .mbsetRoute _ => true
  | .mbsetLocal _ => true
  | .mbpoll _ => true
  | .coll _ => true
  | .afor _ => true
  | .anext _ => true
  | .aldq _ => true
  | .astq _ => true
  | .aset _ => true
  | .ainc _ => true
  | .asig _ => true
  | .ahalt => true
  | .mbank => true
  | .mfree => true
  | .mzero _ => true
  | .mld _ => true
  | .mst _ => true
  | .mmask _ => true
  | .mma _ => true
  | .mml _ => true
  | .msca _ => true
  | .mcvt _ => true
  | .dld _ => true
  | .dst _ => true
  | .dfromv _ => true
  | .dtov _ => true
  | .dmov _ => true
  | .dadd _ => true
  | .dsub _ => true
  | .dmix _ => true
  | .dhad _ => true
  | .dscl _ => true
  | .dsetn _ => true
  | .dnrm _ => true
  | .ddot _ => true
  | .ddotf _ => true
  | .dproj _ => true
  | .drefl _ => true
  | .dtest _ => true

/-- A well-formed instruction: no field of it traps by itself, and a step's operands are in range. -/
def Instr.wf (i : Instr) : Bool := i.illegalCode.isNone && i.inRange

end Sys2Proof
end

