-- ==== Sys2Proof/Machine/Operands.lean ====
section
/-! DEFINITION. Operand forms: V sources and destinations with their checks, interlocks and queues
(R196, R199, R215, R305 to R310), the uniform operand, and the issue of a lane instruction with its
result-table lookup (R208 to R210). -/

namespace Sys2Proof.Machine

/-! ## Checks (R199, R275 code 5, R309, R310) -/

/-- The fault of naming V register n: code 5 beyond the declaration, class 2 for an extended register
not acquired. -/
def vregFault (g : Group) (d : Desc) (n : Nat) : Option (Nat × Nat) :=
  if d.vbase + d.vext ≤ n then some (1, 5)
  else if d.vbase ≤ n ∧ ¬ g.gsrBit 3 then some (2, 0)
  else none

/-- The fault of a V field that may name a queue (R309). -/
def vfieldFault (g : Group) (d : Desc) (f : Nat) : Option (Nat × Nat) :=
  match queueOf d.qmask f with
  | some q => if d.qmask / 2 ^ q % 2 = 1 then none else some (1, 5)
  | none => vregFault g d f

/-- The fault of one register of a run, which may not name a queue (R310). -/
def vrunFault (g : Group) (d : Desc) (n : Nat) : Option (Nat × Nat) :=
  if (queueOf d.qmask n).isSome ∨ 64 ≤ n then some (1, 5) else vregFault g d n

/-- The first of several faults: an illegal instruction before an extended register. -/
def firstFault (fs : List (Option (Nat × Nat))) : Option (Nat × Nat) :=
  if fs.contains (some (1, 5)) then some (1, 5) else if fs.contains (some (2, 0)) then some (2, 0) else none

/-- The registers of a run. -/
def runRegs (r : Nat × Nat) : List Nat := (List.range r.2).map fun i => r.1 + i

/-! ## Interlocks (R196, R338, R372, R214) -/

/-- The V registers that an atomic's old value goes to (R340). -/
def atomRegs (d op : Nat) : List Nat := if op = 1 ∨ op = 12 ∨ op = 14 then [d, d + 1] else [d]

/-- The V registers an operation in flight still has to write. -/
def OpKind.vdests : OpKind → List Nat
  | .load d f | .ldsp d f => if f = 3 then [d, d + 1] else [d]
  | .atom d op | .atsp d op => atomRegs d op
  | _ => []

/-- The S register an operation in flight still has to write. -/
def OpKind.sdest : OpKind → Option Nat
  | .uload d => some d
  | _ => none

/-- The n of a region code: 16, 32 or 64 (R268). -/
def regionN (r : Nat) : Nat := if r < 64 then 16 else if r < 80 then 32 else 64

/-- Image bits of n × n elements of a matrix type; 7 is FP32 (R372). -/
def typeBits (ty : Nat) : Nat := if ty = 7 then 32 else if ty = 6 then 6 else if ty < 2 then 16 else 8

/-- Registers that an MCVT writes (R372). -/
def mcvtCount (w n ty : Nat) : Nat := ceilDiv (n * n * typeBits ty) (32 * w)

/-- The bank that a team holds on a core. -/
def State.bankOf (s : State) (core team : Nat) : Option (Nat × Bank) :=
  (s.core core).banks.find? fun (_, b) => b.team == some team

/-- Whether an operation belongs to a group. -/
def Op.ofGroup (o : Op) (core slot : Nat) (g : Group) : Bool := o.core == core && o.slot == slot && o.gen == g.gen

/-- Whether an MCVT of the group still has to write V register n (R372). -/
def IssueCtx.cvtPending (x : IssueCtx) (n : Nat) : Bool :=
  (x.s.core x.c.core).banks.any fun (_, b) => b.q.any fun m => m.kind == .cvt && m.slot == x.c.slot && m.gen == x.g.gen &&
    m.d ≤ n && n < m.d + mcvtCount x.w (regionN m.region) m.ty

/-- Whether a write of V register n by an older instruction of the group is still to come. -/
def IssueCtx.vPending (x : IssueCtx) (n : Nat) : Bool :=
  (x.s.ops.any fun (_, o) => o.ofGroup x.c.core x.c.slot x.g && o.kind.vdests.contains n) || x.cvtPending n

/-- Whether a load of S register n is in flight (R300). -/
def IssueCtx.sPending (x : IssueCtx) (n : Nat) : Bool :=
  x.s.ops.any fun (_, o) => o.ofGroup x.c.core x.c.slot x.g && o.kind.sdest == some n

/-- Whether a component write of D register n that comes before the path's next instruction in program order is in its pipe: one
of its own, of the path that it split from, or of one that it has joined (R177, R214). -/
def IssueCtx.dPending (x : IssueCtx) (n : Nat) : Bool :=
  x.g.dpipe.any fun w => w.d == n && x.p.past.contains w.id

/-- The first register of a list whose write is pending. -/
def IssueCtx.vWait (x : IssueCtx) (ns : List Nat) : Option Await := (ns.find? x.vPending).map .vreg
def IssueCtx.cvtWait (x : IssueCtx) (ns : List Nat) : Option Await := (ns.find? x.cvtPending).map .cvt
def IssueCtx.sWait (x : IssueCtx) (ns : List Nat) : Option Await := (ns.find? x.sPending).map .sreg
def IssueCtx.dWait (x : IssueCtx) (ns : List Nat) : Option Await := (ns.find? x.dPending).map .dreg

/-- The first wait of a list. -/
def firstWait : List (Option Await) → Option Await
  | [] => none
  | some a :: _ => some a
  | none :: as => firstWait as

/-! ## V operands that may be queues (R215, R309) -/

/-- The queues that fields name, each once. -/
def queuesOf (d : Desc) (fs : List Nat) : List Nat := (fs.filterMap (queueOf d.qmask)).eraseDups

/-- The registers that fields name. -/
def plainRegs (d : Desc) (fs : List Nat) : List Nat := fs.filter fun f => (queueOf d.qmask f).isNone

/-- The value of a V source field: the register, or the entry at the queue's head. -/
def IssueCtx.vsrc (x : IssueCtx) (f : Nat) : VReg :=
  match queueOf x.d.qmask f with
  | some q => (x.g.queue q).front x.d.qdepth
  | none => x.g.vreg f

/-- The prior value of a V destination field: the register, or what the entry's slot holds. -/
def IssueCtx.vold (x : IssueCtx) (f : Nat) : VReg :=
  match queueOf x.d.qmask f with
  | some q => let u := x.g.queue q; u.slots.get 0 (u.tail % x.d.qdepth)
  | none => x.g.vreg f

/-- The wait of an empty source queue (R215). -/
def IssueCtx.popWait (x : IssueCtx) (fs : List Nat) : Option Await :=
  ((queuesOf x.d fs).find? fun q => (x.g.queue q).len = 0).map fun q => .qData q 1

/-- The wait of a full destination queue (R215). -/
def IssueCtx.pushWait (x : IssueCtx) (fs : List Nat) : Option Await :=
  ((queuesOf x.d fs).find? fun q => ¬ (x.g.queue q).room x.d.qdepth).map .qRoom

/-- Pop one entry from each queue that source fields name (R309). -/
def State.popQueues (s : State) (x : IssueCtx) (fs : List Nat) : State :=
  (queuesOf x.d fs).foldl (fun s q => s.updGroup x.c.core x.c.slot fun g => g.setQueue q (g.queue q).pop) s

/-- The mapping entry of a V source field; 0 for a queue. -/
def IssueCtx.vname (x : IssueCtx) (f : Nat) : BitVec 14 :=
  if (queueOf x.d.qmask f).isSome then 0 else x.g.vname.get 0 f

/-! ## Lane instructions -/

/-- A lane instruction: its V sources, its runs, its destination field, whether it reads that, its mask
and its uniform operand; `opw` is the key word of an eligible one (R209). -/
structure LaneOp where
  opw : Option W32 := none
  srcs : List Nat := []
  runs : List (Nat × Nat) := []
  dst : Nat
  rmw : Bool := false
  mask : W64
  uval : W64 := 0
  xr : Bool := false
  mm : Bool := false
  /-- the new value of a lane -/
  lane : Nat → W32

/-- The checks of a lane instruction. -/
def IssueCtx.laneFault (x : IssueCtx) (srcs : List Nat) (runs : List (Nat × Nat)) (dsts : List Nat) : Option (Nat × Nat) :=
  firstFault ((srcs ++ dsts).map (vfieldFault x.g x.d) ++ (runs.flatMap runRegs).map (vrunFault x.g x.d))

/-- What a lane instruction waits for before it can issue: its sources, and an MCVT that writes its destination (R196, R372). -/
def IssueCtx.laneWait (x : IssueCtx) (srcs : List Nat) (runs : List (Nat × Nat)) (dsts : List Nat) : Option Await :=
  firstWait [x.vWait (plainRegs x.d srcs ++ runs.flatMap runRegs), x.cvtWait (plainRegs x.d dsts), x.popWait srcs, x.pushWait dsts]

/-- The result-table key of a lane instruction (R208). One that reads its destination keys it as its third source (R313). -/
def IssueCtx.laneKey (x : IssueCtx) (o : LaneOp) (w : W32) : RtEntry :=
  let names := o.srcs.map x.vname ++ (o.runs.flatMap runRegs).map x.vname
  let full := o.mask == fullMask x.w
  { set := 0, ctx := x.g.ctx, opw := w, wc := x.g.wc, srca := names[0]?.getD 0, srcb := names[1]?.getD 0
    srcc := if o.rmw then x.vname o.dst else names[2]?.getD 0, uval := o.uval, wmask := if full then BitVec.allOnes 64 else o.mask
    prior := if full then 0 else x.vname o.dst, grid := 0, val := 0, xr := o.xr, mm := o.mm, load := false
    sp := none, epoch := 0, pages := [], used := 0 }

/-- Whether an instruction may use the result table (R209). -/
def IssueCtx.eligible (x : IssueCtx) (fs : List Nat) : Bool := !x.g.gsrBit 2 && (queuesOf x.d fs).isEmpty

/-- Whether an eligible instruction looks up the table: one that writes fewer than W lanes of V register d does so only if no older
write to d is in flight (R308). -/
def IssueCtx.looksUp (x : IssueCtx) (d : Nat) (mask : W64) : Bool := mask == fullMask x.w || !x.vPending d

/-- A younger instruction writes lanes of V register d: an operation of its group that is in flight no longer writes them, and its
result enters no table (R308). -/
def State.supersede (s : State) (core slot d : Nat) (mask : W64) : State :=
  match s.group? core slot with
  | none => s
  | some g => { s with ops := s.ops.map fun (i, (o : Op)) =>
      (i, if o.ofGroup core slot g && o.kind.vdests.contains d then { o with skip := o.skip ++ [(d, mask)], key := none } else o) }

/-- The lanes of V register d that younger instructions have written. -/
def Op.skipOf (o : Op) (d : Nat) : W64 := o.skip.foldl (fun m e => if e.1 = d then m ||| e.2 else m) 0

/-- Map V register d to the value of a table entry (R210). -/
def State.mapHit (s : State) (core slot d : Nat) (t : RtEntry) : State :=
  match s.group? core slot, mapKey t.wc t.val with
  | some g, some k =>
    match (s.core core).pvrs.find k with
    | none => s
    | some p =>
      let old := g.vname.get 0 d
      let g := { g with v := SMap.set 0 g.v d p.val, vname := SMap.set 0 g.vname d t.val }
      let g := if t.xr then g.setGsr 4 else g
      let g := if t.mm then g.setGsr 5 else g
      (s.updCore core fun c =>
        ({ c with groups := c.groups.put slot g, pvrs := c.pvrs.put k (p.hold s.stamp)
                  rt := mapIf (fun u => u.sameKey t) (fun u => { u with used := s.stamp }) c.rt }).release g.wc old).bump
  | _, _ => s

/-- Set GSR.XR and GSR.MM as an instruction found them (R200, R330). -/
def State.setXrMm (s : State) (core slot : Nat) (xr mm : Bool) : State :=
  s.updGroup core slot fun g =>
    let g := if xr then g.setGsr 4 else g
    if mm then g.setGsr 5 else g

/-- Retire as a hit: the destination maps to the entry's value (R210). -/
def IssueCtx.hitAct (x : IssueCtx) (s : State) (d : Nat) (mask : W64) (t : RtEntry) : Act :=
  .hit (((s.own x.c.core x.g.ctx 3 1).mapHit x.c.core x.c.slot d t).supersede x.c.core x.c.slot d mask)

/-- Write lanes of V register d; nothing where the write must stall (R203, R305, R308). -/
def IssueCtx.writeReg (x : IssueCtx) (s : State) (d : Nat) (mask : W64) (f : Nat → W32) (ins : Option RtEntry) : Option State :=
  (s.writeV x.c.core x.c.slot d (VReg.merge x.w mask f (x.g.vreg d)) ins).map fun r => r.1.supersede x.c.core x.c.slot d mask

/-- Write a lane result to its destination field: pops, then a placed register image (R203, R305) or a
pushed entry (R309). `ins` is the key to insert with the result. -/
def IssueCtx.writeDst (x : IssueCtx) (s : State) (srcs : List Nat) (dst : Nat) (mask : W64) (f : Nat → W32)
    (ins : Option RtEntry) : Option State :=
  let s := s.popQueues x srcs
  match queueOf x.d.qmask dst with
  | some q =>
    some (s.updGroup x.c.core x.c.slot fun g =>
      g.setQueue q ((g.queue q).push x.d.qdepth x.w mask (VReg.ofFn x.w f)))
  | none => x.writeReg s dst mask f ins

/-- The issue of a lane instruction. -/
def IssueCtx.laneAct (x : IssueCtx) (o : LaneOp) : Act :=
  match x.laneFault o.srcs o.runs [o.dst] with
  | some (cls, det) => .trap cls 0 det
  | none =>
    match x.laneWait o.srcs o.runs [o.dst] with
    | some a => .park a
    | none =>
      let elig := o.opw.isSome && x.eligible (o.srcs ++ [o.dst])
      let key := x.laneKey o (o.opw.getD 0)
      let look := elig && x.looksUp o.dst o.mask
      let s := if look then x.s.own x.c.core x.g.ctx 2 1 else x.s
      match if look then (x.s.core x.c.core).lookup key else none with
      | some t => x.hitAct s o.dst o.mask t
      | none =>
        match x.writeDst (s.setXrMm x.c.core x.c.slot o.xr o.mm) o.srcs o.dst o.mask o.lane (if elig then some key else none) with
        | some s => .done s
        | none => .park .place

/-- The issue of an instruction whose result is a predicate (R305): written lanes take the new bits. -/
def IssueCtx.predAct (x : IssueCtx) (srcs : List Nat) (pd : Nat) (mask : W64) (mm : Bool) (f : Nat → Bool) : Act :=
  match x.laneFault srcs [] [] with
  | some (cls, det) => .trap cls 0 det
  | none =>
    match x.laneWait srcs [] [] with
    | some a => .park a
    | none =>
      let m := laneMask x.w f
      .done (((x.s.popQueues x srcs).setXrMm x.c.core x.c.slot false mm).updGroup x.c.core x.c.slot fun g =>
        g.setP pd ((g.p.get 0 pd &&& ~~~mask) ||| (m &&& mask)))

/-- A lane instruction of W lanes as an issue. -/
def laneIssue (s : State) (code : Option Nat) (sp : BitVec 1) (body : IssueCtx → Act) : Host.Outcome State Fault Refusal :=
  issue s code (fun g => { sp := sp == 1, beats := beatsOf g }) body

/-- A load, a store or an atomic of W lanes as an issue: it holds the port as long, and draws its current within the quarter's
standing quantum (R141, R336). -/
def moveIssue (s : State) (code : Option Nat) (sp : BitVec 1) (body : IssueCtx → Act) : Host.Outcome State Fault Refusal :=
  issue s code (fun g => { sp := sp == 1, beats := beatsOf g, moves := true }) body

/-! ## The common shapes -/

/-- The VA form `D := f a b` on written lanes (R305, R312): an eligible lane instruction. -/
def vaOp (s : State) (code : Option Nat) (word : Nat) (f : VA) (op : W32 → W32 → W32) : Host.Outcome State Fault Refusal :=
  laneIssue s code f.sp fun x =>
    let a := x.vsrc f.a.toNat
    let b := x.vsrc f.b.toNat
    x.laneAct { opw := some (BitVec.ofNat 32 word), srcs := [f.a.toNat, f.b.toNat], dst := f.d.toNat
                mask := x.g.written x.p f.pred.toNat, lane := fun l => op (a.lane l) (b.lane l) }

/-- The VU form: every lane reads the S register's value as b (R306). -/
def vuOp (s : State) (code : Option Nat) (word : Nat) (f : VA) (op : W32 → W32 → W32) : Host.Outcome State Fault Refusal :=
  laneIssue s code f.sp fun x =>
    match x.sWait [f.b.toNat] with
    | some w => .park w
    | none =>
      let a := x.vsrc f.a.toNat
      let b := x.g.sreg f.b.toNat
      x.laneAct { opw := some (BitVec.ofNat 32 word), srcs := [f.a.toNat], dst := f.d.toNat
                  uval := b.setWidth 64, mask := x.g.written x.p f.pred.toNat, lane := fun l => op (a.lane l) b }

/-- The VA form that also reads its destination: `D := f a b d` (VMAD, FACC, VBFI, VDOT4, FDOT2). -/
def va3Op (s : State) (code : Option Nat) (word : Nat) (f : VA) (op : W32 → W32 → W32 → W32) :
    Host.Outcome State Fault Refusal :=
  laneIssue s code f.sp fun x =>
    let a := x.vsrc f.a.toNat
    let b := x.vsrc f.b.toNat
    let d := x.vold f.d.toNat
    x.laneAct { opw := some (BitVec.ofNat 32 word), srcs := [f.a.toNat, f.b.toNat], dst := f.d.toNat, rmw := true
                mask := x.g.written x.p f.pred.toNat, lane := fun l => op (a.lane l) (b.lane l) (d.lane l) }

/-- Its VU form. -/
def vu3Op (s : State) (code : Option Nat) (word : Nat) (f : VA) (op : W32 → W32 → W32 → W32) :
    Host.Outcome State Fault Refusal :=
  laneIssue s code f.sp fun x =>
    match x.sWait [f.b.toNat] with
    | some w => .park w
    | none =>
      let a := x.vsrc f.a.toNat
      let b := x.g.sreg f.b.toNat
      let d := x.vold f.d.toNat
      x.laneAct { opw := some (BitVec.ofNat 32 word), srcs := [f.a.toNat], dst := f.d.toNat, rmw := true
                  uval := b.setWidth 64, mask := x.g.written x.p f.pred.toNat
                  lane := fun l => op (a.lane l) b (d.lane l) }

/-- The unary form `D := f a` (R312, R318, R321). -/
def unOp (s : State) (code : Option Nat) (word : Nat) (f : VUn) (op : W32 → W32) : Host.Outcome State Fault Refusal :=
  laneIssue s code f.sp fun x =>
    let a := x.vsrc f.a.toNat
    x.laneAct { opw := some (BitVec.ofNat 32 word), srcs := [f.a.toNat], dst := f.d.toNat
                mask := x.g.written x.p f.pred.toNat, lane := fun l => op (a.lane l) }

/-- The 16-bit form `D := D op A` (R271): exactly its 32-bit form with B = A, except that its D names no
queue (R309). -/
def nOp (s : State) (code : Option Nat) (word : Nat) (f : NF) (unary : Bool) (op : W32 → W32 → W32) :
    Host.Outcome State Fault Refusal :=
  issue s code (fun g => { size := 2, beats := beatsOf g }) fun x =>
    if x.d.vbase + x.d.vext ≤ f.d.toNat then .trap 1 0 5
    else
      let d := x.g.vreg f.d.toNat
      let a := x.g.vreg f.a.toNat
      x.laneAct { opw := some (BitVec.ofNat 32 word), srcs := if unary then [f.a.toNat] else [f.d.toNat, f.a.toNat]
                  dst := f.d.toNat, mask := x.p.mask, lane := fun l => op (d.lane l) (a.lane l) }

end Sys2Proof.Machine
end

