-- ==== Sys2Proof/Machine/Flags.lean ====
section
/-! DEFINITION. Conditions and the flags computed from results: integer comparisons (R299, R315),
saturation (R234, R312, R316), and the member-mask and lane-range conditions that set GSR.MM and GSR.XR
(R330). The comparison of floats stands with the formats in `Float.lean`. -/

namespace Sys2Proof.Machine

/-- Comparison codes of VCMP (R315): eq, ne, lt.s, le.s, lt.z, le.z. -/
def ccInt (cc : Nat) (a b : W32) : Bool :=
  match cc with
  | 0 => a == b
  | 1 => a != b
  | 2 => a.slt b
  | 3 => a.sle b
  | 4 => a.ult b
  | _ => a.ule b

/-- Comparison codes of UCMP (R299): eq, ne, lt.s, le.s, gt.s, ge.s, lt.z, le.z, gt.z, ge.z. -/
def ccUni (cc : Nat) (a b : W32) : Bool :=
  match cc with
  | 0 => a == b
  | 1 => a != b
  | 2 => a.slt b
  | 3 => a.sle b
  | 4 => b.slt a
  | 5 => b.sle a
  | 6 => a.ult b
  | 7 => a.ule b
  | 8 => b.ult a
  | _ => b.ule a

/-- Clamp an integer to [lo, hi] (R233, R234). -/
def clampInt (lo hi x : Int) : Int := if x < lo then lo else if hi < x then hi else x

/-- Saturate to a signed or unsigned integer of n bits (R234). -/
def satS (n : Nat) (x : Int) : Int := clampInt (-(2 ^ (n - 1))) (2 ^ (n - 1) - 1) x
def satZ (n : Nat) (x : Int) : Int := clampInt 0 (2 ^ n - 1) x

/-- The member mask of a cross-lane instruction (R330): the path's lanes, or a predicate over all lanes. -/
def IssueCtx.members (x : IssueCtx) (pred : Nat) : W64 :=
  if pred = 0 then x.p.mask else x.g.p.get 0 pred &&& fullMask x.w

/-- Whether a member mask names a lane that is not active: sets GSR.MM (R330). -/
def IssueCtx.badMember (x : IssueCtx) (pred : Nat) : Bool := x.members pred &&& ~~~x.p.mask != 0

/-- A lane read across lanes: beyond W it is zero, and GSR.XR sets (R330). -/
def crossLane (w : Nat) (v : VReg) (i : Nat) : W32 := if i < w then v.lane i else 0

end Sys2Proof.Machine
end

