-- ==== Sys2Proof/Machine/IntOps.lean ====
section
/-! DEFINITION. Integer lane results (R298, R312 to R316). -/

namespace Sys2Proof.Machine

/-- An integer as a 32-bit value, modulo 2³². -/
def w32 (x : Int) : W32 := BitVec.ofInt 32 x

/-- Bits [63:32] of a signed and of an unsigned product (R298, R312, R316). -/
def mulhS (a b : W32) : W32 := w32 (a.toInt * b.toInt / 2 ^ 32)
def mulhZ (a b : W32) : W32 := BitVec.ofNat 32 (a.toNat * b.toNat / 2 ^ 32)

/-- Shifts: 32 or more gives 0, or the sign (R298, R313). -/
def shl (a b : W32) : W32 := if 32 ≤ b.toNat then 0 else a <<< b.toNat
def shr (a b : W32) : W32 := if 32 ≤ b.toNat then 0 else a >>> b.toNat
def sar (a b : W32) : W32 := a.sshiftRight (min 31 b.toNat)

/-- The position and length of a bit field (R298, R313). -/
def bfPos (b : W32) : Nat := b.toNat % 32
def bfLen (b : W32) : Nat := b.toNat / 256 % 32

/-- VBFE and UBFE: extract a bit field, zero-extended (R298, R313). -/
def bfe (a b : W32) : W32 := BitVec.ofNat 32 (a.toNat / 2 ^ bfPos b % 2 ^ bfLen b)

/-- VBFI: insert a bit field; bits above bit 31 are dropped (R313). -/
def bfi (a b d : W32) : W32 :=
  let m : W32 := BitVec.ofNat 32 ((2 ^ bfLen b - 1) * 2 ^ bfPos b)
  let v : W32 := BitVec.ofNat 32 (a.toNat % 2 ^ bfLen b * 2 ^ bfPos b)
  (d &&& ~~~m) ||| (v &&& m)

/-- Absolute value modulo 2³² (R312). -/
def absW (a : W32) : W32 := if a.slt 0 then 0 - a else a

def minS (a b : W32) : W32 := if b.slt a then b else a
def maxS (a b : W32) : W32 := if a.slt b then b else a
def minZ (a b : W32) : W32 := if b.ult a then b else a
def maxZ (a b : W32) : W32 := if a.ult b then b else a

def addsS (a b : W32) : W32 := w32 (satS 32 (a.toInt + b.toInt))
def subsS (a b : W32) : W32 := w32 (satS 32 (a.toInt - b.toInt))
def addsZ (a b : W32) : W32 := w32 (satZ 32 (a.toNat + b.toNat))
def subsZ (a b : W32) : W32 := w32 (satZ 32 (a.toNat - b.toNat))

/-- Byte k of a lane. -/
def byteOf (a : W32) (k : Nat) : BitVec 8 := a.extractLsb' (8 * k) 8

/-- VDOT4: the sum of four byte products and d, modulo 2³² (R312, R316). -/
def dot4S (a b d : W32) : W32 :=
  w32 (d.toInt + (byteOf a 0).toInt * (byteOf b 0).toInt + (byteOf a 1).toInt * (byteOf b 1).toInt
    + (byteOf a 2).toInt * (byteOf b 2).toInt + (byteOf a 3).toInt * (byteOf b 3).toInt)
def dot4Z (a b d : W32) : W32 :=
  BitVec.ofNat 32 (d.toNat + (byteOf a 0).toNat * (byteOf b 0).toNat + (byteOf a 1).toNat * (byteOf b 1).toNat
    + (byteOf a 2).toNat * (byteOf b 2).toNat + (byteOf a 3).toNat * (byteOf b 3).toNat)

/-- The halves of a lane, and a lane from its halves. -/
def h0 (a : W32) : BitVec 16 := a.extractLsb' 0 16
def h1 (a : W32) : BitVec 16 := a.extractLsb' 16 16
def mkH (hi lo : BitVec 16) : W32 := hi ++ lo

/-- Apply a function to each half (R316, R320). -/
def map2H (f : BitVec 16 → BitVec 16 → BitVec 16) (a b : W32) : W32 := mkH (f (h1 a) (h1 b)) (f (h0 a) (h0 b))
def map3H (f : BitVec 16 → BitVec 16 → BitVec 16 → BitVec 16) (a b d : W32) : W32 :=
  mkH (f (h1 a) (h1 b) (h1 d)) (f (h0 a) (h0 b) (h0 d))

/-- Apply a function to each byte (R316). -/
def map2B (f : BitVec 8 → BitVec 8 → BitVec 8) (a b : W32) : W32 :=
  f (byteOf a 3) (byteOf b 3) ++ f (byteOf a 2) (byteOf b 2) ++ f (byteOf a 1) (byteOf b 1) ++ f (byteOf a 0) (byteOf b 0)

/-- Element operations of any width (R316). -/
def eMinS {n : Nat} (a b : BitVec n) : BitVec n := if b.slt a then b else a
def eMaxS {n : Nat} (a b : BitVec n) : BitVec n := if a.slt b then b else a
def eMinZ {n : Nat} (a b : BitVec n) : BitVec n := if b.ult a then b else a
def eMaxZ {n : Nat} (a b : BitVec n) : BitVec n := if a.ult b then b else a
def eAddsS {n : Nat} (a b : BitVec n) : BitVec n := BitVec.ofInt n (satS n (a.toInt + b.toInt))
def eSubsS {n : Nat} (a b : BitVec n) : BitVec n := BitVec.ofInt n (satS n (a.toInt - b.toInt))
def eAddsZ {n : Nat} (a b : BitVec n) : BitVec n := BitVec.ofInt n (satZ n (a.toNat + b.toNat))
def eSubsZ {n : Nat} (a b : BitVec n) : BitVec n := BitVec.ofInt n (satZ n (a.toNat - b.toNat))

/-- The element width of a count instruction (R314). -/
def cntWidth (c : Nat) : Nat := if c = 0 then 32 else if c = 1 then 16 else 8

/-- Replace each element of width w by its count (R314). -/
def perElem (w : Nat) (f : Nat → Nat) (a : W32) : W32 :=
  BitVec.ofNat 32 ((List.range (32 / w)).foldl (fun r k => r + f (a.toNat / 2 ^ (w * k) % 2 ^ w) % 2 ^ w * 2 ^ (w * k)) 0)

/-- Index of the lowest set bit among the first n, or n. -/
def ctzFrom (x : Nat) : Nat → Nat → Nat
  | 0, i => i
  | n + 1, i => if x.testBit i then i else ctzFrom x n (i + 1)

/-- Counts of an element x of width w (R298, R314). -/
def clz (w x : Nat) : Nat := if x = 0 then w else w - 1 - Nat.log2 x
def ctz (w x : Nat) : Nat := ctzFrom x w 0
def ffs (w x : Nat) : Nat := if x = 0 then 0 else ctz w x + 1
def popc (w x : Nat) : Nat := (List.range w).foldl (fun a i => if x.testBit i then a + 1 else a) 0

end Sys2Proof.Machine
end

