-- ==== Sys2Proof/Machine/Float.lean ====
section
/-! DEFINITION. Number formats and arithmetic (R220 to R243, R317 to R321): exact values, one rounding,
the special functions, LNS6 and CB4, sums of products, and the direction pipe. -/

namespace Sys2Proof.Machine

/-- The exact value of a code: a finite one is (−1)^neg × m × 2^e. -/
inductive FV where
  | nan
  | inf (neg : Bool)
  | fin (neg : Bool) (m : Nat) (e : Int)
  deriving DecidableEq, Repr

/-- A binary float format (R220, R223): fraction bits, exponent bits, bias, and whether it is one of the
three IEEE formats. -/
structure Fmt where
  mf : Nat
  eb : Nat
  bias : Int
  ieee : Bool
  deriving DecidableEq, Repr

def fp32 : Fmt := ⟨23, 8, 127, true⟩
def fp16 : Fmt := ⟨10, 5, 15, true⟩
def bf16 : Fmt := ⟨7, 8, 127, true⟩
def e4m3 : Fmt := ⟨3, 4, 8, false⟩
def e5m2 : Fmt := ⟨2, 5, 16, false⟩
def e2m1 : Fmt := ⟨1, 2, 2, false⟩

/-- The value of a code (R220, R223). -/
def Fmt.value (f : Fmt) (x : Nat) : FV :=
  let sgn := x / 2 ^ (f.mf + f.eb) % 2 == 1
  let ex := x / 2 ^ f.mf % 2 ^ f.eb
  let fr := x % 2 ^ f.mf
  if f.ieee && ex == 2 ^ f.eb - 1 then (if fr = 0 then .inf sgn else .nan)
  else if !f.ieee && sgn && ex == 0 && fr == 0 then .nan
  else if ex = 0 then .fin sgn fr (1 - f.bias - f.mf)
  else .fin sgn (2 ^ f.mf + fr) (ex - f.bias - f.mf)

/-- The sign bit of a format. -/
def Fmt.signBit (f : Fmt) : Nat := 2 ^ (f.mf + f.eb)

/-- The NaN code of a format (R221, R223). -/
def Fmt.nanCode (f : Fmt) : Nat := if f.ieee then (2 ^ (f.eb + 1) - 1) * 2 ^ (f.mf - 1) else f.signBit

/-- The largest finite code, and the code of infinity of an IEEE format. -/
def Fmt.maxCode (f : Fmt) : Nat := if f.ieee then (2 ^ f.eb - 1) * 2 ^ f.mf - 1 else f.signBit - 1
def Fmt.infCode (f : Fmt) : Nat := (2 ^ f.eb - 1) * 2 ^ f.mf

/-- Round m × 2^e to a whole number of 2^q, in a mode (R231): 0 rn, 1 rz, 2 ru, 3 rd, 4 sf. -/
def roundUnits (mode : Nat) (neg : Bool) (m : Nat) (e q : Int) : Nat :=
  if q ≤ e then m * 2 ^ (e - q).toNat
  else
    let sh := (q - e).toNat
    let n := m / 2 ^ sh
    let rem := m % 2 ^ sh
    let up :=
      if mode = 1 then false
      else if mode = 2 then !neg && rem != 0
      else if mode = 3 then neg && rem != 0
      else 2 ^ sh < 2 * rem || (2 * rem == 2 ^ sh && n % 2 == 1)
    if up then n + 1 else n

/-- A magnitude code with the sign put on it; the narrow formats have no negative zero (R223). -/
def Fmt.signed (f : Fmt) (neg : Bool) (c : Nat) : Nat :=
  if neg && (f.ieee || c != 0) then f.signBit + c else c

/-- What a value beyond the largest finite one becomes (R232). -/
def Fmt.overflow (f : Fmt) (mode : Nat) (neg : Bool) : Nat :=
  let big := f.maxCode
  f.signed neg (if !f.ieee then big
    else if mode = 0 then f.infCode
    else if mode = 2 then (if neg then big else f.infCode)
    else if mode = 3 then (if neg then f.infCode else big)
    else big)

/-- Round a value once into a format (R232, R233). -/
def Fmt.enc (f : Fmt) (mode : Nat) (v : FV) : Nat :=
  match v with
  | .nan => f.nanCode
  | .inf n => f.signed n (if f.ieee && mode != 4 then f.infCode else f.maxCode)
  | .fin n m e =>
    if m = 0 then f.signed n 0
    else
      let qmin : Int := 1 - f.bias - f.mf
      let q := max ((Nat.log2 m : Int) + e - f.mf) qmin
      let c := (q - qmin).toNat * 2 ^ f.mf + roundUnits mode n m e q
      if f.maxCode < c then f.overflow mode n else f.signed n c

/-- Exact negation, product and sum. `rd` gives the sign of an exact zero sum of unlike terms (R317). -/
def FV.neg : FV → FV
  | .nan => .nan
  | .inf n => .inf !n
  | .fin n m e => .fin (!n) m e

def FV.mul (a b : FV) : FV :=
  match a, b with
  | .nan, _ => .nan
  | _, .nan => .nan
  | .inf x, .inf y => .inf (x != y)
  | .inf x, .fin y m _ => if m = 0 then .nan else .inf (x != y)
  | .fin y m _, .inf x => if m = 0 then .nan else .inf (x != y)
  | .fin x m e, .fin y n k => .fin (x != y) (m * n) (e + k)

/-- A finite value as a whole number of 2^q, for q at most its exponent. -/
def unitsAt (n : Bool) (m : Nat) (e q : Int) : Int :=
  let x : Int := (m * 2 ^ (e - q).toNat : Nat)
  if n then -x else x

/-- A finite value from a signed number of 2^q. -/
def FV.ofUnits (x q : Int) : FV := .fin (decide (x < 0)) x.natAbs q

def FV.add (rd : Bool) (a b : FV) : FV :=
  match a, b with
  | .nan, _ => .nan
  | _, .nan => .nan
  | .inf x, .inf y => if x = y then .inf x else .nan
  | .inf x, .fin _ _ _ => .inf x
  | .fin _ _ _, .inf y => .inf y
  | .fin x m e, .fin y n k =>
    let q := min e k
    let s := unitsAt x m e q + unitsAt y n k q
    if s = 0 then .fin (if x = y then x else rd) 0 0 else FV.ofUnits s q

/-- The value of an integer. -/
def FV.ofInt (x : Int) : FV := FV.ofUnits x 0

/-! ## Arithmetic on codes (R222, R317 to R320) -/

/-- Round a value into a code of n bits. -/
def Fmt.code (f : Fmt) (n mode : Nat) (v : FV) : BitVec n := BitVec.ofNat n (f.enc mode v)

def Fmt.add {n : Nat} (f : Fmt) (mode : Nat) (a b : BitVec n) : BitVec n :=
  f.code n mode (FV.add (mode == 3) (f.value a.toNat) (f.value b.toNat))
def Fmt.sub {n : Nat} (f : Fmt) (mode : Nat) (a b : BitVec n) : BitVec n :=
  f.code n mode (FV.add (mode == 3) (f.value a.toNat) (f.value b.toNat).neg)
def Fmt.mul {n : Nat} (f : Fmt) (mode : Nat) (a b : BitVec n) : BitVec n :=
  f.code n mode (FV.mul (f.value a.toNat) (f.value b.toNat))
def Fmt.acc {n : Nat} (f : Fmt) (mode : Nat) (a b d : BitVec n) : BitVec n :=
  f.code n mode (FV.add (mode == 3) (FV.mul (f.value a.toNat) (f.value b.toNat)) (f.value d.toNat))

/-- The order of non-NaN codes with −0 below +0, and with the zeros equal (R318). -/
def Fmt.orderKey (f : Fmt) (x : Nat) : Int := if f.signBit ≤ x then -((x - f.signBit : Nat) : Int) - 1 else x
def Fmt.valueKey (f : Fmt) (x : Nat) : Int := if f.signBit ≤ x then -((x - f.signBit : Nat) : Int) else x

/-- FMIN and FMAX (R318). -/
def Fmt.minMax {n : Nat} (f : Fmt) (isMax : Bool) (a b : BitVec n) : BitVec n :=
  let an := f.value a.toNat == .nan
  let bn := f.value b.toNat == .nan
  if an && bn then BitVec.ofNat n f.nanCode
  else if an then b
  else if bn then a
  else if (f.orderKey a.toNat < f.orderKey b.toNat) = isMax then b else a

/-- FCMP's conditions (R318): eq, ne, lt, le, gt, ge, un. -/
def ccFloat (cc : Nat) (a b : W32) : Bool :=
  let un := fp32.value a.toNat == .nan || fp32.value b.toNat == .nan
  let x := fp32.valueKey a.toNat
  let y := fp32.valueKey b.toNat
  match cc with
  | 0 => !un && x == y
  | 1 => un || x != y
  | 2 => !un && x < y
  | 3 => !un && x ≤ y
  | 4 => !un && y < x
  | 5 => !un && y ≤ x
  | _ => un

/-- The canonical NaN of FP32. -/
def nan32 : W32 := 0x7FC00000

/-- FNEG and FABS (R318). -/
def fneg (a : W32) : W32 := if fp32.value a.toNat == .nan then nan32 else a ^^^ 0x80000000
def fabs (a : W32) : W32 := if fp32.value a.toNat == .nan then nan32 else a &&& 0x7FFFFFFF

/-- The bit that FCLASS sets (R318). -/
def fclassBit (a : W32) : Nat :=
  let s := a.getLsbD 31
  match fp32.value a.toNat with
  | .nan => if a.getLsbD 22 then 9 else 8
  | .inf _ => if s then 0 else 7
  | .fin _ m _ =>
    if m = 0 then (if s then 3 else 4)
    else if m < 2 ^ 23 then (if s then 2 else 5)
    else (if s then 1 else 6)
def fclass (a : W32) : W32 := BitVec.ofNat 32 (2 ^ fclassBit a)

/-- FSCALE: a × 2^k with k clamped to −512 … 512 (R319). -/
def fscale (a b : W32) : W32 :=
  match fp32.value a.toNat with
  | .fin n m e => fp32.code 32 0 (.fin n m (e + clampInt (-512) 512 b.toInt))
  | v => fp32.code 32 0 v

/-- FRND: to an integral value, the sign kept (R319). -/
def frnd (mode : Nat) (a : W32) : W32 :=
  match fp32.value a.toNat with
  | .fin n m e => if 0 ≤ e then a else fp32.code 32 0 (.fin n (roundUnits mode n m e 0) 0)
  | v => fp32.code 32 0 v

/-- FDOT2: one rounding of the exact sum (R236, R320). -/
def fdot2 (f : Fmt) (a b d : W32) : W32 :=
  let v (x : BitVec 16) := f.value x.toNat
  fp32.code 32 0 (FV.add false (FV.add false (FV.mul (v (h0 a)) (v (h0 b))) (FV.mul (v (h1 a)) (v (h1 b)))) (fp32.value d.toNat))

/-! ## The special functions (R321)

Each result is computed to far more bits than the destination has; a value that is not exact carries a
low bit below them, so that it never looks like a halfway case. -/

/-- ⌊√n⌋ from its top bit downwards. -/
def isqrtFrom (n : Nat) : Nat → Nat → Nat
  | 0, r => r
  | k + 1, r => isqrtFrom n k (if (r + 2 ^ k) * (r + 2 ^ k) ≤ n then r + 2 ^ k else r)
def isqrt (n : Nat) : Nat := isqrtFrom n (Nat.log2 n / 2 + 1) 0

/-- m × 2^e, with a low bit below it where it is only the whole part of the value. -/
def FV.sticky (n : Bool) (m : Nat) (exact : Bool) (e : Int) : FV := .fin n (2 * m + if exact then 0 else 1) (e - 1)

def FV.rcp : FV → FV
  | .nan => .nan
  | .inf n => .fin n 0 0
  | .fin n m e =>
    if m = 0 then .inf n
    else
      let k := Nat.log2 m + 64
      .sticky n (2 ^ k / m) (2 ^ k % m == 0) (-e - k)

def FV.rsq : FV → FV
  | .nan => .nan
  | .inf n => if n then .nan else .fin false 0 0
  | .fin n m e =>
    if m = 0 then .inf n
    else if n then .nan
    else
      let m' := if e % 2 = 0 then m else 2 * m
      let h := e / 2
      let j := Nat.log2 m' + 64
      let s := isqrt (2 ^ (2 * j) / m')
      .sticky false s (s * s * m' == 2 ^ (2 * j)) (-h - j)

def FV.sqrt : FV → FV
  | .nan => .nan
  | .inf n => if n then .nan else .inf false
  | .fin n m e =>
    if m = 0 then .fin n 0 0
    else if n then .nan
    else
      let m' := if e % 2 = 0 then m else 2 * m
      let s := isqrt (m' * 2 ^ 128)
      .sticky false s (s * s == m' * 2 ^ 128) (e / 2 - 64)

/-- 2³²⁰, the unit of the fixed-point values below. -/
def one320 : Nat := 2 ^ 320
/-- ⌊2³²⁰ ln 2⌋ and ⌊2³²⁰ π⌋. -/
def ln2Fix : Nat := 0xb17217f7d1cf79abc9e3b39803f2f6af40f343267298b62d8a0d175b8baafa2be7b876206debac98
def piFix : Nat := 0x3243f6a8885a308d313198a2e03707344a4093822299f31d0082efa98ec4e6c89452821e638d01377

/-- n terms of e^y, from term k on. -/
def expSeries (y : Nat) : Nat → Nat → Nat → Nat
  | 0, _, _ => 0
  | n + 1, k, t => t + expSeries y n (k + 1) (t * y / one320 / (k + 1))
/-- n terms of sin y, by y². -/
def sinSeries (y2 : Nat) : Nat → Nat → Nat → Int
  | 0, _, _ => 0
  | n + 1, k, t => (t : Int) - sinSeries y2 n (k + 2) (t * y2 / one320 / ((k + 1) * (k + 2)))
/-- n terms of artanh z, by z². -/
def artanhSeries (z2 : Nat) : Nat → Nat → Nat → Nat
  | 0, _, _ => 0
  | n + 1, k, t => t / k + artanhSeries z2 n (k + 2) (t * z2 / one320)

/-- 2^f for a fraction f, in units of 2⁻³²⁰. -/
def exp2Frac (f : Nat) : Nat := expSeries (f * ln2Fix / one320) 72 0 one320

/-- |value| in units of 2⁻³²⁰: exact for every FP32 value. -/
def fix320 (m : Nat) (e : Int) : Nat := m * 2 ^ (e + 320).toNat

def FV.exp2 : FV → FV
  | .nan => .nan
  | .inf n => if n then .fin false 0 0 else .inf false
  | .fin n m e =>
    if 8 ≤ (Nat.log2 m : Int) + e then .fin false 1 (if n then -400 else 400)
    else
      let x : Int := unitsAt n m e (-320)
      let f := (x % one320).toNat
      if f = 0 then .fin false 1 (x / one320) else .sticky false (exp2Frac f) false (x / one320 - 320)

def FV.log2 : FV → FV
  | .nan => .nan
  | .inf n => if n then .nan else .inf false
  | .fin n m e =>
    if m = 0 then .inf true
    else if n then .nan
    else
      let l := Nat.log2 m
      let k : Int := l + e
      if m = 2 ^ l then .fin (decide (k < 0)) k.natAbs 0
      else
        let x := m * 2 ^ (320 - l)
        let z := (x - one320) * one320 / (x + one320)
        let ln := 2 * artanhSeries (z * z / one320) 110 1 z
        let v : Int := k * one320 + (ln * one320 / ln2Fix : Nat)
        .sticky (decide (v < 0)) v.natAbs false (-320)

/-- sin(π r) for 0 ≤ r ≤ ½, in units of 2⁻³²⁰. -/
def sinPi (r : Nat) : FV :=
  if r = 0 then .fin false 0 0
  else if 2 * r = one320 then .fin false 1 0
  else
    let y := r * piFix / one320
    .sticky false (sinSeries (y * y / one320) 48 1 y).toNat false (-320)

/-- The value with a sign put on it. -/
def FV.withSign (n : Bool) : FV → FV
  | .nan => .nan
  | .inf _ => .inf n
  | .fin _ m e => .fin n m e

def FV.sin : FV → FV
  | .nan => .nan
  | .inf _ => .nan
  | .fin n m e =>
    let r := fix320 m e % (2 * one320)
    let u := r % one320
    if u = 0 then .fin n 0 0
    else (sinPi (min u (one320 - u))).withSign (n != decide (one320 ≤ r))

def FV.cos : FV → FV
  | .nan => .nan
  | .inf _ => .nan
  | .fin _ m e =>
    let r := fix320 m e % (2 * one320)
    let t := min r (2 * one320 - r)
    if 2 * t = one320 then .fin false 0 0
    else if 2 * t < one320 then sinPi (one320 / 2 - t)
    else (sinPi (t - one320 / 2)).withSign true

def FV.tanh : FV → FV
  | .nan => .nan
  | .inf n => .fin n 1 0
  | .fin n m e =>
    if m = 0 then .fin n 0 0
    else if 6 ≤ (Nat.log2 m : Int) + e then .sticky n (one320 - 1) false (-320)
    else
      let t := 2 * fix320 m e * one320 / ln2Fix
      let g := exp2Frac (t % one320) * 2 ^ (t / one320)
      .sticky n ((g - one320) * one320 / (g + one320)) false (-320)

/-- A special function on FP32 codes. -/
def special (f : FV → FV) (a : W32) : W32 := fp32.code 32 0 (f (fp32.value a.toNat))

/-! ## Conversions (R233, R234) -/

/-- A value rounded to an integer by the mode, then saturated; the least and greatest of the destination
for the infinities, 0 for NaN. -/
def FV.toInt (mode : Nat) (lo hi : Int) : FV → Int
  | .nan => 0
  | .inf n => if n then lo else hi
  | .fin n m e =>
    let r : Int := roundUnits mode n m e 0
    clampInt lo hi (if n then -r else r)

/-- The range of an integer of n bits. -/
def intLo (signed : Bool) (n : Nat) : Int := if signed then -(2 ^ (n - 1)) else 0
def intHi (signed : Bool) (n : Nat) : Int := if signed then 2 ^ (n - 1) - 1 else 2 ^ n - 1

/-- The n low bits of an integer. -/
def intCode (n : Nat) (x : Int) : Nat := (x % 2 ^ n).toNat

/-- The signed or unsigned value of n bits. -/
def intVal (signed : Bool) (n x : Nat) : Int := if signed && 2 ^ (n - 1) ≤ x % 2 ^ n then (x % 2 ^ n : Nat) - 2 ^ n else (x % 2 ^ n : Nat)

/-! ## LNS6 (R225 to R228, R232) -/

/-- T(f), in units of 2⁻¹² (R227). -/
def lnsT (f : Nat) : Nat := [4096, 4871, 5793, 6889][f]?.getD 0

/-- The table value of an LNS6 code (R227). -/
def lnsValue (c : Nat) : FV :=
  let e := c % 32
  let s := c / 32 % 2 == 1
  if e = 0 then (if s then .nan else .fin false 0 0)
  else
    let k : Int := e - 17
    .fin s (lnsT (k % 4).toNat) (k / 4 - 12)

/-- An LNS6 product: an integer in units of 2⁻²⁰ (R228). -/
def lnsMul (a b : Nat) : FV :=
  if a % 64 = 32 ∨ b % 64 = 32 then .nan
  else if a % 32 = 0 ∨ b % 32 = 0 then .fin false 0 0
  else
    let t : Int := ((a % 32 : Nat) : Int) + (b % 32 : Nat) - 34
    .fin ((a / 32 + b / 32) % 2 == 1) (lnsT (t % 4).toNat) (t / 4 - 12)

/-- Whether a × 2^e ≥ b × 2^k, for positive a. -/
def geScaled (a : Nat) (e : Int) (b : Nat) (k : Int) : Bool :=
  if k ≤ e then b ≤ a * 2 ^ (e - k).toNat else b * 2 ^ (k - e).toNat ≤ a

/-- ⌊2³²⁰ (1 + 2^¼)⁴⌋: adjacent LNS6 magnitudes 2^j and 2^(j+¼) have their middle at 2^j (1 + 2^¼) / 2. -/
def lnsMid : Nat := 0x16f822cf52d91d5950347feaf77302a6193d6f314026cc481787811b7217651d4cf3953d6e1b187b42

/-- The number of magnitude codes c from 1 to 31 that a test accepts; the tests used are monotone. -/
def lnsCount (p : Nat → Bool) : Nat := (List.range 31).foldl (fun a i => if p (i + 1) then a + 1 else a) 0

/-- Encode a value into LNS6 by the exact values of R225 (R232). -/
def lnsEnc (mode : Nat) : FV → Nat
  | .nan => 0x20
  | .inf n => if n then 63 else 31
  | .fin n m e =>
    if m = 0 then 0
    else
      let m4 := m ^ 4
      let le (c : Nat) : Bool := geScaled m4 (4 * e) 1 ((c : Int) - 17)
      let near (c : Nat) : Bool :=
        if c = 1 then geScaled m e 1 (-5) && !(geScaled 1 (-5) m e)
        else geScaled m4 (4 * e + 4) lnsMid ((c : Int) - 18 - 320)
      let dn := lnsCount le
      let exact := dn ≠ 0 && geScaled 1 ((dn : Int) - 17) m4 (4 * e)
      let up := if exact then dn else min 31 (dn + 1)
      let c :=
        if mode = 1 then dn
        else if mode = 2 then (if n then dn else up)
        else if mode = 3 then (if n then up else dn)
        else lnsCount near
      if c = 0 then 0 else if n then 32 + c else c

/-! ## CB4 (R230) -/

/-- Entry n of a codebook: a BF16 code. -/
def cbEntry (cb : BitVec 256) (n : Nat) : Nat := (cb.extractLsb' (16 * n) 16).toNat

/-- A non-NaN value as a whole number of 2⁻¹⁶⁰; the infinities lie beyond every finite value. -/
def cbUnits : FV → Int
  | .nan => 0
  | .inf n => if n then -(2 ^ 1000) else 2 ^ 1000
  | .fin n m e => unitsAt n m e (-160)

/-- The index of a codebook for a value (R230). -/
def cbEnc (cb : BitVec 256) (x : FV) : Nat :=
  let ent (i : Nat) : FV := bf16.value (cbEntry cb i)
  let idx := List.range 16
  let good := idx.filter fun i => ent i != .nan
  match x with
  | .nan => (idx.find? fun i => ent i == .nan).getD 0
  | .inf n => (leastBy (fun i => (2 ^ 1001 + if n then cbUnits (ent i) else -cbUnits (ent i)).toNat) good).getD 0
  | v => (leastBy (fun i => match ent i with | .inf _ => 2 ^ 1001 | w => (cbUnits v - cbUnits w).natAbs) good).getD 0

/-! ## Sums of products (R236, R237) -/

/-- Special values among the products of a step (R237). -/
def stepSpecial (ps : List FV) : Option FV :=
  if ps.contains .nan then some .nan
  else match ps.contains (.inf false), ps.contains (.inf true) with
    | true, true => some .nan
    | true, false => some (.inf false)
    | false, true => some (.inf true)
    | false, false => none

/-- The exact sum of finite values, +0 where it is zero. -/
def exactSum (ps : List FV) : FV :=
  match ps.foldl (FV.add false) (.fin false 0 0) with
  | .fin n m e => if m = 0 then .fin false 0 0 else .fin n m e
  | v => v

/-- floor(log₂) of a finite non-zero value. -/
def FV.top? : FV → Option Int
  | .fin _ m e => if m = 0 then none else some (Nat.log2 m + e)
  | _ => none

/-- The greatest of a list. -/
def maxInt? : List Int → Option Int
  | [] => none
  | x :: xs => match maxInt? xs with
    | none => some x
    | some y => some (max x y)

/-- Truncate toward zero to a multiple of 2^q, in units of it. -/
def FV.truncUnits (q : Int) : FV → Int
  | .fin n m e => let r : Int := roundUnits 1 n m e q; if n then -r else r
  | _ => 0

/-- The step sum of a matrix K-step as an FP32 code; `window` for BF16 and FP16 inputs (R237). -/
def stepSum (window : Bool) (ps : List FV) : W32 :=
  match stepSpecial ps with
  | some v => fp32.code 32 0 v
  | none =>
    if window then
      match maxInt? (ps.filterMap FV.top?) with
      | none => 0
      | some top =>
        let q := top - 64
        fp32.code 32 0 (exactSum [FV.ofUnits (ps.foldl (fun a p => a + p.truncUnits q) 0) q])
    else fp32.code 32 0 (exactSum ps)

/-! ## Directions (R240 to R243) -/

/-- Component i of a direction register. -/
def DReg.comp (d : DReg) (i : Nat) : Int := (d.comps.half i).toInt

/-- What the norm code says (R240). -/
def DReg.isZero (d : DReg) : Bool := d.norm == 0x8000
def DReg.isUndef (d : DReg) : Bool := 0x8001 ≤ d.norm.toNat && d.norm.toNat ≤ 0x80ff

/-- The zero and the undefined direction. -/
def dZero : DReg := { comps := 0, norm := 0x8000 }
def dUndef : DReg := { comps := 0, norm := 0x8001 }

/-- A whole number p below 2^k · base bound, found from its top bit, for which p^256 does not exceed n. -/
def root256From (n : Nat) : Nat → Nat → Nat
  | 0, r => r
  | k + 1, r => root256From n k (if (r + 2 ^ k) ^ 256 ≤ n then r + 2 ^ k else r)

/-- P(f) × 2²³: 2^(f/256) rounded to the nearest FP32 value (R241). -/
def dirP (f : Nat) : Nat := (root256From (2 ^ (24 * 256 + f)) 26 0 + 1) / 2

/-- The magnitude factor of an ordinary norm (R241). -/
def normFactor (norm : BitVec 16) : FV :=
  let n := norm.toInt
  .fin false (dirP (n % 256).toNat) (n / 256 - 23)

/-- The exact value of component i (R241). -/
def DReg.value (d : DReg) (i : Nat) : FV :=
  if d.isUndef then .nan
  else if d.isZero then .fin false 0 0
  else FV.mul (.fin (decide (d.comp i < 0)) (d.comp i).natAbs (-15)) (normFactor d.norm)

/-- ⌈log₂ n⌉ of a positive number. -/
def clog2 (n : Nat) : Nat := if n ≤ 1 then 0 else Nat.log2 (n - 1) + 1

/-- The renormalising pipe (R242): the register it writes, and whether the norm saturated. Its repair
loop never changes a component and is left out. -/
def renorm (us : List Int) (nb : Int) : DReg × Bool :=
  let sq := us.foldl (fun a u => a + (u * u).toNat) 0
  if sq = 0 then (dZero, false)
  else
    let z := (32 + clog2 sq + 1) / 2
    let mm := isqrt (2 ^ (30 + 2 * z) / sq)
    let comp (i : Nat) : BitVec 16 :=
      let c := ((us[i]?.getD 0) * mm).tdiv (2 ^ z)
      BitVec.ofInt 16 (if c = 32768 then 32767 else c)
    let adj : Int := (Nat.log2 (2 * sq ^ 256) / 2 : Nat) - 3840
    let n := nb + adj
    ({ comps := VReg.ofHalves us.length comp, norm := BitVec.ofInt 16 (clampInt (-32512) 32767 n) },
      decide (n < -32512) || decide (32767 < n))

/-- A conversion of finite FP32 values into a direction (R243). -/
def dirOf (xs : List FV) : DReg × Bool :=
  if xs.any fun x => match x with | .fin _ _ _ => false | _ => true then (dUndef, false)
  else match maxInt? (xs.filterMap FV.top?) with
    | none => (dZero, false)
    | some e => renorm (xs.map fun x => x.truncUnits (e - 27)) (256 * (e - 12))

end Sys2Proof.Machine
end

