-- ==== Sys2Proof/Machine/Convert.lean ====
section
/-! DEFINITION. Conversion and packing, cross-lane and predicate instructions: majors 4 and 5 (R322 to
R334). -/

namespace Sys2Proof.Machine

/-! ## Elements of a lane (R229) -/

/-- Element i of width n of a lane. -/
def elemOf (a : W32) (n i : Nat) : Nat := a.toNat / 2 ^ (n * i) % 2 ^ n

/-- The value of element i of a lane under a CVT type code (R322). -/
def cvtElem (cb : BitVec 256) (t i : Nat) (a : W32) : FV :=
  match t with
  | 0 => .ofInt a.toInt
  | 1 => .ofInt a.toNat
  | 2 => .ofInt (intVal true 16 (elemOf a 16 i))
  | 3 => .ofInt (elemOf a 16 i)
  | 4 => fp16.value (elemOf a 16 i)
  | 5 => bf16.value (elemOf a 16 i)
  | 6 => .ofInt (intVal true 8 (elemOf a 8 i))
  | 7 => .ofInt (elemOf a 8 i)
  | 8 => e4m3.value (elemOf a 8 i)
  | 9 => e5m2.value (elemOf a 8 i)
  | 10 => e2m1.value (elemOf a 4 i)
  | 11 => .ofInt (intVal true 4 (elemOf a 4 i))
  | 12 => bf16.value (cbEntry cb (elemOf a 4 i))
  | _ => lnsValue (elemOf a 6 0)

/-- Sign and width of the integer types of R323 and R324. -/
def intSigned (t : Nat) : Bool := t % 2 = 0
def intWidth (t : Nat) : Nat := if t < 2 then 32 else if t < 4 then 16 else if t < 6 then 8 else 4

/-- A value converted to a type of R323, in the low bits of the lane. -/
def cvtTo (t mode : Nat) (v : FV) : W32 :=
  if t = 6 then BitVec.ofNat 32 (fp16.enc mode v)
  else if t = 7 then BitVec.ofNat 32 (bf16.enc mode v)
  else
    let n := intWidth t
    BitVec.ofNat 32 (intCode n (v.toInt mode (intLo (intSigned t) n) (intHi (intSigned t) n)))

/-- An integer of one type as another: widened or saturated (R234, R324). -/
def cvtInt (x y : Nat) (a : W32) : W32 :=
  let n := intWidth y
  BitVec.ofNat 32 (intCode n (clampInt (intLo (intSigned y) n) (intHi (intSigned y) n) (intVal (intSigned x) (intWidth x) a.toNat)))

/-- A lane with byte k replaced. -/
def setByte (d : W32) (k v : Nat) : W32 :=
  (d &&& ~~~BitVec.ofNat 32 (255 * 2 ^ (8 * k))) ||| BitVec.ofNat 32 (v % 256 * 2 ^ (8 * k))

/-- A lane with nibble k replaced. -/
def setNib (d : W32) (k v : Nat) : W32 :=
  (d &&& ~~~BitVec.ofNat 32 (15 * 2 ^ (4 * k))) ||| BitVec.ofNat 32 (v % 16 * 2 ^ (4 * k))

/-- Bytes 2H and 2H + 1 of d take the halves of a, narrowed (R325). -/
def narrowPair (src dst : Fmt) (mode h : Nat) (a d : W32) : W32 :=
  setByte (setByte d (2 * h) (dst.enc mode (src.value (h0 a).toNat))) (2 * h + 1) (dst.enc mode (src.value (h1 a).toNat))

/-- The halves of d take bytes 2H and 2H + 1 of a, widened (R325). -/
def widenPair (src dst : Fmt) (h : Nat) (a : W32) : W32 :=
  mkH (dst.code 16 0 (src.value (elemOf a 8 (2 * h + 1)))) (dst.code 16 0 (src.value (elemOf a 8 (2 * h))))

/-- The CVT type code of an UNPK source type (R327). -/
def unpkType (y : Nat) : Nat := [8, 9, 10, 6, 7, 11, 12][y]?.getD 12

/-- Stream element k of a register image (R226). -/
def VReg.code6 (v : VReg) (k : Nat) : Nat := (v.extractLsb' (6 * k) 6).toNat

/-- The stream of codes given by `f`, from element `lo`, `n` of them, as a number. -/
def stream6 (lo : Nat) (f : Nat → Nat) : Nat → Nat
  | 0 => 0
  | n + 1 => stream6 lo f n + f n % 64 * 2 ^ (6 * (lo + n))

/-- An image with stream elements [lo, lo + n) replaced (R328). -/
def VReg.setStream (v : VReg) (lo n : Nat) (f : Nat → Nat) : VReg :=
  (v &&& ~~~BitVec.ofNat 2048 (stream6 lo (fun _ => 63) n)) ||| BitVec.ofNat 2048 (stream6 lo f n)

/-! ## Conversions -/

/-- CVT_TO_F32 (R322): element i of a typed lane as FP32. -/
def execCvtToF32 (f : CvtToF) (s : State) : Host.Outcome State Fault Refusal :=
  laneIssue s (firstCode [(14 ≤ f.t.toNat, 4), (cvtIndexLimit f.t.toNat ≤ f.i.toNat, 4)]) f.sp fun x =>
    let a := x.vsrc f.a.toNat
    x.laneAct { opw := if f.t = 12 then none else some (BitVec.ofNat 32 (9 + f.word)), srcs := [f.a.toNat], dst := f.d.toNat
                mask := x.g.written x.p f.pred.toNat
                lane := fun l => fp32.code 32 0 (cvtElem x.g.cb f.t.toNat f.i.toNat (a.lane l)) }

/-- CVT_FROM_F32 (R323): FP32 to element 0 of a type, by the mode. -/
def execCvtFromF32 (f : CvtFromF) (s : State) : Host.Outcome State Fault Refusal :=
  unOp s (firstCode [(5 ≤ f.o.toNat, 4)]) (73 + f.word) ⟨f.sp, f.pred, f.a, f.d⟩
    (fun a => cvtTo f.t.toNat f.o.toNat (fp32.value a.toNat))

/-- CVT_INT (R324): integer to integer, widening or saturating. -/
def execCvtInt (f : CvtIntF) (s : State) : Host.Outcome State Fault Refusal :=
  unOp s (firstCode [(f.x = 7 ∨ f.y = 7, 4)]) (137 + f.word) ⟨f.sp, f.pred, f.a, f.d⟩ (cvtInt f.x.toNat f.y.toNat)

/-- CVT_F16_F8 (R325): two elements between a 16-bit and an 8-bit float. -/
def execCvtF16F8 (f : CvtF8F) (s : State) : Host.Outcome State Fault Refusal :=
  let wide := if f.f = 1 then bf16 else fp16
  let narrow := if f.e = 1 then e5m2 else e4m3
  laneIssue s (firstCode [(f.w = 1 ∧ f.o ≠ 0, 4)]) f.sp fun x =>
    let a := x.vsrc f.a.toNat
    let d := x.vold f.d.toNat
    x.laneAct { opw := some (BitVec.ofNat 32 (201 + f.word)), srcs := [f.a.toNat], dst := f.d.toNat, rmw := f.w = 0
                mask := x.g.written x.p f.pred.toNat
                lane := fun l =>
                  if f.w = 1 then widenPair narrow wide f.h.toNat (a.lane l)
                  else narrowPair wide narrow f.o.toNat f.h.toNat (a.lane l) (d.lane l) }

/-- PACK2 (R326): two FP32 registers into the halves of one. -/
def execPack2 (f : Pack2F) (s : State) : Host.Outcome State Fault Refusal :=
  let dst := if f.t = 1 then bf16 else fp16
  laneIssue s (firstCode [(5 ≤ f.o.toNat, 4)]) f.sp fun x =>
    let a := x.g.vreg f.a.toNat
    let b := x.g.vreg (f.a.toNat + 1)
    x.laneAct { opw := some (BitVec.ofNat 32 (265 + f.word)), runs := [(f.a.toNat, 2)], dst := f.d.toNat
                mask := x.g.written x.p f.pred.toNat
                lane := fun l =>
                  mkH (dst.code 16 f.o.toNat (fp32.value (b.lane l).toNat)) (dst.code 16 f.o.toNat (fp32.value (a.lane l).toNat)) }

/-- PACK4 (R326): four FP32 registers into bytes, nibbles or an LNS6 stream. -/
def execPack4 (f : Pack4F) (s : State) : Host.Outcome State Fault Refusal :=
  let ty := 2 * f.t.toNat + f.tlo.toNat
  laneIssue s (firstCode [(5 ≤ f.o.toNat, 4)]) f.sp fun x =>
    let v (k l : Nat) : FV := fp32.value ((x.g.vreg (f.a.toNat + k)).lane l).toNat
    let d := x.vold f.d.toNat
    let mode := f.o.toNat
    let bytes (t : Fmt) (l : Nat) : W32 :=
      setByte (setByte (setByte (setByte 0 0 (t.enc mode (v 0 l))) 1 (t.enc mode (v 1 l))) 2 (t.enc mode (v 2 l))) 3 (t.enc mode (v 3 l))
    let nibs (l : Nat) : W32 :=
      setNib (setNib (setNib (setNib (d.lane l) 0 (e2m1.enc mode (v 0 l))) 1 (e2m1.enc mode (v 1 l))) 2 (e2m1.enc mode (v 2 l))) 3
        (e2m1.enc mode (v 3 l))
    let lns : VReg := BitVec.ofNat 2048 (if ty = 2 then stream6 0 (fun e => lnsEnc mode (v (e % 4) (e / 4))) (4 * x.w) else 0)
    x.laneAct { runs := [(f.a.toNat, 4)], dst := f.d.toNat, rmw := ty = 3
                mask := if ty = 2 then fullMask x.w else x.g.written x.p f.pred.toNat
                lane := fun l => if ty = 0 then bytes e4m3 l else if ty = 1 then bytes e5m2 l else if ty = 2 then lns.lane l else nibs l }

/-- UNPK (R327): two narrow elements as a packed 16-bit pair. -/
def execUnpk (f : UnpkF) (s : State) : Host.Outcome State Fault Refusal :=
  let dst := if f.o = 1 then fp16 else bf16
  laneIssue s (illegalUnpk f) f.sp fun x =>
    let a := x.vsrc f.a.toNat
    let e (k l : Nat) : BitVec 16 := dst.code 16 0 (cvtElem x.g.cb (unpkType f.y.toNat) (2 * f.j.toNat + k) (a.lane l))
    x.laneAct { opw := if f.y = 6 then none else some (BitVec.ofNat 32 (393 + f.word)), srcs := [f.a.toNat], dst := f.d.toNat
                mask := x.g.written x.p f.pred.toNat, lane := fun l => mkH (e 1 l) (e 0 l) }

/-- PK6 (R328): lane LNS6 codes into a segment of a stream; every lane of d is written. -/
def execPk6 (f : Pk6F) (s : State) : Host.Outcome State Fault Refusal :=
  laneIssue s none f.sp fun x =>
    let a := x.vsrc f.a.toNat
    let r := (x.vold f.d.toNat).setStream (f.j.toNat * x.w) x.w fun l => (a.lane l).toNat % 64
    x.laneAct { opw := some (BitVec.ofNat 32 (457 + f.word)), srcs := [f.a.toNat], dst := f.d.toNat, rmw := true
                mask := fullMask x.w, lane := r.lane }

/-- UPK6 (R328): stream elements into lanes. -/
def execUpk6 (f : Pk6F) (s : State) : Host.Outcome State Fault Refusal :=
  laneIssue s none f.sp fun x =>
    let a := x.vsrc f.a.toNat
    x.laneAct { opw := some (BitVec.ofNat 32 (521 + f.word)), srcs := [f.a.toNat], dst := f.d.toNat
                mask := x.g.written x.p f.pred.toNat
                lane := fun l => BitVec.ofNat 32 (a.code6 (f.j.toNat * x.w + l)) }

/-- CBSET (R329): the codebook from lanes 0 to 7. -/
def execCbset (f : CbsetF) (s : State) : Host.Outcome State Fault Refusal :=
  laneIssue s none f.sp fun x =>
    match x.laneFault [f.a.toNat] [] [] with
    | some (cls, det) => .trap cls 0 det
    | none =>
      match x.laneWait [f.a.toNat] [] [] with
      | some w => .park w
      | none =>
        let v := x.vsrc f.a.toNat
        .done ((x.s.popQueues x [f.a.toNat]).updGroup x.c.core x.c.slot fun g => { g with cb := v.extractLsb' 0 256 })

/-- CBENC (R329): the CB4 index of an FP32 value in nibble n. -/
def execCbenc (f : CbencF) (s : State) : Host.Outcome State Fault Refusal :=
  laneIssue s none f.sp fun x =>
    let a := x.vsrc f.a.toNat
    let d := x.vold f.d.toNat
    x.laneAct { srcs := [f.a.toNat], dst := f.d.toNat, rmw := true, mask := x.g.written x.p f.pred.toNat
                lane := fun l => setNib (d.lane l) f.n.toNat (cbEnc x.g.cb (fp32.value (a.lane l).toNat)) }

/-! ## Cross-lane instructions (R330 to R333) -/

/-- Whether a written lane reads a lane index at or beyond W (R330). -/
def readsBeyond (w : Nat) (mask : W64) (f : Nat → Nat) : Bool := (lanesOf w mask).any fun l => w ≤ f l

/-- SHFL (R331): lane UInt(b) of a. -/
def execShfl (f : VA) (s : State) : Host.Outcome State Fault Refusal :=
  laneIssue s none f.sp fun x =>
    let a := x.vsrc f.a.toNat
    let b := x.vsrc f.b.toNat
    let m := x.g.written x.p f.pred.toNat
    x.laneAct { opw := some (BitVec.ofNat 32 (713 + f.word)), srcs := [f.a.toNat, f.b.toNat], dst := f.d.toNat, mask := m
                xr := readsBeyond x.w m fun l => (b.lane l).toNat
                mm := x.badMember f.pred.toNat
                lane := fun l => crossLane x.w a (b.lane l).toNat }

/-- SHFL_VU (R331): every member lane reads lane UInt(S) of a. -/
def execShflVu (f : VA) (s : State) : Host.Outcome State Fault Refusal :=
  laneIssue s none f.sp fun x =>
    match x.sWait [f.b.toNat] with
    | some w => .park w
    | none =>
      let a := x.vsrc f.a.toNat
      let b := x.g.sreg f.b.toNat
      let m := x.g.written x.p f.pred.toNat
      x.laneAct { opw := some (BitVec.ofNat 32 (715 + f.word)), srcs := [f.a.toNat], dst := f.d.toNat, mask := m
                  uval := b.setWidth 64, xr := readsBeyond x.w m fun _ => b.toNat, mm := x.badMember f.pred.toNat
                  lane := fun _ => crossLane x.w a b.toNat }

/-- BCAST (R331): lane k of a in every written lane. -/
def execBcast (f : BcastF) (s : State) : Host.Outcome State Fault Refusal :=
  laneIssue s none f.sp fun x =>
    let a := x.vsrc f.a.toNat
    let m := x.g.written x.p f.pred.toNat
    x.laneAct { opw := some (BitVec.ofNat 32 (841 + f.word)), srcs := [f.a.toNat], dst := f.d.toNat, mask := m
                xr := readsBeyond x.w m fun _ => f.k.toNat, lane := fun _ => crossLane x.w a f.k.toNat }

/-- LANEI (R331): each lane's index. -/
def execLanei (f : LaneiF) (s : State) : Host.Outcome State Fault Refusal :=
  laneIssue s none f.sp fun x =>
    x.laneAct { opw := some (BitVec.ofNat 32 (905 + f.word)), dst := f.d.toNat, mask := x.g.written x.p f.pred.toNat
                lane := fun l => BitVec.ofNat 32 l }

/-- VOTE (R332): any, all or the ballot of a predicate over the active member lanes. -/
def execVote (f : VoteF) (s : State) : Host.Outcome State Fault Refusal :=
  laneIssue s (illegalVote f) f.sp fun x =>
    let m := x.g.written x.p f.pred.toNat
    let mm := x.badMember f.pred.toNat
    let b := x.g.preg x.p f.a.toNat &&& m
    if f.o = 2 then
      x.laneAct { dst := f.d.toNat, mask := m, mm
                  lane := fun l => if x.w = 64 ∧ l % 2 = 1 then b.extractLsb' 32 32 else b.extractLsb' 0 32 }
    else x.predAct [] f.d.toNat m mm fun _ => if f.o = 0 then b != 0 else b == m

/-- One step of a combination (R333). -/
def combine (op : Nat) (a b : W32) : W32 :=
  match op with
  | 0 => a + b
  | 1 => minS a b
  | 2 => maxS a b
  | 3 => minZ a b
  | 4 => maxZ a b
  | 5 => fp32.add 0 a b
  | 6 => a &&& b
  | _ => a ||| b

/-- The identity of a combination (R333). -/
def combineId (op : Nat) : W32 :=
  match op with
  | 1 => 0x7FFFFFFF
  | 2 => 0x80000000
  | 3 => 0xFFFFFFFF
  | 6 => 0xFFFFFFFF
  | _ => 0

/-- The combination of a over lanes in increasing order (R333). -/
def combineOver (op : Nat) (a : VReg) : List Nat → W32
  | [] => combineId op
  | l :: ls => ls.foldl (fun x k => combine op x (a.lane k)) (a.lane l)

/-- REDU (R333): the combination over the active member lanes. -/
def execRedu (f : OpF) (s : State) : Host.Outcome State Fault Refusal :=
  laneIssue s none f.sp fun x =>
    let a := x.vsrc f.a.toNat
    let m := x.g.written x.p f.pred.toNat
    let r := combineOver f.o.toNat a (lanesOf x.w m)
    x.laneAct { opw := some (BitVec.ofNat 32 (969 + f.word)), srcs := [f.a.toNat], dst := f.d.toNat, mask := m
                mm := x.badMember f.pred.toNat, lane := fun _ => r }

/-- SCAN (R333): the prefix combination over the active member lanes. -/
def execScan (f : ScanF) (s : State) : Host.Outcome State Fault Refusal :=
  laneIssue s none f.sp fun x =>
    let a := x.vsrc f.a.toNat
    let m := x.g.written x.p f.pred.toNat
    let ls := lanesOf x.w m
    x.laneAct { opw := some (BitVec.ofNat 32 (1033 + f.word)), srcs := [f.a.toNat], dst := f.d.toNat, mask := m
                mm := x.badMember f.pred.toNat
                lane := fun l => combineOver f.o.toNat a (ls.filter fun k => k < l || (k == l && f.e == 0)) }

/-! ## Predicate instructions (R334) -/

/-- Pd := a bitwise result on the written lanes. -/
def predOp (s : State) (f : PredF) (op : Bool → Bool → Bool) : Host.Outcome State Fault Refusal :=
  laneIssue s (illegalPred f.d) f.sp fun x =>
    let a := x.g.preg x.p f.a.toNat
    let b := x.g.preg x.p f.b.toNat
    x.predAct [] f.d.toNat (x.g.written x.p f.pred.toNat) false fun l => op (a.getLsbD l) (b.getLsbD l)

/-- PAND (R334): predicate AND. -/
def execPand (f : PredF) (s : State) : Host.Outcome State Fault Refusal := predOp s f and
/-- POR (R334): predicate OR. -/
def execPor (f : PredF) (s : State) : Host.Outcome State Fault Refusal := predOp s f or
/-- PXOR (R334): predicate XOR. -/
def execPxor (f : PredF) (s : State) : Host.Outcome State Fault Refusal := predOp s f xor

/-- PNOT (R334): predicate NOT. -/
def execPnot (f : PredUnF) (s : State) : Host.Outcome State Fault Refusal :=
  laneIssue s (illegalPred f.d) f.sp fun x =>
    let a := x.g.preg x.p f.a.toNat
    x.predAct [] f.d.toNat (x.g.written x.p f.pred.toNat) false fun l => !a.getLsbD l

/-- PMOV (R334): predicate move. -/
def execPmov (f : PredUnF) (s : State) : Host.Outcome State Fault Refusal :=
  laneIssue s (illegalPred f.d) f.sp fun x =>
    let a := x.g.preg x.p f.a.toNat
    x.predAct [] f.d.toNat (x.g.written x.p f.pred.toNat) false fun l => a.getLsbD l

end Sys2Proof.Machine
end

