-- ==== Sys2Proof/Machine/Life.lean ====
section
/-! DEFINITION. The life of paths and groups: JOIN, EXIT, group exit and the freeing of slots (R286,
R287), barrier arrival (R292), debug stops (R253) and the fetch rights of R165 and R289. -/

namespace Sys2Proof.Machine

/-! ## Code (R165, R289) -/

/-- Whether slot i of a grid may serve a slice's instruction fetch: it holds `ENTRY` or `HANDLER`, or
`AENTRY` for the access slice. -/
def State.codeSlot (s : State) (gr : Grid) (access : Bool) (i : Nat) : Bool :=
  let at? (a : W64) : Bool := a != 0 && s.slotCovers gr 0 a.toNat 1 i
  if access then at? gr.desc.aentry else s.slotCovers gr 0 gr.desc.entry.toNat 1 i || at? gr.desc.handler

/-- Whether [va, va + n) may be fetched as code of a slice (R165). -/
def State.mayFetch (s : State) (gr : Grid) (access : Bool) (va n : Nat) : Bool :=
  va + n ≤ 2 ^ 52 && (List.range 16).any fun i => s.codeSlot gr access i && s.slotCovers gr 1 va n i

/-- The fault of a transfer to address a (R275 code 6, R289): class, address, detail. The parcel there is as long as bit 0 of its
first halfword says (R260). -/
def IssueCtx.targetFault (x : IssueCtx) (a : W64) : Option (Nat × W64 × Nat) :=
  let may (n : Nat) : Bool := x.s.mayFetch x.gr false a.toNat n
  let first := x.s.virtRead x.g.ctx a.toNat 1
  if a.getLsbD 0 || fld a 52 12 != 0 then some (1, 0, 6)
  else if !may 2 || (first % 2 == 1 && !may 4) then some (3, a, 0)
  else if first % 64 != 63 then some (1, 0, 6)
  else none

/-- Transfer to address a, or the trap of R289. -/
def IssueCtx.transfer (x : IssueCtx) (s : State) (a : W64) : Act :=
  match x.targetFault a with
  | some (cls, va, det) => .trap cls va det
  | none => .jump s a

/-! ## Paths (R284 to R287) -/

/-- Whether path q is a child of path i. -/
def Group.isChild (g : Group) (i q : Nat) : Bool := (g.path q).valid && (g.path q).linkv && (g.path q).link == i

/-- Whether path i has a child. -/
def Group.hasChild (g : Group) (i : Nat) : Bool := (List.range 8).any fun q => g.isChild i q

/-- Free path i: its children take its LINK and LINKV (R287). -/
def Group.freePath (g : Group) (i : Nat) : Group :=
  let p := g.path i
  let paths := (List.range 8).map fun q =>
    if q = i then ({} : Path)
    else if g.isChild i q then { g.path q with link := p.link, linkv := p.linkv } else g.path q
  { g with paths }

/-- A path that waits at a JOIN goes on at the next clause. -/
def Path.passJoin (p : Path) : Path := { p with wait := .none, pc := p.pc + 4, left := 0 }

/-- A path that waited at an instruction retires it: it goes on at the next parcel. -/
def Path.wake (p : Path) : Path := { p with wait := .none, pc := p.pc + 4, left := p.left - 1 }

/-- What a path that waits at a JOIN does: nothing, merge into a parent, or pass (R286). -/
inductive JoinStep where
  | stay
  | merge (parent : Nat)
  | pass
  deriving DecidableEq, Repr

def Group.joinStep (g : Group) (i : Nat) : JoinStep :=
  let p := g.path i
  let q := g.path p.link
  if g.hasChild i then .stay
  else if p.linkv then
    if q.wait = .join then (if q.pc = p.pc then .merge p.link else .pass) else .stay
  else .pass

/-- Re-evaluate every path that waits at a JOIN until none moves (R286). -/
def State.settleJoins (s : State) (core slot : Nat) : Nat → State
  | 0 => s
  | n + 1 =>
    match s.group? core slot with
    | none => s
    | some g =>
      let at? (i : Nat) : Bool := (g.path i).valid && (g.path i).wait == .join && g.joinStep i != .stay
      match (List.range 8).find? at? with
      | none => s
      | some i =>
        let s := match g.joinStep i with
          | .merge q =>
            (s.updGroup core slot fun g =>
              (g.updPath q fun p => { p with mask := p.mask ||| (g.path i).mask, past := (p.past ++ (g.path i).past).eraseDups }).freePath i).tracePath
                core slot q 2 1 0
          | _ => s.updPath core slot i Path.passJoin
        s.settleJoins core slot n

/-! ## Barriers (R291, R292) -/

def Team.bar (t : Team) (b : Nat) : Barrier := t.bars.get {} b
def Team.setBar (t : Team) (b : Nat) (x : Barrier) : Team := { t with bars := SMap.set {} t.bars b x }

/-- Whether every unexited path of a group has executed BAR or BARA on a barrier in this phase. -/
def Group.allArrived (g : Group) (x : Barrier) : Bool :=
  (List.range 8).all fun i => !(g.path i).valid || x.paths.contains (g.num, i)

/-- A group arrives at a barrier; an explicit count of the phase's first such arrival stands (R292, R293). -/
def Barrier.arrive (x : Barrier) (num : Nat) (count : Nat) : Barrier :=
  { x with groups := x.groups ++ [num], arrivals := x.arrivals + 1
           expected := if x.expected = 0 then count else x.expected }

/-- Barriers a group has come to by the exit of its last path that had not executed them. -/
def State.settleBarriers (s : State) (core slot : Nat) : State :=
  match s.group? core slot with
  | none => s
  | some g =>
    (List.range 16).foldl (fun s b => s.updTeam g.team fun t =>
      let x := t.bar b
      if !g.done && !x.groups.contains g.num && (x.paths.any fun e => e.1 == g.num) && g.allArrived x
      then t.setBar b (x.arrive g.num 0) else t) s

/-! ## Groups (R287) -/

/-- Operations whose results nobody waits for once their group has exited. -/
def OpKind.isLoad : OpKind → Bool
  | .load _ _ | .loadQ _ _ | .uload _ | .dload _ | .pref | .ldsp _ _ | .aldq _ => true
  | _ => false

/-- A context leaves a core: its slot, its result-table entries, registers and translations go (R202, R205, R211). A register that an
instruction in a bank's queue still reads goes with its last reference (R204). -/
def Core.freeCtx (c : Core) (ctx : Nat) : Core :=
  let held := c.banks.flatMap fun (_, b) => b.q.flatMap MOp.refs
  { c with slots := c.slots.filter fun (_, x) => x.ctx ≠ ctx
           rt := c.rt.filter fun t => t.ctx ≠ ctx
           pvrs := (c.pvrs.filter fun (k, p) => p.ctx ≠ ctx ∨ held.contains k).map fun (k, p) =>
             (k, if p.ctx = ctx then { p with pinned := false, count := held.count k } else p)
           tlb := c.tlb.filter fun t => t.ctx ≠ ctx }

/-- The key of a context slot's part of its cluster's L2 TLB (R167). -/
def State.l2tlbKey (s : State) (core ctx : Nat) : Option Nat :=
  ((s.core core).ctxSlot ctx).map fun (i, _) => 8 * core + i

/-- A context's slot of a core is freed, and the slot's part of the cluster's L2 TLB with it (R167, R202). -/
def State.freeSlotOf (s : State) (core ctx : Nat) : State :=
  let s := match s.l2tlbKey core ctx with
    | some k => { s with msys := { s.msys with l2tlb := s.msys.l2tlb.erase k } }
    | none => s
  s.updCore core fun c => c.freeCtx ctx

/-- Remove a group from its slot: its registers are released, its context's slot is freed with the last group of
the context, and its quarter's standing quantum with the last group of the quarter (R141). The room it leaves starts a round
(R121). -/
def State.dropGroup (s : State) (core slot : Nat) : State :=
  match s.group? core slot with
  | none => s
  | some g =>
    let s := s.updCore core fun c =>
      let c := g.vname.foldl (fun c (_, e) => c.release g.wc e) c
      { c with groups := c.groups.erase slot, gens := SMap.set 0 c.gens slot g.gen }
    let s := if (s.core core).groups.any fun (_, h) => h.ctx == g.ctx then s else s.freeSlotOf core g.ctx
    let s := s.askRound (s.ctxPart g.ctx)
    if (s.core core).groups.any fun (_, h) => h.quarter == g.quarter then s
    else (s.slewFree .quarter core g.quarter).slewForget .quarter core g.quarter

/-- The slot of an exited group is freed once GST, SPW and CPY are zero (R287); an unreported deferred
write-back fault stays with the team (R140). -/
def State.tryFree (s : State) (core slot : Nat) : State :=
  match s.group? core slot with
  | none => s
  | some g =>
    if g.done && g.ctr 1 == 0 && g.ctr 3 == 0 && g.ctr 4 == 0 then
      let bad := g.tokens.find? fun (_, t) => t.wbFault.isSome
      let s := match bad with
        | some (_, t) => s.updTeam g.team fun m =>
            if m.orphan.isSome then m else { m with orphan := some (s.faultRec core g 0 0 t.pc 14 (t.wbFault.getD 0) 0) }
        | none => s
      s.dropGroup core slot
    else s

/-- A group exits (R287). -/
def State.groupExit (s : State) (core slot : Nat) : State :=
  match s.group? core slot with
  | none => s
  | some g =>
    let s := { s with ops := s.ops.filter fun (_, o) => !(o.ofGroup core slot g && o.kind.isLoad) }
    let s := s.updGroup core slot fun g => { g with done := true, acc := none }.clrGsr 3
    let s := s.updTeam g.team fun t => { t with exits := t.exits ++ [g.num] }
    s.tryFree core slot

/-- Lanes leave a path; an empty path is freed, and a group without paths exits (R287). -/
def State.exitLanes (s : State) (core slot path : Nat) (lanes : W64) : State :=
  match s.group? core slot with
  | none => s
  | some g =>
    let m := (g.path path).mask &&& ~~~lanes
    if m ≠ 0 then
      s.updGroup core slot fun g => { g with exited := g.exited ||| lanes }.updPath path fun p => { p with mask := m }
    else
      let s := s.tracePath core slot path 3 0 0
      let s := s.updGroup core slot fun g => { g with exited := g.exited ||| lanes }.freePath path
      let s := s.updTeam g.team fun t =>
        { t with bars := t.bars.map fun (b, x) =>
            (b, { x with paths := if x.groups.contains g.num then x.paths else x.paths.filter fun e => e ≠ (g.num, path) }) }
      let s := (s.settleJoins core slot 16).settleBarriers core slot
      match s.group? core slot with
      | none => s
      | some g => if g.paths.any fun p => p.valid then s else s.groupExit core slot

/-- The 64 bytes of a fault record, as one little-endian number (R138). -/
def FaultRec.image (r : FaultRec) : BitVec 512 :=
  BitVec.ofNat 512 (r.cls % 2 ^ 16 + r.path % 256 * 2 ^ 16 + r.grp % 256 * 2 ^ 24 + r.ctx % 2 ^ 16 * 2 ^ 32
    + (if r.trapped then 1 else 0) * 2 ^ 48 + r.team % 2 ^ 64 * 2 ^ 64 + r.pc.toNat * 2 ^ 128 + r.mask.toNat * 2 ^ 192
    + r.time % 2 ^ 64 * 2 ^ 256 + r.va.toNat * 2 ^ 320 + r.detail % 2 ^ 64 * 2 ^ 384 + r.further % 2 ^ 32 * 2 ^ 448)

/-! ## Debug stops (R253) -/

/-- Stop one path, with its kind-6 record. -/
def State.stopPath (s : State) (core slot path det : Nat) (arg : W64) : State :=
  match s.group? core slot with
  | none => s
  | some g =>
    if (g.path path).valid && !(g.path path).dstop then
      (s.updPath core slot path fun p => { p with dstop := true }).tracePath core slot path 6 det arg
    else s

/-- Stop every unexited path of a group. -/
def State.stopGroup (s : State) (core slot det : Nat) (arg : W64) : State :=
  (List.range 8).foldl (fun s i => s.stopPath core slot i det arg) s

/-- The cores and slots of a team's groups. -/
def State.groupsOf (s : State) (team : Nat) : List (Nat × Nat) :=
  s.cores.flatMap fun (c, k) => (k.groups.filter fun (_, g) => g.team == team).map fun (sl, _) => (c, sl)

/-- Apply the stop of a scope to a path (R253). -/
def State.debugStop (s : State) (core slot path scope det : Nat) (arg : W64) : State :=
  match s.group? core slot with
  | none => s
  | some g =>
    let s := s.stopPath core slot path det arg
    if scope = 0 then s
    else if scope = 1 then s.stopGroup core slot 2 arg
    else (s.groupsOf g.team).foldl (fun s (c, sl) => s.stopGroup c sl 3 arg) s

end Sys2Proof.Machine
end

