-- ==== Sys2Proof/Machine/Scratch.lean ====
section
/-! DEFINITION. A team's scratchpad and what lane accesses do to bytes: lines of regions, stores and atomics of several lanes
(R153, R159 to R161, R176, R339, R340). -/

namespace Sys2Proof.Machine

/-! ## Lanes and bytes (R176, R335, R338) -/

/-- The 4 KiB pages of [va, va + n). -/
def pagesOf (va n : Nat) : List Nat := if n = 0 then [] else (List.range ((va + n - 1) / 4096 - va / 4096 + 1)).map fun i => va / 4096 + i

/-- The lines that some lane accesses touch, each once. -/
def touchedLines (ls : List LaneAcc) (size : Nat) : List Nat := (ls.flatMap fun l => linesOf l.addr size).eraseDups

/-- The pages that some lane accesses touch, each once. -/
def touchedPages (ls : List LaneAcc) (size : Nat) : List Nat := (ls.flatMap fun l => pagesOf l.addr size).eraseDups

/-- One of some lanes, as the free value of a store chooses for a number. -/
def oneOf (ls : List LaneAcc) (free n : Nat) : Option LaneAcc :=
  match ls with
  | [] => none
  | [l] => some l
  | l :: m => (l :: m)[Config.choice ((free + 1) * 2 ^ 65 + n) % (m.length + 1)]?

/-- The lane whose byte stands at an address that several lanes store to (R176): the naturally aligned ones leave one
winner for all the bytes they share, and each byte takes that one or a misaligned lane. -/
def storeWinner (ls : List LaneAcc) (free size va : Nat) : Option LaneAcc :=
  let (whole, torn) := (ls.filter fun l => l.addr ≤ va && va < l.addr + size).partition fun l => l.addr % size == 0
  oneOf ((oneOf whole free (2 * (va / size))).toList ++ torn) free (2 * va + 1)

/-- The bytes that lanes store to a line: its mask and data. -/
def storeLine (ls : List LaneAcc) (free size ln : Nat) : BitVec 128 × Line :=
  let mine := ls.filter fun l => l.addr < 128 * ln + 128 && 128 * ln < l.addr + size
  let bs := (List.range 128).filterMap fun i =>
    (storeWinner mine free size (128 * ln + i)).map fun l => (i, (l.x.toNat >>> (8 * (128 * ln + i - l.addr))) % 256)
  (BitVec.ofNat 128 (bs.foldl (fun a (i, _) => a + 2 ^ i) 0), BitVec.ofNat 1024 (bs.foldl (fun a (i, b) => a + b * 2 ^ (8 * i)) 0))

/-- Bytes of a load form (R335). -/
def formBytes (form : Nat) : Nat := [1, 2, 4, 8, 1, 2][form]?.getD 4

/-- The low register's value of a loaded number (R338). -/
def loadLow (form x : Nat) : W32 :=
  if form = 4 then (BitVec.ofNat 8 x).signExtend 32
  else if form = 5 then (BitVec.ofNat 16 x).signExtend 32
  else BitVec.ofNat 32 x

/-! ## Atomics (R340) -/

/-- The size in bytes of an atomic operation (R340). -/
def atomSize (op : Nat) : Nat := if op = 1 ∨ op = 12 ∨ op = 14 then 8 else 4

/-- The new value of an atomic (R340): `x` is the data, or the compare value with `y` the new one. -/
def atomNew (op : Nat) (old x y : W64) : W64 :=
  let a := old.extractLsb' 0 32
  let b := x.extractLsb' 0 32
  let lo (v : W32) : W64 := v.setWidth 64
  match op with
  | 0 => lo (a + b)
  | 1 => old + x
  | 2 => lo (fp32.add 0 a b)
  | 3 => lo (map2H (fp16.add 0) a b)
  | 4 => lo (minS a b)
  | 5 => lo (minZ a b)
  | 6 => lo (maxS a b)
  | 7 => lo (maxZ a b)
  | 8 => lo (a &&& b)
  | 9 => lo (a ||| b)
  | 10 => lo (a ^^^ b)
  | 11 => lo b
  | 12 => x
  | 13 => if a = b then lo (y.extractLsb' 0 32) else lo a
  | _ => if old = x then y else old

/-! ## Scratchpad lines (R159 to R161) -/

/-- A byte of a team's scratchpad. -/
def Team.spByte (t : Team) (off : Nat) : Byte := SMap.get 0 t.sp off

/-- The region that holds a scratchpad line. -/
def Team.regionOf (t : Team) (ln : Nat) : Option (Nat × Region) :=
  t.regions.find? fun (_, r) => r.off / 128 ≤ ln && ln < (r.off + r.len) / 128

/-- The global line of a scratchpad line of a region. -/
def Region.globalLine (r : Region) (ln : Nat) : Nat := (r.va + (128 * ln - r.off)) / 128

/-- Whether a line lies in a region in state I (R161). -/
def Team.lineI (t : Team) (ln : Nat) : Bool := (t.regionOf ln).isSome && (t.lines.find ln).isNone

/-- Whether a line's fill is in flight. -/
def Team.lineFilling (t : Team) (ln : Nat) : Bool := match t.lines.find ln with | some r => r.filling | none => false

/-- Write masked bytes of a scratchpad line; in a region they become dirty (R161). -/
def Team.spWrite (t : Team) (ln : Nat) (mask : BitVec 128) (d : Line) : Team :=
  { t with
    sp := writeMasked t.sp ln mask d 128
    lines := match t.lines.find ln with
      | some r => t.lines.put ln { r with dirty := r.dirty ||| mask }
      | none => t.lines }

/-- Elements of a list in an order that the device chooses (R176). -/
def chosenOrder {α : Type} (free : Nat) : Nat → List α → List α
  | 0, xs => xs
  | n + 1, xs =>
    match xs[Config.choice ((free + 1) * 2 ^ 64 + n) % max 1 xs.length]? with
    | some x => x :: chosenOrder free n (xs.eraseIdx (Config.choice ((free + 1) * 2 ^ 64 + n) % max 1 xs.length))
    | none => xs

/-- Whether two lanes of a list touch common bytes. -/
def anyOverlap (size : Nat) : List LaneAcc → Bool
  | [] => false
  | l :: ls => (ls.any fun m => l.addr < m.addr + size && m.addr < l.addr + size) || anyOverlap size ls

/-- Perform an ATSP's lanes one after another: the team after them, and each lane's old value. -/
def Team.atomics (t : Team) (op size : Nat) : List LaneAcc → Team × List (Nat × W64)
  | [] => (t, [])
  | l :: ls =>
    let old := BitVec.ofNat 64 (readLE t.spByte l.addr size)
    let new := atomNew op old l.x l.y
    let ln := l.addr / 128
    let t := t.spWrite ln (byteMask (l.addr % 128) size) (BitVec.ofNat 1024 (new.toNat % 2 ^ (8 * size) * 2 ^ (8 * (l.addr % 128))))
    let (t, olds) := t.atomics op size ls
    (t, (l.lane, old) :: olds)

/-- Perform a store's lanes on a team's scratchpad. -/
def Team.spStore (t : Team) (ls : List LaneAcc) (free size : Nat) : Team :=
  (touchedLines ls size).foldl (fun t ln =>
    let (k, d) := storeLine ls free size ln
    t.spWrite ln k d) t

/-- What an ATSP's lanes find, in the order that the device chooses where they meet (R176). -/
def Team.spAtomics (t : Team) (op size free : Nat) (ls : List LaneAcc) : Team × List (Nat × W64) :=
  t.atomics op size (if anyOverlap size ls then chosenOrder free ls.length ls else ls)

/-- What a load's lanes find. -/
def Team.spLoad (t : Team) (ls : List LaneAcc) (size : Nat) : List (Nat × W64) :=
  ls.map fun l => (l.lane, BitVec.ofNat 64 (readLE t.spByte l.addr size))

/-- A line that was being filled has its bytes: V, or D where some of them are dirty, which stay (R161). -/
def Team.fillLine (t : Team) (ln : Nat) (d : Line) : Team :=
  match t.lines.find ln with
  | none => t
  | some r => { t with lines := t.lines.put ln { r with filling := false, keep := 0 }, sp := writeMasked t.sp ln (~~~(r.dirty ||| r.keep)) d 128 }

/-- A line whose fill has failed stays I, or D where it was. -/
def Team.unfillLine (t : Team) (ln : Nat) : Team :=
  match t.lines.find ln with
  | none => t
  | some r =>
    if !r.filling then t
    else { t with lines := if r.dirty = 0 then t.lines.erase ln else t.lines.put ln { r with filling := false, keep := 0 } }

/-- Whether lanes touch the other core of a pair team (R153, R180). -/
def Team.isFar (t : Team) (core : Nat) (ls : List LaneAcc) (size : Nat) : Bool :=
  t.pair && ls.any fun l => l.addr / 2 ^ 18 != core % 2 || (l.addr + size - 1) / 2 ^ 18 != core % 2

/-- The cores that hold groups of a team. -/
def State.teamCores (s : State) (team : Nat) : List Nat := ((s.groupsOf team).map Prod.fst).eraseDups

/-- A write to scratchpad pages of a team: load entries that record them go, on each of its cores, and loads in flight enter no
table (R192, R211). -/
def State.touchSp (s : State) (team : Nat) (pages : List Nat) : State :=
  let s := (s.teamCores team).foldl (fun s c => s.updCore c fun k => pages.foldl (fun k p => k.dropSpPage team p) k) s
  { s with ops := s.ops.map fun (i, (o : Op)) =>
      (i, if o.key.any fun k => k.sp == some team && k.pages.any pages.contains then { o with key := none } else o) }

end Sys2Proof.Machine
end

