-- ==== Sys2Proof/Machine/Requests.lean ====
section
/-! DEFINITION. Operations in flight: their packets, the translation caches, L1, and what an operation does
when its last packet returns (R39, R156, R165 to R167, R174, R180, R185, R211, R264, R337). -/

namespace Sys2Proof.Machine

/-! ## Translation caches (R167) -/

/-- Whether an entry translates an address of a context. -/
def TlbEnt.hits (t : TlbEnt) (ctx va : Nat) : Bool := t.ctx == ctx && va / pageBytes t.size == t.page

/-- Add an entry among those that `p` accepts, at most `n` of which stand; the least recently used goes. -/
def tlbAdd (n : Nat) (p : TlbEnt → Bool) (ts : List TlbEnt) (e : TlbEnt) : List TlbEnt :=
  let ts := ts.filter fun t => !(t.ctx == e.ctx && t.page == e.page && t.size == e.size)
  let mine := ts.filter p
  let ts := if mine.length < n then ts else
    match leastBy TlbEnt.used mine with
    | some o => ts.filter fun t => t != o
    | none => ts
  ts ++ [e]

/-- The cached translation of an address at a core: its leaf and page size. -/
def State.cached (s : State) (core ctx va : Nat) : Option TlbEnt :=
  match (s.core core).tlb.find? fun t => t.hits ctx va with
  | some t => some t
  | none =>
    match s.l2tlbKey core ctx with
    | some k => (s.msys.l2tlb.get [] k).find? fun t => t.hits ctx va
    | none => none

/-- Install a translation in both TLBs of a core, or mark it used. -/
def State.install (s : State) (core ctx va : Nat) (leaf : W64) (size : Nat) : State :=
  match s.l2tlbKey core ctx with
  | none => s
  | some k =>
    let e : TlbEnt := { ctx, page := va / pageBytes size, size, leaf, used := s.stamp }
    let s := s.updCore core fun c => { c with tlb := tlbAdd 8 (fun t => t.ctx == ctx) c.tlb e }
    { s.bump with msys := { s.msys with
        l2tlb := s.msys.l2tlb.put k (tlbAdd 8 (fun t => t.page % 16 == e.page % 16) (s.msys.l2tlb.get [] k) e) } }

/-- The leaf that an access will use: a cached one, or what a walk gives (R166). -/
def State.leafOf (s : State) (core ctx va : Nat) : Option (W64 × Nat) :=
  match s.cached core ctx va with
  | some t => some (t.leaf, t.size)
  | none => s.walk ctx va

/-- What a leaf lacks for an access: nothing, the mapping, or a right (R165, R166). The need is 1 read,
2 write, 3 both. -/
def leafFault (l : Option (W64 × Nat)) (need : Nat) : Option Nat :=
  match l with
  | none => some 1
  | some (e, _) => if (need % 2 = 1 && !e.getLsbD 1) || (2 ≤ need && !e.getLsbD 2) then some 0 else none

/-! ## L1 (R156, R172) -/

/-- A line of L1 that a server group may hit. -/
def Core.l1Find (c : Core) (sg line : Nat) : Option L1Line := c.l1.find? fun l => l.line == line && l.sg == sg

/-- Allocate a line in one of a group's ways; the least recently used of them goes. -/
def Core.l1Alloc (c : Core) (mask : BitVec 8) (sg line : Nat) (d : Line) (poison : BitVec 16) (stamp : Nat) : Core :=
  let c := { c with l1 := c.l1.filter fun l => !(l.line == line && l.sg == sg) }
  let ways := (List.range 8).filter fun w => mask.getLsbD w
  let inSet (w : Nat) := c.l1.find? fun l => l.line % 128 == line % 128 && l.way == w
  let take (w : Nat) : Core :=
    { c with l1 := (c.l1.filter fun l => !(l.line % 128 == line % 128 && l.way == w)) ++
        [{ line, way := w, sg, data := d, poison, used := stamp, born := stamp }] }
  match ways.find? fun w => (inSet w).isNone with
  | some w => take w
  | none =>
    match leastBy (fun w => match inSet w with | some l => l.used | none => 0) ways with
    | some w => take w
    | none => c

/-- A store updates a hitting L1 line of its server group (R156). -/
def Core.l1Store (c : Core) (sg line : Nat) (mask : BitVec 128) (d : Line) : Core :=
  { c with
    l1 := mapIf (fun l => l.line == line && l.sg == sg)
      (fun (l : L1Line) => { l with data := Line.merge mask d l.data, poison := poisonAfter l.poison 0 mask }) c.l1 }

/-! ## Result-table watches (R211) -/

/-- A write of a context to some pages by a core: load entries that record them go, and loads in flight
that touched them are not inserted. -/
def State.touchPages (s : State) (core ctx : Nat) (pages : List Nat) : State :=
  let s := s.updCore core fun c => pages.foldl (fun c p => c.dropPage ctx p) c
  { s with ops := s.ops.map fun (i, o) =>
      (i, if o.core = core ∧ o.ctx = ctx ∧ (o.key.any fun k => k.sp.isNone && k.pages.any pages.contains)
          then { o with key := none } else o) }

/-! ## The end of an operation (R174, R264, R337) -/

/-- Whether a kind of operation is a scratchpad access in flight, and whether it writes there. -/
def OpKind.isSp : OpKind → Bool
  | .ldsp _ _ | .stsp | .atsp _ _ => true
  | _ => false
def OpKind.spWrites : OpKind → Bool
  | .stsp | .atsp _ _ => true
  | _ => false

/-- The late fault of an operation, raised at its path's next issue, by the access thread at once, or at
team completion if its group has exited (R337, R359). A write-back that fails is class 13: at its token's
FWAIT if a release began it, else late (R140, R337). -/
def State.addLate (s : State) (o : Op) (cls : Nat) (va : W64) (detail : Nat) : State :=
  let cls := match o.kind with | .wb _ => 13 | _ => cls
  let orphan : State := s.updTeam o.team fun t =>
    if t.orphan.isSome then t else
      { t with orphan := some { cls, path := o.path, grp := o.grp, ctx := o.ctx, team := t.idx, pc := o.pc, time := s.now, va, detail, core := o.core } }
  match s.group? o.core o.slot with
  | none => orphan
  | some g =>
    if !o.ofGroup o.core o.slot g then orphan
    else match o.kind with
    | .wb (some t) => s.updGroup o.core o.slot fun g =>
        { g with tokens := g.tokens.put t { (g.tokens.get {} t) with wbFault := some ((g.tokens.get {} t).wbFault.getD va) } }
    | _ =>
    if g.done then orphan
    else if o.path = 255 then s.accessFault o.core o.slot o.pc cls va detail
    else s.updGroup o.core o.slot fun g => { g with late := g.late ++ [{ cls, path := o.path, pid := o.pid, pc := o.pc, va, detail }] }

/-- An access-slice store of a group has performed: the flag counts that ASIG raised for it fall (R358). -/
def Group.storeDone (g : Group) (id : Nat) : Group :=
  match g.acc with
  | none => g
  | some a =>
    let sigs := a.sigs.map fun y => { y with ops := y.ops.erase id }
    let fallen := sigs.filter fun y => y.ops.isEmpty
    fallen.foldl (fun g y => g.subFlag y.flag) { g with
      acc := some { a with stores := a.stores.erase id, sigs := sigs.filter fun y => !y.ops.isEmpty } }

/-- The copy that a failed chunk write belongs to drops the chunks that have not started (R350). -/
def Core.cutCopy (c : Core) (id : Nat) : Core :=
  { c with copies := c.copies.map fun (i, y) => (i, if y.id = id then { y with len := y.pos } else y) }

/-- An operation is over: its counter and flag fall, and its late fault stands if it failed. -/
def State.closeOp (s : State) (id : Nat) : State :=
  match s.ops.find id with
  | none => s
  | some o =>
    let s := { s with ops := s.ops.erase id }
    let s := if o.pages.isEmpty then s else s.touchPages o.core o.ctx o.pages
    let s := match o.fail with
      | some (cls, va, det) => s.addLate o cls va det
      | none => s
    let s := match o.kind with
      | .copyWrite c => if o.fail.isSome then s.updCore o.core fun k => k.cutCopy c else s
      | .traceWrite => if o.fail.isSome then s else
          { s with mon := { s.mon with performed := s.mon.performed.put o.ctx (s.mon.performed.get 0 o.ctx + 1) } }
      | _ => s
    match s.group? o.core o.slot with
    | none => s
    | some g =>
      if o.ofGroup o.core o.slot g then
        (s.updGroup o.core o.slot fun g =>
          let g := match o.kind with | .astq => g.storeDone id | _ => g
          let g := match o.ctr with | some c => g.lower c id | none => g
          match o.flag with | some f => g.subFlag f | none => g).tryFree o.core o.slot
      else s

/-- The data of an operation that stands on has returned: its counter falls (R174). -/
def State.returned (s : State) (id : Nat) : State :=
  match s.ops.find id with
  | none => s
  | some o =>
    match o.ctr with
    | none => s
    | some c =>
      let s := match s.group? o.core o.slot with
        | some g => if o.ofGroup o.core o.slot g then s.updGroup o.core o.slot fun g => g.lower c id else s
        | none => s
      { s with ops := s.ops.put id { o with ctr := none } }

/-- A byte that has returned. -/
def Op.byte (o : Op) (va : Nat) : Byte := (o.got.get 0 (va / 128)).byte (va % 128)

/-- The little-endian number in n bytes that have returned. -/
def Op.readN (o : Op) (va n : Nat) : Nat := readLE o.byte va n

/-- The lanes of an operation as a mask. -/
def Op.mask (o : Op) : W64 := BitVec.ofNat 64 (o.lanes.foldl (fun a l => a ||| 2 ^ l.lane) 0)

/-- What a load brings to each lane: a function of the number at the lane's address. -/
def Op.laneVals (o : Op) (n : Nat) (f : Nat → W32) : List (Nat × W32) := o.lanes.map fun l => (l.lane, f (o.readN l.addr n))

def laneVal (vs : List (Nat × W32)) (i : Nat) : W32 := match vs.find? fun v => v.1 == i with | some v => v.2 | none => 0

/-- The result-table entry that a load inserts as it writes its register: none once an event has taken its key, or a register
that the key names has been freed or reclaimed (R204, R210, R211). -/
def State.entryOf (s : State) (o : Op) : Option RtEntry :=
  if o.named.all fun (k, b) => ((s.core o.core).pvrs.find k).any fun p => p.born == b then o.key else none

/-- Write lanes of V register d of an operation's group; nothing where the write must stall (R203). A saved value of the
register that has no place yet keeps its other lanes (R207). Lanes that a younger instruction has written stay (R308). -/
def State.writeLanes (s : State) (o : Op) (d : Nat) (vs : List (Nat × W32)) : Option State :=
  match s.group? o.core o.slot with
  | none => none
  | some g =>
    let mask := o.mask &&& ~~~(o.skipOf d)
    if mask = 0 then some s
    else match g.unplaced.find d with
    | none => (s.writeV o.core o.slot d (VReg.merge g.w mask (laneVal vs) (g.vreg d)) (s.entryOf o)).map Prod.fst
    | some old => (s.writeV o.core o.slot d (VReg.merge g.w mask (laneVal vs) old)).map fun (t, _, _) =>
        t.updGroup o.core o.slot fun g => { g with unplaced := g.unplaced.erase d }

/-- Write what each lane of an operation has found: its low part, and with `two` the word above it to the next register; or one entry
of the queue that d names. -/
def State.bindOlds (s : State) (o : Op) (d : Nat) (low : W64 → W32) (two : Bool) : Option State :=
  let vals (f : W64 → W32) : List (Nat × W32) := o.lanes.map fun l => (l.lane, f (o.olds.get 0 l.lane))
  let desc := match s.group? o.core o.slot with | some g => s.descOf g | none => {}
  match queueOf desc.qmask d with
  | some q => some (s.updGroup o.core o.slot fun g =>
      g.setQueue q { (g.queue q).push desc.qdepth g.w o.mask (VReg.ofFn g.w (laneVal (vals low))) with fills := (g.queue q).fills - 1 })
  | none =>
    match s.writeLanes o d (vals low) with
    | none => none
    | some s => if two then s.writeLanes o (d + 1) (vals fun x => x.extractLsb' 32 32) else some s

/-- The register writes of a load or an atomic with return, all or none. -/
def State.bindRegs (s : State) (o : Op) : Option State :=
  match o.kind with
  | .load d form =>
    let n := formBytes form
    match s.writeLanes o d (o.laneVals n (loadLow form)) with
    | none => none
    | some s => if form = 3 then s.writeLanes o (d + 1) (o.laneVals n fun x => BitVec.ofNat 32 (x / 2 ^ 32)) else some s
  | .atom d op | .atsp d op => s.bindOlds o d (fun x => x.extractLsb' 0 32) ((atomRegs d op).length == 2)
  | .ldsp d form => s.bindOlds o d (fun x => loadLow form x.toNat) (form == 3)
  | _ => some s

/-- Whether an operation fills a queue entry of queue q (R338, R358). -/
def OpKind.fills (k : OpKind) (q : Nat) : Bool :=
  match k with
  | .loadQ p _ => p == q
  | .aldq p => p == q
  | _ => false

/-- Push the entries of queue q whose data has returned, oldest operation first (R338, R358). -/
def State.settleQueue (s : State) (core slot q : Nat) : Nat → State
  | 0 => s
  | n + 1 =>
    match s.group? core slot with
    | none => s
    | some g =>
      match s.ops.find? fun (_, o) => o.ofGroup core slot g && o.kind.fills q with
      | none => s
      | some (id, o) =>
        if o.left ≠ 0 then s
        else
          let vs := match o.kind with
            | .loadQ _ form => o.laneVals (formBytes form) (loadLow form)
            | _ => o.laneVals 4 (BitVec.ofNat 32)
          let depth := (s.grid g.grid).desc.qdepth
          let s := if o.fail.isSome then s.updGroup core slot fun g => g.setQueue q { (g.queue q) with fills := (g.queue q).fills - 1 }
            else s.updGroup core slot fun g =>
              g.setQueue q { (g.queue q).push depth g.w o.mask (VReg.ofFn g.w (laneVal vs)) with fills := (g.queue q).fills - 1 }
          (s.closeOp id).settleQueue core slot q n

/-- The direction that a memory image holds (R382). -/
def dirFromImage (w : Nat) (comps : VReg) (norm : BitVec 16) : DReg × Bool :=
  let d : DReg := { comps, norm }
  if d.isZero then (dZero, false)
  else if d.isUndef then (dUndef, false)
  else
    let us := (List.range (2 * w)).map d.comp
    let sq : Nat := us.foldl (fun a u => a + (u * u).toNat) 0
    if 2 ^ 30 - 2 ^ 20 ≤ sq ∧ sq ≤ 2 ^ 30 then (d, false) else renorm us norm.toInt

/-- The result of a load or an atomic is written, or waits for a place (R203); nobody waits for that of a group that has exited. -/
def State.bindResult (s : State) (id : Nat) (o : Op) : State :=
  match s.group? o.core o.slot with
  | none => s.closeOp id
  | some g =>
    if o.fail.isSome ∨ !o.ofGroup o.core o.slot g ∨ g.done then s.closeOp id
    else match s.bindRegs o with
      | some s => s.closeOp id
      | none => s.returned id

/-! ## Scratchpad accesses and fills in flight (R161, R180, R192, R339, R348) -/

/-- A scratchpad access in flight performs: all its lanes at once. -/
def State.performSp (s : State) (id : Nat) (o : Op) (t : Team) : State :=
  let s := s.chose
  let (t', olds) := match o.kind with
    | .stsp => (t.spStore o.lanes s.free o.size, [])
    | .atsp _ op => t.spAtomics op o.size s.free o.lanes
    | _ => (t, t.spLoad o.lanes o.size)
  let s := if o.kind.spWrites then (s.updTeam o.team fun _ => t').touchSp o.team (touchedPages o.lanes o.size) else s
  let key := match s.ops.find id with | some o => o.key.map fun k => { k with epoch := (s.core o.core).epoch } | none => none
  let o := { o with left := 0, olds := olds.foldl (fun (m : SMap W64) e => m.put e.1 e.2) o.olds, key }
  ({ s with ops := s.ops.put id o } : State).bindResult id o

/-- A scratchpad access in flight performs once its lines are filled and the other core has acknowledged it; where its fill has
failed it does not perform. -/
def State.trySp (s : State) (id : Nat) : State :=
  match s.ops.find id with
  | none => s
  | some o =>
    match s.team? o.team with
    | none => s.closeOp id
    | some t =>
      if o.left ≠ 1 ∨ o.lines.any t.lineFilling then s
      else if o.lines.any t.lineI then s.closeOp id
      else s.performSp id o t

/-- The other core of a pair acknowledges a scratchpad access (R180). -/
def State.spadGoes (s : State) (id : Nat) : State :=
  ({ s with ops := s.ops.upd id fun o => { o with left := min o.left 1 } } : State).trySp id

/-- The data of a global line has come to a fill: its scratchpad lines are V, or stay D, and with each the core's acquire epoch
advances (R161, R187, R192, R348). -/
def State.fillLine (s : State) (o : Op) (gl : Nat) (d : Line) : State :=
  match s.team? o.team with
  | none => s
  | some t =>
    let lns := o.lines.filter fun ln => t.lineFilling ln && (t.regionOf ln).any fun (_, r) => r.globalLine ln == gl
    lns.foldl (fun s ln => ((s.updTeam o.team fun t => t.fillLine ln d).touchSp o.team [ln / 32]).updCore o.core Core.advance) s

/-- A fill is over: a line that has not come stays as it was, and the accesses that waited for its lines go on (R161). -/
def State.endFill (s : State) (id : Nat) (o : Op) : State :=
  let mine (ln : Nat) : Bool := !(s.ops.any fun (k, q) => k != id && q.kind == .fill && q.team == o.team && q.lines.contains ln)
  let s := (s.updTeam o.team fun t => (o.lines.filter mine).foldl Team.unfillLine t).closeOp id
  s.ops.foldl (fun s (k, q) => if q.kind.isSp && q.team == o.team then s.trySp k else s) s

/-- A COLL's descriptor has been read, or its read has failed (R355). -/
def State.descRead (s : State) (id : Nat) (o : Op) : State :=
  let got : CollDesc := match o.fail, o.lanes with
    | some (cls, va, det), _ => .failed cls va det
    | none, l :: _ => .bytes (o.readN l.addr 64)
    | none, [] => .reading
  let s := match s.group? o.core o.slot with
    | some g => if o.ofGroup o.core o.slot g then
        s.updPath o.core o.slot o.path fun p => if p.desc = some CollDesc.reading ∧ p.born = o.pid then { p with desc := some got } else p
      else s
    | none => s
  { s with ops := s.ops.erase id }

/-- The last packet of an operation has returned. An operation whose engine consumes its data stays until
then; one that cannot place its result stays for the next trial (R203). -/
def State.finishOp (s : State) (id : Nat) : State :=
  match s.ops.find id with
  | none => s
  | some o =>
    match o.kind with
    | .load _ _ | .atom _ _ | .ldsp _ _ | .atsp _ _ => s.bindResult id o
    | .descRead => s.descRead id o
    | .walkRead u => { s with turns := .walk u :: s.turns }
    | .loadQ q _ | .aldq q => s.settleQueue o.core o.slot q 64
    | .uload d =>
      if o.fail.isSome then s.closeOp id
      else match o.lanes with
        | l :: _ =>
          let v := BitVec.ofNat 32 (o.readN l.addr 4)
          match s.group? o.core o.slot with
          | some g => (if o.ofGroup o.core o.slot g then s.updGroup o.core o.slot fun g => g.setS d v else s).closeOp id
          | none => s.closeOp id
        | [] => s.closeOp id
    | .dload _ =>
      match s.group? o.core o.slot, o.lanes with
      | some g, l :: _ =>
        if o.fail.isSome then
          (s.updGroup o.core o.slot fun g => { g with dpipe := g.dpipe.filter fun w => w.op ≠ id }).closeOp id
        else
          let comps := VReg.ofFn g.w fun i => BitVec.ofNat 32 (o.readN (l.addr + 4 * i) 4)
          let (v, dov) := dirFromImage g.w comps (BitVec.ofNat 16 (o.readN (l.addr + 4 * g.w) 2))
          s.updGroup o.core o.slot fun g => { g with dpipe := mapIf (fun w => w.op == id) (fun w => { w with val := v, dov, ready := true }) g.dpipe }
      | _, _ => s.closeOp id
    | .fill => s.endFill id o
    | .mld => s.returned id
    | .copyRead | .collRead | .portRead none | .portWrite none => s
    | .image t => { s with turns := .image id t :: s.turns }
    | .portRead (some q) | .portWrite (some q) => { s with turns := .port q :: s.turns }
    | .store | .red | .pref | .stsp | .wb _ | .astq | .mst | .copyWrite _ | .scrub _ | .collWrite _ | .traceWrite => s.closeOp id

/-- One packet of an operation is over. -/
def State.pktDone (s : State) (id : Nat) : State :=
  match s.ops.find id with
  | none => s
  | some o =>
    let s := { s with ops := s.ops.put id { o with left := o.left - 1 } }
    if o.left ≤ 1 then s.finishOp id else s

/-- A packet of an operation fails: the first failure stands. -/
def State.pktFail (s : State) (id cls : Nat) (va : W64) (detail : Nat) : State :=
  ({ s with ops := s.ops.upd id fun o => if o.fail.isSome then o else { o with fail := some (cls, va, detail) } }).pktDone id

/-- Whether an operation reads bytes of a poisoned word of a line. -/
def Op.meetsPoison (o : Op) (ln : Nat) (poison : BitVec 16) : Bool :=
  poison != 0 && (o.lanes.isEmpty || o.lanes.any fun l =>
    (List.range 16).any fun i => poison.getLsbD i && decide (l.addr < 128 * ln + 8 * i + 8 ∧ 128 * ln + 8 * i < l.addr + o.size))

/-- A line returns to an operation: its value is bound (R180). The epoch of an eligible load is the one in
which its lines are bound; a load bound in two is not inserted (R192). -/
def State.bindLine (s : State) (id ln : Nat) (d : Line) (poison : BitVec 16) : State :=
  match s.ops.find id with
  | none => s
  | some o =>
    let ep := (s.core o.core).epoch
    let key := match o.key with
      | some k => if o.got.isEmpty then some { k with epoch := ep } else if k.epoch = ep then some k else none
      | none => none
    let s := { s with ops := s.ops.put id { o with got := o.got.put ln d, key } }
    if o.meetsPoison ln poison then s.pktFail id 6 (BitVec.ofNat 64 (128 * ln)) 0
    else (if o.kind = .fill then s.fillLine o ln d else s).pktDone id

/-! ## Requests (R32, R157, R165, R167) -/

/-- The server class under which an operation makes its requests (R105): COPY for copies, collectives and the host port, ISSUE for
what paths, access threads and matrix loads and stores make. That MLD, MST and COLL fall so is the model's choice (log 88). -/
def OpKind.srvClass : OpKind → Nat
  | .copyRead | .copyWrite _ | .collRead | .collWrite _ | .portRead _ | .portWrite _ => 2
  | _ => 0

/-- The class in which an operation's requests travel (R102, R105). -/
def State.reqClass (s : State) (o : Op) : Nat := if o.ctx = mgmtCtx then 0 else s.rfld (.svcfg o.ctx o.kind.srvClass) 48 3

/-- The need of a request: 1 read, 2 write, 3 both (R165). -/
def reqNeed (code : Nat) : Nat := if code ≤ 1 ∨ code = 6 then 1 else if code = 4 then 3 else 2

/-- Whether a kind of operation reads through L1 (R156, R188, R357, R382). -/
def OpKind.throughL1 : OpKind → Bool
  | .load _ _ | .loadQ _ _ | .uload _ | .dload _ => true
  | _ => false

/-- Whether an engine makes the writes of a kind: they invalidate matching L1 lines (R188). -/
def OpKind.engine : OpKind → Bool
  | .mst | .astq | .copyWrite _ | .collWrite _ | .traceWrite => true
  | _ => false

/-- Whether an operation reaches the grid from the system network, by the gateways of its home slices' routers (R37). -/
def OpKind.atGateway : OpKind → Bool
  | .collRead | .collWrite _ | .portRead _ | .portWrite _ => true
  | _ => false

/-- A request packet of an operation, stamped from its core's own configuration (R33). -/
def State.request (s : State) (id : Nat) (o : Op) (code va : Nat) : Pkt :=
  { op := code, srt := coreRouter o.core, sep := corePort o.core, part := s.ctxPart o.ctx, ctx := o.ctx
    cls := s.reqClass o, va, opId := id, core := o.core, slot := o.slot, gen := o.gen, stage := .xlat
    inp := corePort o.core }

/-- Address a packet to the home slice of a physical address (R28). -/
def Pkt.toHome (p : Pkt) (pa : Nat) : Pkt :=
  let sl := sliceOfChannel (channelOf pa)
  { p with addr := pa, drt := sliceRtr sl, dep := slicePort sl, stage := .net p.srt }

/-- The writes to a line, of groups other than an operation's, that have reached memory and whose acknowledgement is on its
way. -/
def State.unacked (s : State) (o : Op) (line : Nat) : List Nat :=
  (s.pkts.filter fun (_, q) => q.sys.isNone && (q.op == 0x11 || q.op == 0x12) && q.addr / 128 == line &&
    !(q.core == o.core && q.slot == o.slot && q.gen == o.gen)).map fun (_, q) => q.opId

/-- An operation reads a line. A write of another group that it may return and that has not performed is waited for by the
releases that come after the load in program order, and by those of its group's fences that cover the load (R181, R184); the
result table does not learn the value. -/
def State.saw (s : State) (id line : Nat) : State :=
  match s.ops.find id with
  | none => s
  | some o =>
    let ids := s.unacked o line
    if ids.isEmpty ∨ o.kind.atGateway then s else
      { s.updGroup o.core o.slot fun g => { g with
          paths := mapIf (fun p => p.past.contains id) (fun (p : Path) => { p with past := p.past ++ ids }) g.paths
          tokens := g.tokens.map fun (n, t) => (n, if t.covers.contains id && 2 ≤ t.kind.toNat then { t with covers := t.covers ++ ids } else t) } with
        ops := s.ops.put id { o with key := none } }

/-- A translated request goes on: it fails for want of a right, hits L1, or enters the network. A read does not hit a line on which
another group's store has not been acknowledged, and the result table does not learn a value that holds one: nobody else sees such a
store before it has performed (R180, R184). -/
def State.launchWith (s : State) (pid : Nat) (p : Pkt) (leaf : W64) (size : Nat) : State :=
  match leafFault (some (leaf, size)) (reqNeed p.op) with
  | some det => ({ s with pkts := s.pkts.erase pid }).pktFail p.opId 3 (BitVec.ofNat 64 p.va) det
  | none =>
    let pa := leafPa leaf size p.va
    let sg := s.ctxSg p.ctx
    let line := pa / 128
    let l1 := match s.ops.find p.opId with | some o => o.kind.throughL1 | none => false
    let stores := s.pkts.filter fun (_, q) => q.sys.isNone && q.core == p.core && q.addr / 128 == line && (q.op == 2 || q.op == 3 || q.op == 0x11 || q.op == 0x12)
    let foreign := stores.any fun (_, q) => q.slot != p.slot || q.gen != p.gen
    match if l1 && p.op ≤ 1 && !foreign then (s.core p.core).l1Find sg line else none with
    | some l =>
      let s := if stores.isEmpty then s else { s with ops := s.ops.upd p.opId fun o => { o with key := none } }
      let s := s.updCore p.core fun c => { c with l1 := mapIf (fun x => x == l) (fun x => { x with used := s.stamp }) c.l1 }
      (({ s.bump with pkts := s.pkts.erase pid }).saw p.opId line).bindLine p.opId (p.va / 128) l.data l.poison
    | none =>
      let engine := match s.ops.find p.opId with | some o => o.kind.engine | none => false
      let s := if (p.op = 2 ∨ p.op = 3) ∧ !engine then s.updCore p.core fun c => c.l1Store sg line p.mask p.data
        else if 2 ≤ p.op ∧ p.op ≤ 5 then s.dropLine p.core sg line else s
      { s.bump with pkts := s.pkts.put pid { p.toHome pa with arr := s.stamp, came := s.now } }

/-- A request whose translation is cached goes on. -/
def State.launch (s : State) (pid : Nat) : State :=
  match s.pkts.find pid with
  | none => s
  | some p =>
    match s.cached p.core p.ctx p.va with
    | none => s
    | some t => (s.install p.core p.ctx p.va t.leaf t.size).launchWith pid p t.leaf t.size

/-- Make a request; it waits for its translation, or goes on at once. -/
def State.send (s : State) (p : Pkt) : State :=
  ({ s.bump with pkts := s.pkts.put s.stamp { p with born := s.now } }).launch s.stamp

/-- Whether a kind of operation is an instruction's own access, which stands in its path's program order (R177). -/
def OpKind.byPath : OpKind → Bool
  | .load _ _ | .loadQ _ _ | .store | .atom _ _ | .red | .pref | .uload _ | .dload _ | .fill | .ldsp _ _ | .stsp | .atsp _ _ | .wb _ | .mld
  | .mst => true
  | .descRead | .walkRead _ | .aldq _ | .astq | .copyRead | .copyWrite _ | .scrub _ | .collRead | .collWrite _ | .traceWrite | .image _ | .portRead _ | .portWrite _ => false

/-- Raise the counter and the flag of an operation, which takes its place in its path's program order (R174, R177, R263). -/
def State.raiseFor (s : State) (id : Nat) (o : Op) : State :=
  let s := s.updGroup o.core o.slot fun g =>
    let g := match o.ctr with | some c => g.raise c id | none => g
    match o.flag with | some f => g.addFlag f | none => g
  if o.kind.byPath then s.remember o.core o.slot o.path [id] else s

/-- Start an operation with its requests. -/
def State.startOp (s : State) (o : Op) (reqs : Nat → State → List Pkt) : State :=
  let id := s.stamp
  let ps := reqs id s
  let s := ({ s.bump with ops := s.ops.put id { o with left := ps.length } }).raiseFor id o
  let s := if o.pages.isEmpty then s else s.touchPages o.core o.ctx o.pages
  ps.foldl (fun s p => s.send p) s

/-- Give an operation that stands already the requests it makes now. -/
def State.sendFor (s : State) (id : Nat) (ps : List Pkt) : State :=
  ps.foldl (fun s p => s.send p) { s with ops := s.ops.upd id fun o => { o with left := ps.length } }

/-- The read code of a context: uncached with an empty L2 mask (R157, R172). -/
def State.readCode (s : State) (ctx : Nat) : Nat := if s.l2Mask ctx = 0 then 1 else 0

/-- Reads of lines, by line number of the virtual address. -/
def State.reads (s : State) (id : Nat) (o : Op) (lns : List Nat) : List Pkt :=
  lns.map fun ln => s.request id o (s.readCode o.ctx) (128 * ln)

/-- A write of masked bytes of a line: a whole line as 0x02, else a masked write (R157). -/
def State.lineWrite (s : State) (id : Nat) (o : Op) (ln : Nat) (mask : BitVec 128) (d : Line) : Pkt :=
  { s.request id o (if mask = wholeMask then 2 else 3) (128 * ln) with mask, data := d }

/-- The writes of a store's lanes. -/
def State.laneWrites (s : State) (id : Nat) (o : Op) (free : Nat) : List Pkt :=
  (touchedLines o.lanes o.size).map fun ln =>
    let (m, d) := storeLine o.lanes free o.size ln
    s.lineWrite id o ln m d

/-! ## Accesses from the system network (R37, R80, R88, R356) -/

/-- A line to read, or to write by a mask. -/
structure GateReq where
  code : Nat
  va : Nat
  mask : BitVec 128 := 0
  data : Line := 0

/-- The reads and the writes of a run of bytes. -/
def State.gateReads (s : State) (ctx va n : Nat) : List GateReq := (linesOf va n).map fun ln => { code := s.readCode ctx, va := 128 * ln }
def gateWrites (va : Nat) (bs : Bytes) : List GateReq :=
  (linesOf va bs.length).map fun ln =>
    let (k, d) := lineOf va bs ln
    { code := if k = wholeMask then 2 else 3, va := 128 * ln, mask := k, data := d }

/-- Start an operation whose requests enter the grid by the gateway of each home slice's own router; the device translates by
the tables themselves. Its data returns by the same gateway. -/
def State.startGate (s : State) (o : Op) (rs : List GateReq) : State :=
  let id := s.stamp
  let s : State := { s.bump with ops := s.ops.put id { o with left := rs.length } }
  rs.foldl (fun s r =>
    match s.translate o.ctx r.va with
    | none => s.pktFail id 3 (BitVec.ofNat 64 r.va) 1
    | some pa =>
      let p := (s.request id o r.code r.va).toHome pa
      { s.bump with pkts := s.pkts.put s.stamp { p with
          srt := p.drt, sep := 15, inp := 15, stage := .net p.drt, mask := r.mask, data := r.data
          born := s.now, arr := s.stamp, came := s.now } }) s

/-- Start an operation of the management context on lines of physical memory, from a router, as class-0 traffic that no L2 way holds
(R102): it reads a line, or writes one whole. -/
def State.startMgmt (s : State) (kind : OpKind) (router part : Nat) (ls : List (Nat × Option Line)) : State × Nat :=
  let id := s.stamp
  let o : Op := { core := 256, kind, ctx := mgmtCtx, left := ls.length }
  let s : State := { s.bump with ops := s.ops.put id o }
  (ls.foldl (fun s (pa, d) =>
    let p : Pkt := { op := if d.isSome then 2 else 1, srt := router, sep := 15, inp := 15, part, ctx := mgmtCtx, cls := 0, va := pa, opId := id
                     core := 256, mask := if d.isSome then wholeMask else 0, data := d.getD 0, born := s.now }
    { s.bump with pkts := s.pkts.put s.stamp { p.toHome pa with arr := s.stamp, came := s.now } }) s, id)

/-- The bytes that have returned to an operation. -/
def Op.bytes (o : Op) (va n : Nat) : Bytes := (List.range n).map fun i => o.byte (va + i)

/-- Forget an operation that its engine has finished with. -/
def State.dropOp (s : State) (id : Nat) : State := { s with ops := s.ops.erase id }

/-- An operation of the host port on a context's memory; no core issues it. -/
def portOp (ctx va n : Nat) (kind : OpKind) : Op := { core := 256, ctx, kind, lanes := [{ lane := 0, addr := va }], size := n }

end Sys2Proof.Machine
end

