-- ==== Sys2Proof/Machine/Remote.lean ====
section
/-! DEFINITION. Routes, remote flows and the requests that leave on them (R54, R55, R62 to R67, R71,
R341, R342). -/

namespace Sys2Proof.Machine

/-! ## The route table (R68) -/

def State.rteValid (s : State) (i : Nat) : Bool := i < 1024 && s.rfld (.rte i 0) 0 1 == 1
def State.rtePeer (s : State) (i : Nat) : Nat := s.rfld (.rte i 0) 1 6
def State.rteLctx (s : State) (i : Nat) : Nat := s.rfld (.rte i 0) 7 9
def State.rteRctx (s : State) (i : Nat) : Nat := s.rfld (.rte i 0) 16 9
def State.rteRidx (s : State) (i : Nat) : Nat := s.rfld (.rte i 0) 25 10
def State.rteCls (s : State) (i : Nat) : Nat := s.rfld (.rte i 0) 35 3
def State.rteDrain (s : State) (i : Nat) : Bool := s.rfld (.rte i 0) 56 1 == 1
def State.rteRobn (s : State) (i : Nat) : Nat := s.rfld (.rte i 1) 0 14
def State.rteJob (s : State) (i : Nat) : Nat := s.rfld (.rte i 1) 14 16

/-- This device's number (R75). -/
def State.devId (s : State) : Nat := s.rfld .lcfg 0 6

/-- The links of a route's strands, in route-entry order (R62, R68). -/
def State.strands (s : State) (i : Nat) : List Nat :=
  (List.range (s.rfld (.rte i 0) 38 2 + 1)).map fun k => s.rfld (.rte i 0) (40 + 4 * k) 4

/-- Whether a link is not down: its strands are live (R62, R71, R75). -/
def State.linkUp (s : State) (n : Nat) : Bool := 2 ≤ s.rfld (.lstat n) 9 3

/-- The live strands of a route (R62, R71). -/
def State.liveStrands (s : State) (i : Nat) : List Nat := (s.strands i).filter s.linkUp

/-- Whether requests of a context may go out on a route (R71, R75, R342). -/
def State.routeOpen (s : State) (ctx i : Nat) : Bool :=
  s.rteValid i && s.rteLctx i == ctx && !s.rteDrain i && s.rfld .lcfg 6 2 != 0 && !(s.liveStrands i).isEmpty

/-- A route is unbound: it drains here, and the far end is told (R71). No rule gives the message that tells it (log 103). -/
def State.unbind (s : State) (i : Nat) : State :=
  let s := s.setRfld (.rte i 0) 56 1 1
  { s with host := { s.host with out := s.host.out ++ [.unbindRoute (s.rtePeer i) (s.rteRidx i)] } }

/-- The far end unbinds a route: it drains here too (R71). -/
def State.farUnbind (s : State) (i : Nat) : State := if s.rteValid i then s.setRfld (.rte i 0) 56 1 1 else s

/-! ## Sending (R62) -/

def State.link (s : State) (n : Nat) : Link := s.lodra.links.get {} n

def State.updLink (s : State) (n : Nat) (f : Link → Link) : State :=
  { s with lodra := { s.lodra with links := s.lodra.links.put n (f (s.link n)) } }

/-- The sending side of a flow, if one stands. -/
def State.txFind (s : State) (route srt sep cls : Nat) : Option (Nat × TxFlow) :=
  s.lodra.tx.find? fun (_, f) => f.route == route && f.srt == srt && f.sep == sep && f.cls == cls

/-- Put a packet on the strand that its sequence number selects. -/
def State.onStrand (s : State) (route : Nat) (p : SysPkt) : State :=
  let live := s.liveStrands route
  match live[p.seq % live.length]? with
  | some n => s.updLink n fun l => { l with wait := l.wait ++ [(route, p)] }
  | none => s

/-- A system packet from an endpoint over a route, but for its sequence number. -/
def State.sysPkt (s : State) (route srt sep op addr : Nat) (fm : Bool) (data : Bytes) : SysPkt :=
  { ddev := s.rtePeer route, sdev := s.devId, srt, sep, route := s.rteRidx route, cls := s.rteCls route, fm, seq := 0
    op, addr, akq := false, data }

/-- Put a link packet on the network between an operation's core and the gateway of the core's own router (R37). -/
def State.byGateway (s : State) (o : Op) (id route : Nat) (p : SysPkt) (out : Bool) : State :=
  let q : Pkt :=
    { op := p.op, srt := p.srt, drt := p.srt, sep := if out then p.sep else 15, dep := if out then 15 else p.sep
      part := s.ctxPart o.ctx, ctx := o.ctx, cls := p.cls, fm := p.fm, seq := p.seq, addr := p.addr % 2 ^ 40, va := p.addr, opId := id
      core := o.core, slot := o.slot, gen := o.gen, stage := .net p.srt, born := s.now, arr := s.stamp, came := s.now
      inp := if out then p.sep else 15, sys := some (route, p) }
  { s.bump with pkts := s.pkts.put s.stamp q }

/-- Whether a fence token covers an operation, or the copy that it works for: its requests ask for acknowledgement
(R66). -/
def State.ackAsked (s : State) (id : Nat) (o : Op) : Bool :=
  match s.group? o.core o.slot with
  | none => false
  | some g => g.gen == o.gen && g.tokens.any fun (_, t) => t.out && (t.covers.contains id ||
      match o.kind with
      | .copyWrite c => t.covers.contains c
      | .copyRead => (s.core o.core).copies.any fun (_, y) => y.slot == o.slot && t.covers.contains y.id
      | _ => false)

/-- Send one request of an operation over a route: it takes the next sequence number of its flow. `waits`
tells that a response besides the acknowledgement comes back, for `item`. -/
def State.sendRemote (s : State) (id : Nat) (route : Nat) (p : SysPkt) (waits : Bool) (item : Nat) : State :=
  let cls := p.cls
  let (k, f, s) := match s.txFind route p.srt p.sep cls with
    | some (k, f) => (k, f, s)
    | none => (s.stamp, ({ route, srt := p.srt, sep := p.sep, cls } : TxFlow), s.bump)
  let r : TxReq := { seq := f.next, op := id, issued := s.now, waits, item }
  let f := { f with next := (f.next + 1) % 2 ^ 24, reqs := f.reqs ++ [r] }
  let s := { s with lodra := { s.lodra with tx := s.lodra.tx.put k f } }
  match s.ops.find id with
  | some o => s.byGateway o id route { p with seq := r.seq, akq := p.akq || s.ackAsked id o } true
  | none => s.onStrand route { p with seq := r.seq }

/-- The payload of a remote atomic: its operation, its width and its operands (R157). -/
def atomBytes (op : Nat) (x y : W64) : Bytes := bytesLE 2 op ++ bytesLE 8 x.toNat ++ bytesLE 8 y.toNat

/-- One remote request: packet type, address, payload, whether a response comes, and for what. -/
structure RemoteReq where
  op : Nat
  addr : Nat
  data : Bytes := []
  waits : Bool := false
  item : Nat := 0

/-- Start an operation on the group's remote binding (R342): it bypasses L1 and the result table. -/
def State.startRemote (s : State) (o : Op) (route : Nat) (fm : Bool) (rs : List RemoteReq) : State :=
  let id := s.stamp
  let o := { o with remote := true, key := none, left := rs.length }
  let s := ({ s.bump with ops := s.ops.put id o }).raiseFor id o
  rs.foldl (fun s r =>
    s.sendRemote id route (s.sysPkt route (coreRouter o.core) (corePort o.core) r.op r.addr fm r.data) r.waits r.item) s

/-- Remote reads of the lines that lanes touch. -/
def remoteReads (o : Op) : List RemoteReq :=
  (touchedLines o.lanes o.size).map fun ln => { op := 0, addr := 128 * ln, waits := true, item := ln }

/-- Remote writes of the bytes that lanes store. -/
def remoteWrites (o : Op) (free : Nat) : List RemoteReq :=
  (touchedLines o.lanes o.size).map fun ln =>
    let (m, d) := storeLine o.lanes free o.size ln
    if m = wholeMask then { op := 2, addr := 128 * ln, data := bytesLE 128 d.toNat }
    else { op := 3, addr := 128 * ln, data := bytesLE 128 d.toNat ++ bytesLE 16 m.toNat }

/-- Remote atomics, one for each lane. -/
def remoteAtoms (o : Op) (aop : Nat) (ret : Bool) : List RemoteReq :=
  o.lanes.map fun l => { op := if ret then 4 else 5, addr := l.addr, data := atomBytes aop l.x l.y, waits := ret, item := l.lane }

/-- A request of a flow is over once it has been acknowledged and answered. -/
def TxReq.over (r : TxReq) : Bool := r.acked && !r.waits

end Sys2Proof.Machine
end

