-- ==== Sys2Proof/Machine/Mem.lean ====
section
/-! DEFINITION. Loads, stores, atomics, reductions and prefetch, global and scratchpad: majors 13 and 18 to
23, and PREF (R152, R153, R161, R165, R176, R180, R300, R335 to R343). -/

namespace Sys2Proof.Machine

/-! ## Common forms -/

/-- An operation that the issuing path starts. -/
def IssueCtx.op (x : IssueCtx) (kind : OpKind) : Op :=
  { core := x.c.core, slot := x.c.slot, gen := x.g.gen, path := x.c.path, pid := x.p.born, grp := x.g.num, pc := x.p.pc
    ctx := x.g.ctx, team := x.g.team, kind }

/-- The flag that the L bit selects through the clause header (R263). -/
def IssueCtx.flagOf (x : IssueCtx) (l : BitVec 1) : Option Nat :=
  let k := (if l = 1 then x.p.setb else x.p.seta).toNat
  if k < 12 then some k else none

/-- The wait of a flag at 255 (R263). -/
def IssueCtx.flagFull (x : IssueCtx) (flag : Option Nat) : Option Await :=
  match flag with
  | some f => if 255 ≤ x.g.flag f then some (.flagRoom f) else none
  | none => none

/-- The wait of a counter or a flag at 255 (R174, R263). -/
def IssueCtx.room (x : IssueCtx) (ctr : Nat) (flag : Option Nat) : Option Await :=
  if 255 ≤ x.g.ctr ctr then some (.ctrRoom ctr) else x.flagFull flag

/-- The addresses of the written lanes (R152). -/
def IssueCtx.globals (x : IssueCtx) (mask base : W64) (off : Nat → W64) : List LaneAcc :=
  (lanesOf x.w mask).map fun l => { lane := l, addr := (base + off l).toNat }

/-- The fault of one local access: outside the leases, or in a page that the table does not give (R165, R166). -/
def State.laneFault? (s : State) (gr : Grid) (core ctx size need : Nat) (l : LaneAcc) : Option (Nat × W64 × Nat) :=
  if !s.mayAccess gr need l.addr size then some (3, BitVec.ofNat 64 l.addr, 0)
  else (pagesOf l.addr size).findSome? fun p =>
    (leafFault (s.leafOf core ctx (4096 * p)) need).map fun det => (3, BitVec.ofNat 64 l.addr, det)

/-- The fault of one local access of the issuing path. -/
def IssueCtx.laneAccess (x : IssueCtx) (size need : Nat) (l : LaneAcc) : Option (Nat × W64 × Nat) :=
  x.s.laneFault? x.gr x.c.core x.g.ctx size need l

/-- The fault of a global access: that of the lowest-numbered failing lane (R165). -/
def IssueCtx.accessFault? (x : IssueCtx) (ls : List LaneAcc) (size need : Nat) : Option (Nat × W64 × Nat) :=
  ls.findSome? (x.laneAccess size need)

/-- Whether a kind of operation writes global memory. -/
def OpKind.writes : OpKind → Bool
  | .store | .atom _ _ | .red | .wb _ | .mst => true
  | _ => false

/-- Whether a kind of operation reads global memory, or is a tile's, which does so at its turn. -/
def OpKind.readsGlobal : OpKind → Bool
  | .load _ _ | .loadQ _ _ | .uload _ | .dload _ | .fill | .mld | .mst => true
  | _ => false

/-- Whether two runs of lanes have bytes in common. -/
def lanesMeet (ls : List LaneAcc) (size : Nat) (ms : List LaneAcc) (n : Nat) : Bool :=
  ms.any fun m => ls.any fun l => l.addr < m.addr + n && m.addr < l.addr + size

/-- The operations of a kind, local or remote, that come before the issuing path's instruction in program order, have not performed
and name bytes that it names. -/
def IssueCtx.earlier (x : IssueCtx) (p : OpKind → Bool) (remote : Bool) (ls : List LaneAcc) (size : Nat) : List Nat :=
  x.p.past.filter fun i => match x.s.ops.find i with
    | some o => p o.kind && o.remote == remote && lanesMeet ls size o.lanes o.size
    | none => false

/-- A plain load waits for an earlier write to bytes that it names (R180). -/
def IssueCtx.storeWait (x : IssueCtx) (remote : Bool) (ls : List LaneAcc) (size : Nat) : Option Await :=
  (x.earlier OpKind.writes remote ls size).head?.map .store

/-- A write waits for an earlier load of bytes that it names, which a forced halt may replay, and for an earlier tile access to them,
which its bank makes at its turn: a load returns no later write, and writes of a path keep their order (R184, R185, R189, log 117). -/
def IssueCtx.loadWait (x : IssueCtx) (remote : Bool) (ls : List LaneAcc) (size : Nat) : Option Await :=
  (x.earlier OpKind.readsGlobal remote ls size).head?.map .store

/-- The result-table key of a load (R208). -/
def IssueCtx.loadKey (x : IssueCtx) (word : Nat) (src : Option Nat) (uval mask : W64) (dst : Nat) (sp : Option Nat)
    (pages : List Nat) : RtEntry :=
  let full := mask == fullMask x.w
  { set := 0, ctx := x.g.ctx, opw := BitVec.ofNat 32 word, wc := x.g.wc, srcb := 0, srcc := 0, uval
    srca := match src with | some f => x.vname f | none => 0
    wmask := if full then BitVec.allOnes 64 else mask, prior := if full then 0 else x.vname dst
    grid := x.gr.launch, val := 0, xr := false, mm := false, load := true, sp, epoch := (x.s.core x.c.core).epoch
    pages, used := 0 }

/-- The checks of the V fields of a memory instruction: `run` registers from d on, which name a queue only
if there is one of them. -/
def IssueCtx.memFault (x : IssueCtx) (addr : List Nat) (d run : Nat) : Option (Nat × Nat) :=
  if run = 1 then x.laneFault (d :: addr) [] [] else x.laneFault addr [(d, run)] []

/-- What the V fields of a memory instruction wait for: its address, its data if it reads them, and an MCVT that writes its destination
(R196, R372). -/
def IssueCtx.memWait (x : IssueCtx) (addr : List Nat) (d run : Nat) (pops pushes : Bool) : Option Await :=
  let regs := if run = 1 then plainRegs x.d [d] else runRegs (d, run)
  firstWait [x.vWait (plainRegs x.d addr ++ if pops then regs else []), if pops then none else x.cvtWait regs,
    x.popWait (addr ++ if pops then [d] else []), if pushes && run == 1 then x.pushWait [d] else none]

/-- The fields of a load or store: its word, L, PRED, form, data V, base pair and offset. -/
structure MemOp where
  word : Nat
  sp : BitVec 1
  pred : BitVec 2
  l : BitVec 1
  form : Nat
  d : Nat
  b : Nat
  n : Option Nat
  imm : Nat

/-- The byte offset of a lane: SInt(Vn), or the immediate (R152). -/
def IssueCtx.offset (x : IssueCtx) (m : MemOp) (l : Nat) : W64 :=
  match m.n with
  | some f => ((x.vsrc f).lane l).signExtend 64
  | none => BitVec.ofNat 64 m.imm

/-- A load into a queue that writes no lane: it has no data to wait for and is counted nowhere, but its entry keeps its place
among those of the earlier loads (R336, R338). -/
def IssueCtx.emptyLoad (x : IssueCtx) (s : State) (q form : Nat) : State :=
  let s := s.updGroup x.c.core x.c.slot fun g => g.setQueue q { (g.queue q) with fills := (g.queue q).fills + 1 }
  (s.startOp (x.op (.loadQ q form)) fun _ _ => []).settleQueue x.c.core x.c.slot q 64

/-- A load's registers are its own from its issue on: older operations in flight no longer write its lanes of them (R308). -/
def IssueCtx.loadDest (x : IssueCtx) (s : State) (queue : Bool) (d run : Nat) (mask : W64) : State :=
  if queue then s else (runRegs (d, run)).foldl (fun s r => s.supersede x.c.core x.c.slot r mask) s

/-- The issue of a global load (R338). -/
def loadOp (s : State) (code : Option Nat) (m : MemOp) : Host.Outcome State Fault Refusal :=
  moveIssue s code m.sp fun x =>
    let run := if m.form = 3 then 2 else 1
    let addr := m.n.toList
    match x.memFault addr m.d run with
    | some (cls, det) => .trap cls 0 det
    | none =>
      match firstWait [x.sWait [m.b, m.b + 1], x.memWait addr m.d run false true] with
      | some w => .park w
      | none =>
        let size := formBytes m.form
        let base := x.g.spair m.b
        let mask := x.g.written x.p m.pred.toNat
        let ls := x.globals mask base (x.offset m)
        let flag := x.flagOf m.l
        if x.g.rOn && !x.s.routeOpen x.g.ctx x.g.route then .trap 8 0 0
        else match if x.g.rOn then none else x.accessFault? ls size 1 with
        | some (cls, va, det) => .trap cls va det
        | none => match x.storeWait x.g.rOn ls size with
        | some w => .park w
        | none =>
          let pages := touchedPages ls size
          let elig := run == 1 && !x.g.rOn && x.eligible (m.d :: addr)
          let look := elig && x.looksUp m.d mask
          let key := x.loadKey m.word m.n base mask m.d none pages
          let s := if look then x.s.own x.c.core x.g.ctx 2 1 else x.s
          match if look then (x.s.core x.c.core).lookup key else none with
          | some t => x.hitAct s m.d mask t
          | none =>
            if ls.isEmpty then
              match queueOf x.d.qmask m.d with
              | some q => .done (x.emptyLoad (s.popQueues x addr) q m.form)
              | none =>
              match x.writeDst s addr m.d mask (fun _ => 0) (if elig then some key else none) with
              | some s => .done s
              | none => .park .place
            else match x.room 0 flag with
            | some w => .park w
            | none =>
              let q := queueOf x.d.qmask m.d
              let s := x.loadDest (s.popQueues x addr) (q.isSome) m.d run mask
              let s := match q with
                | some q => s.updGroup x.c.core x.c.slot fun g => g.setQueue q { (g.queue q) with fills := (g.queue q).fills + 1 }
                | none => s
              let o : Op := { x.op (match q with | some q => .loadQ q m.form | none => .load m.d m.form) with
                ctr := some 0, flag, lanes := ls, size, key := if look && pages.length ≤ 4 then some key else none
                named := if elig then (x.s.core x.c.core).births key else [] }
              if x.g.rOn then .done (s.startRemote o x.g.route x.g.fm (remoteReads o))
              else .done (s.startOp o fun id s => s.reads id o (touchedLines ls size))

/-- The data of a store's lane: Vd, with V(d + 1) above it for .w64 (R338). -/
def IssueCtx.storeData (x : IssueCtx) (d run l : Nat) : W64 :=
  if run = 2 then (x.g.vreg (d + 1)).lane l ++ (x.g.vreg d).lane l else ((x.vsrc d).lane l).setWidth 64

/-- The issue of a global store (R338). -/
def storeOp (s : State) (code : Option Nat) (m : MemOp) : Host.Outcome State Fault Refusal :=
  moveIssue s code m.sp fun x =>
    let run := if m.form = 3 then 2 else 1
    let addr := m.n.toList
    match x.memFault addr m.d run with
    | some (cls, det) => .trap cls 0 det
    | none =>
      match firstWait [x.sWait [m.b, m.b + 1], x.memWait addr m.d run true false] with
      | some w => .park w
      | none =>
        let size := formBytes m.form
        let ls := (x.globals (x.g.written x.p m.pred.toNat) (x.g.spair m.b) (x.offset m)).map fun l =>
          { l with x := x.storeData m.d run l.lane }
        let flag := x.flagOf m.l
        let pops := if run = 1 then m.d :: addr else addr
        if x.g.rOn && !x.s.routeOpen x.g.ctx x.g.route then .trap 8 0 0
        else match if x.g.rOn then none else x.accessFault? ls size 2 with
        | some (cls, va, det) => .trap cls va det
        | none =>
          if ls.isEmpty then .done (x.s.popQueues x pops)
          else match firstWait [x.loadWait x.g.rOn ls size, x.room 1 flag] with
            | some w => .park w
            | none =>
              let o : Op := { x.op .store with ctr := some 1, flag, lanes := ls, size
                                               pages := if x.g.rOn then [] else touchedPages ls size }
              let s := (x.s.popQueues x pops).chose
              if x.g.rOn then .done (s.startRemote o x.g.route x.g.fm (remoteWrites o s.free))
              else .done (s.startOp o fun id s => s.laneWrites id o s.free)

/-! ## LDG and STG (R338) -/

/-- LDG .w8 to .w64 [Sb + Vn]. -/
def execLdgReg (f : MemReg) (s : State) : Host.Outcome State Fault Refusal :=
  loadOp s (illegalMem f.b.toNat f.d.toNat f.z.toNat)
    { word := 37 + f.word, sp := f.sp, pred := f.pred, l := f.l, form := f.z.toNat, d := f.d.toNat, b := f.b.toNat
      n := some f.n.toNat, imm := 0 }
/-- LDG .sx8 and .sx16 [Sb + Vn]. -/
def execLdgSxReg (f : MemSxReg) (s : State) : Host.Outcome State Fault Refusal :=
  loadOp s (firstCode [(oddReg f.b, 5)])
    { word := 293 + f.word, sp := f.sp, pred := f.pred, l := f.l, form := 4 + f.z.toNat, d := f.d.toNat, b := f.b.toNat
      n := some f.n.toNat, imm := 0 }
/-- STG [Sb + Vn]. -/
def execStgReg (f : MemReg) (s : State) : Host.Outcome State Fault Refusal :=
  storeOp s (illegalMem f.b.toNat f.d.toNat f.z.toNat)
    { word := 549 + f.word, sp := f.sp, pred := f.pred, l := f.l, form := f.z.toNat, d := f.d.toNat, b := f.b.toNat
      n := some f.n.toNat, imm := 0 }
/-- LDG .w8 to .w64 [Sb + imm]. -/
def execLdgImm (f : MemImm) (s : State) : Host.Outcome State Fault Refusal :=
  loadOp s (illegalMem f.b.toNat f.d.toNat f.z.toNat)
    { word := 39 + f.word, sp := f.sp, pred := f.pred, l := f.l, form := f.z.toNat, d := f.d.toNat, b := f.b.toNat
      n := none, imm := f.i.toNat * formBytes f.z.toNat }
/-- LDG .sx8 and .sx16 [Sb + imm]. -/
def execLdgSxImm (f : MemSxImm) (s : State) : Host.Outcome State Fault Refusal :=
  loadOp s (firstCode [(oddReg f.b, 5)])
    { word := 295 + f.word, sp := f.sp, pred := f.pred, l := f.l, form := 4 + f.z.toNat, d := f.d.toNat, b := f.b.toNat
      n := none, imm := f.i.toNat * formBytes (4 + f.z.toNat) }
/-- STG [Sb + imm]. -/
def execStgImm (f : MemImm) (s : State) : Host.Outcome State Fault Refusal :=
  storeOp s (illegalMem f.b.toNat f.d.toNat f.z.toNat)
    { word := 551 + f.word, sp := f.sp, pred := f.pred, l := f.l, form := f.z.toNat, d := f.d.toNat, b := f.b.toNat
      n := none, imm := f.i.toNat * formBytes f.z.toNat }

/-! ## ULD and UST (R300) -/

/-- The one lane of a uniform access: (S[A+1] ‖ S[A]) + SInt(S[B]), bits [1:0] taken as zero. -/
def IssueCtx.uniAcc (x : IssueCtx) (f : UA) : LaneAcc :=
  { lane := 0, addr := ((x.g.spair f.a.toNat + (x.g.sreg f.b.toNat).signExtend 64) &&& ~~~3).toNat
    x := (x.g.sreg f.d.toNat).setWidth 64 }

/-- ULD (R300): one word into Sd through L1; it stays local under a remote binding (R342). -/
def execUld (f : UA) (s : State) : Host.Outcome State Fault Refusal :=
  issue s (illegalUaMem f) (fun _ => {}) fun x =>
    match x.sWait [f.a.toNat, f.a.toNat + 1, f.b.toNat, f.d.toNat] with
    | some w => .park w
    | none =>
      let l := x.uniAcc f
      match x.accessFault? [l] 4 1 with
      | some (cls, va, det) => .trap cls va det
      | none =>
        match firstWait [x.storeWait false [l] 4, x.room 0 none] with
        | some w => .park w
        | none =>
          let o : Op := { x.op (.uload f.d.toNat) with ctr := some 0, lanes := [l], size := 4 }
          .done (x.s.startOp o fun id s => s.reads id o [l.addr / 128])

/-- UST (R300): S[D] as one 32-bit store. -/
def execUst (f : UA) (s : State) : Host.Outcome State Fault Refusal :=
  issue s (illegalUaMem f) (fun _ => {}) fun x =>
    match x.sWait [f.a.toNat, f.a.toNat + 1, f.b.toNat, f.d.toNat] with
    | some w => .park w
    | none =>
      let l := x.uniAcc f
      match x.accessFault? [l] 4 2 with
      | some (cls, va, det) => .trap cls va det
      | none =>
        match firstWait [x.loadWait false [l] 4, x.room 1 none] with
        | some w => .park w
        | none =>
          let o : Op := { x.op .store with ctr := some 1, lanes := [l], size := 4, pages := touchedPages [l] 4 }
          .done (x.s.startOp o fun id s => s.laneWrites id o 0)

/-! ## Atomics (R340) -/

/-- The operands of a lane of an atomic: its data, or compare and new value. -/
def IssueCtx.atomData (x : IssueCtx) (d op l : Nat) : W64 × W64 :=
  let r (k : Nat) : W32 := if k = 0 then (x.vsrc d).lane l else (x.g.vreg (d + k)).lane l
  match op with
  | 1 | 12 => (r 1 ++ r 0, 0)
  | 13 => ((r 0).setWidth 64, (r 1).setWidth 64)
  | 14 => (r 1 ++ r 0, r 3 ++ r 2)
  | _ => ((r 0).setWidth 64, 0)

/-- The issue of a global atomic or reduction (R340, R342). -/
def atomOp (s : State) (code : Option Nat) (f : AtomF) (ret : Bool) : Host.Outcome State Fault Refusal :=
  moveIssue s code f.sp fun x =>
    let op := f.o.toNat
    let d := f.d.toNat
    let run := atomRun op
    let b := f.b.toNat
    match x.memFault [f.n.toNat] d run with
    | some (cls, det) => .trap cls 0 det
    | none =>
      match firstWait [x.sWait [b, b + 1], x.memWait [f.n.toNat] d run true ret] with
      | some w => .park w
      | none =>
        let size := atomSize op
        let ls := (x.globals x.p.mask (x.g.spair b) fun l => ((x.vsrc f.n.toNat).lane l).signExtend 64).map fun l =>
          let (u, v) := x.atomData d op l.lane
          { l with x := u, y := v }
        let flag := x.flagOf f.l
        let need := if ret then 3 else 2
        let bad (l : LaneAcc) : Option (Nat × W64 × Nat) :=
          if l.addr % size ≠ 0 then some (3, BitVec.ofNat 64 l.addr, 2)
          else if x.g.rOn then none else x.laneAccess size need l
        if x.g.rOn && f.c != 3 then .trap 1 0 4
        else if x.g.rOn && !x.s.routeOpen x.g.ctx x.g.route then .trap 8 0 0
        else match ls.findSome? bad with
        | some (cls, va, det) => .trap cls va det
        | none =>
          match firstWait [x.loadWait x.g.rOn ls size, x.room (if ret then 0 else 1) flag] with
          | some w => .park w
          | none =>
            let s := x.s.popQueues x (if run = 1 then [d, f.n.toNat] else [f.n.toNat])
            let s := match if ret && run == 1 then queueOf x.d.qmask d else none with
              | some q => s.updGroup x.c.core x.c.slot fun g => g.setQueue q { (g.queue q) with fills := (g.queue q).fills + 1 }
              | none => s
            let o : Op := { x.op (if ret then .atom d op else .red) with
              ctr := some (if ret then 0 else 1), flag, lanes := ls, size, pages := if x.g.rOn then [] else touchedPages ls size }
            if x.g.rOn then .done (s.startRemote o x.g.route x.g.fm (remoteAtoms o op ret))
            else .done (s.startOp o fun id s => ls.map fun l =>
              { s.request id o (if ret then 4 else 5) l.addr with lanes := [l], aop := op })

/-- ATOM (R340): at the home slice, each lane's old value to its registers. -/
def execAtom (f : AtomF) (s : State) : Host.Outcome State Fault Refusal := atomOp s (illegalAtom f) f true
/-- RED (R340): as ATOM, without return. -/
def execRed (f : AtomF) (s : State) : Host.Outcome State Fault Refusal := atomOp s (illegalRed f) f false

/-! ## PREF (R343) -/

/-- PREF: asks the home slice of each written lane's line for an L2 allocation. -/
def execPref (f : PrefF) (s : State) : Host.Outcome State Fault Refusal :=
  moveIssue s (firstCode [(oddReg f.b, 5)]) f.sp fun x =>
    let b := f.b.toNat
    match x.laneFault [f.n.toNat] [] [] with
    | some (cls, det) => .trap cls 0 det
    | none =>
      match firstWait [x.sWait [b, b + 1], x.vWait (plainRegs x.d [f.n.toNat]), x.popWait [f.n.toNat]] with
      | some w => .park w
      | none =>
        let s := x.s.popQueues x [f.n.toNat]
        let ls := x.globals (x.g.written x.p f.pred.toNat) (x.g.spair b) fun l => ((x.vsrc f.n.toNat).lane l).signExtend 64
        let flag := x.flagOf f.l
        if x.g.rOn || ls.isEmpty then .done s
        else match x.accessFault? ls 1 1 with
          | some (cls, va, det) => .trap cls va det
          | none =>
            match x.room 0 flag with
            | some w => .park w
            | none =>
              let o : Op := { x.op .pref with ctr := some 0, flag, lanes := ls, size := 1 }
              .done (s.startOp o fun id s => (touchedLines ls 1).map fun ln => s.request id o 6 (128 * ln))

/-! ## Scratchpad (R153, R159 to R161, R339, R340) -/

/-- The fault of a scratchpad access of `size` bytes at a computed offset (R153). -/
def spFault (d : Desc) (size : Nat) (off : Int) : Option (Nat × W64 × Nat) :=
  let ok (o : Int) : Bool :=
    0 ≤ o && o < (if d.pair then 2 ^ 19 else 2 ^ 18) && o.toNat % 2 ^ 18 / 4096 < d.spages
  if ok off && ok (off + size - 1) then none else some (3, BitVec.ofInt 64 off ||| BitVec.ofNat 64 (2 ^ 63), 0)

/-- The offset of a lane: SInt(Vn) + imm (R153). -/
def IssueCtx.spOffset (x : IssueCtx) (n imm l : Nat) : Int := ((x.vsrc n).lane l).toInt + imm

/-- The fault of filling lines: a read of each line's global address (R161, R165). -/
def IssueCtx.fillFault (x : IssueCtx) (t : Team) (lns : List Nat) : Option (Nat × W64 × Nat) :=
  x.accessFault? (lns.filterMap fun ln => (t.regionOf ln).map fun (_, r) => { lane := 0, addr := 128 * r.globalLine ln }) 128 1

/-- Start the fill of some lines (R161): counted on SPF. -/
def IssueCtx.startFill (x : IssueCtx) (s : State) (t : Team) (lns : List Nat) (flag : Option Nat) : State :=
  let gs := lns.filterMap fun ln => (t.regionOf ln).map fun (_, r) => r.globalLine ln
  let o : Op := { x.op .fill with ctr := some 2, flag, lines := lns, lanes := gs.map fun g => { lane := 0, addr := 128 * g }, size := 128 }
  let s := s.updTeam x.g.team fun t => { t with lines := lns.foldl (fun m ln =>
    m.put ln { filling := true, dirty := match m.find ln with | some r => r.dirty | none => 0 }) t.lines }
  s.startOp o fun id s => s.reads id o gs

/-- The scratchpad accesses in flight that come before the issuing path's in program order and that it meets, where one of the two
writes (R180, R184). -/
def IssueCtx.spWait (x : IssueCtx) (writes : Bool) (ls : List LaneAcc) (size : Nat) : Option Await :=
  (x.p.past.find? fun i => match x.s.ops.find i with
    | some o => o.kind.isSp && (writes || o.kind.spWrites) && lanesMeet ls size o.lanes o.size
    | none => false).map .store

/-- The lines of a scratchpad access that a first-touch fill must bring. -/
def Team.untouched (t : Team) (ls : List LaneAcc) (size : Nat) : List Nat := (touchedLines ls size).filter t.lineI

/-- What keeps a scratchpad access from starting: the fill of one of its lines in flight, or a flag or a counter at 255; or the fault of
the fill that it would start (R161, R263). -/
def IssueCtx.spBlock (x : IssueCtx) (t : Team) (ls : List LaneAcc) (size : Nat) (flag : Option Nat) : Option Act :=
  match (touchedLines ls size).find? t.lineFilling with
  | some ln => some (.park (.spLine ln))
  | none =>
    let lns := t.untouched ls size
    match if lns.isEmpty then none else x.fillFault t lns with
    | some (cls, va, det) => some (.trap cls va det)
    | none => (if ls.isEmpty then none else if lns.isEmpty then x.flagFull flag else x.room 2 flag).map .park

/-- Whether a scratchpad access completes at retirement: its lanes are all on the group's own core and outside every region's I
lines (R180, R339). -/
def IssueCtx.spLocal (x : IssueCtx) (t : Team) (ls : List LaneAcc) (size : Nat) : Bool :=
  (t.untouched ls size).isEmpty && !t.isFar x.c.core ls size

/-- Start a scratchpad access that does not complete at retirement: it waits for the first-touch fill that it starts, and for the
other core's acknowledgement (R161, R180, R339). -/
def IssueCtx.startSp (x : IssueCtx) (s : State) (t : Team) (o : Op) : State :=
  let lns := t.untouched o.lanes o.size
  let s := if lns.isEmpty then s else x.startFill s t lns none
  let id := s.stamp
  let s := s.startOp { o with lines := touchedLines o.lanes o.size } fun _ _ => []
  let far := t.isFar x.c.core o.lanes o.size
  { s with ops := s.ops.upd id fun o => { o with left := if far then 2 else 1 }
           turns := if far then s.turns ++ [.spad id] else s.turns }

/-- The fields of a scratchpad access. -/
structure SpOp where
  word : Nat
  sp : BitVec 1
  pred : BitVec 2
  l : BitVec 1
  form : Nat
  d : Nat
  n : Nat
  imm : Nat

/-- The lane accesses of a scratchpad instruction, or the fault of the lowest failing lane. -/
def IssueCtx.spLanes (x : IssueCtx) (mask : W64) (n imm size align : Nat) : Except (Nat × W64 × Nat) (List LaneAcc) :=
  let ls := lanesOf x.w mask
  match ls.findSome? fun l =>
      let off := x.spOffset n imm l
      match spFault x.d size off with
      | some e => some e
      | none => if off % align ≠ 0 then some (3, BitVec.ofInt 64 off ||| BitVec.ofNat 64 (2 ^ 63), 2) else none with
  | some e => .error e
  | none => .ok (ls.map fun l => { lane := l, addr := (x.spOffset n imm l).toNat })

/-- A queue that an operation's result goes to keeps its place for it (R338). -/
def IssueCtx.fillsQueue (x : IssueCtx) (s : State) (d : Nat) : State :=
  match queueOf x.d.qmask d with
  | some q => s.updGroup x.c.core x.c.slot fun g => g.setQueue q { (g.queue q) with fills := (g.queue q).fills + 1 }
  | none => s

/-- What a lane of a scratchpad access has found. -/
def foundAt (olds : List (Nat × W64)) (l : Nat) : W64 := match olds.find? fun e => e.1 == l with | some e => e.2 | none => 0

/-- The issue of a scratchpad load (R339). -/
def ldspOp (s : State) (code : Option Nat) (m : SpOp) : Host.Outcome State Fault Refusal :=
  moveIssue s code m.sp fun x =>
    let run := if m.form = 3 then 2 else 1
    match x.memFault [m.n] m.d run with
    | some (cls, det) => .trap cls 0 det
    | none =>
      match x.memWait [m.n] m.d run false true, x.s.team? x.g.team with
      | some w, _ => .park w
      | none, none => .done x.s
      | none, some t =>
        let size := formBytes m.form
        let mask := x.g.written x.p m.pred.toNat
        match x.spLanes mask m.n m.imm size 1 with
        | .error (cls, va, det) => .trap cls va det
        | .ok ls => match x.spWait false ls size with
        | some w => .park w
        | none =>
          let pages := touchedPages ls size
          let elig := run == 1 && x.eligible [m.d, m.n]
          let look := elig && x.looksUp m.d mask
          let key := x.loadKey m.word (some m.n) 0 mask m.d (some x.g.team) pages
          let s := if look then x.s.own x.c.core x.g.ctx 2 1 else x.s
          let flag := x.flagOf m.l
          match if look then (x.s.core x.c.core).lookup key else none with
          | some k => x.hitAct s m.d mask k
          | none =>
            match x.spBlock t ls size flag with
            | some a => a
            | none =>
              let ins := if look && pages.length ≤ 4 then some key else none
              if x.spLocal t ls size then
                let val (l : Nat) : W64 := foundAt (t.spLoad ls size) l
                match x.writeDst s [m.n] m.d mask (fun l => loadLow m.form (val l).toNat) ins with
                | none => .park .place
                | some s =>
                  if run = 1 then .done s
                  else match x.writeReg s (m.d + 1) mask (fun l => (val l).extractLsb' 32 32) none with
                    | some s => .done s
                    | none => .park .place
              else
                let s := x.loadDest (x.fillsQueue (s.popQueues x [m.n]) m.d) (queueOf x.d.qmask m.d).isSome m.d run mask
                .done (x.startSp s t { x.op (.ldsp m.d m.form) with
                  flag, lanes := ls, size, key := ins, named := if look then (x.s.core x.c.core).births key else [] })

/-- The issue of a scratchpad store (R339). -/
def stspOp (s : State) (code : Option Nat) (m : SpOp) : Host.Outcome State Fault Refusal :=
  moveIssue s code m.sp fun x =>
    let run := if m.form = 3 then 2 else 1
    match x.memFault [m.n] m.d run with
    | some (cls, det) => .trap cls 0 det
    | none =>
      match x.memWait [m.n] m.d run true false, x.s.team? x.g.team with
      | some w, _ => .park w
      | none, none => .done x.s
      | none, some t =>
        let size := formBytes m.form
        match x.spLanes (x.g.written x.p m.pred.toNat) m.n m.imm size 1 with
        | .error (cls, va, det) => .trap cls va det
        | .ok ls => match x.spWait true ls size with
        | some w => .park w
        | none =>
          let ls := ls.map fun l => { l with x := x.storeData m.d run l.lane }
          let flag := x.flagOf m.l
          match x.spBlock t ls size flag with
          | some a => a
          | none =>
            let s := x.s.popQueues x (if run = 1 then [m.d, m.n] else [m.n])
            if x.spLocal t ls size then
              let s := s.chose
              .done ((s.updTeam x.g.team fun t => t.spStore ls s.free size).touchSp x.g.team (touchedPages ls size))
            else .done (x.startSp s t { x.op .stsp with flag, lanes := ls, size })

/-- LDSP .w8 to .w64 [Vn + imm]. -/
def execLdsp (f : SpF) (s : State) : Host.Outcome State Fault Refusal :=
  ldspOp s (illegalSp f.d.toNat f.z.toNat)
    { word := 41 + f.word, sp := f.sp, pred := f.pred, l := f.l, form := f.z.toNat, d := f.d.toNat, n := f.n.toNat
      imm := f.i.toNat * formBytes f.z.toNat }
/-- LDSP .sx8 and .sx16 [Vn + imm]. -/
def execLdspSx (f : SpSxF) (s : State) : Host.Outcome State Fault Refusal :=
  ldspOp s none
    { word := 297 + f.word, sp := f.sp, pred := f.pred, l := f.l, form := 4 + f.z.toNat, d := f.d.toNat, n := f.n.toNat
      imm := f.i.toNat * formBytes (4 + f.z.toNat) }
/-- STSP [Vn + imm]. -/
def execStsp (f : SpF) (s : State) : Host.Outcome State Fault Refusal :=
  stspOp s (illegalSp f.d.toNat f.z.toNat)
    { word := 553 + f.word, sp := f.sp, pred := f.pred, l := f.l, form := f.z.toNat, d := f.d.toNat, n := f.n.toNat
      imm := f.i.toNat * formBytes f.z.toNat }

/-- ATSP (R340): on the team's scratchpad, with first-touch fill. -/
def execAtsp (f : AtspF) (s : State) : Host.Outcome State Fault Refusal :=
  moveIssue s (illegalAtsp f) f.sp fun x =>
    let op := f.o.toNat
    let d := f.d.toNat
    let n := f.n.toNat
    let run := atomRun op
    match x.memFault [n] d run with
    | some (cls, det) => .trap cls 0 det
    | none =>
      match x.memWait [n] d run true true, x.s.team? x.g.team with
      | some w, _ => .park w
      | none, none => .done x.s
      | none, some t =>
        let size := atomSize op
        match x.spLanes x.p.mask n (f.i.toNat * size) size size with
        | .error (cls, va, det) => .trap cls va det
        | .ok ls => match x.spWait true ls size with
        | some w => .park w
        | none =>
          let ls := ls.map fun l =>
            let (u, v) := x.atomData d op l.lane
            { l with x := u, y := v }
          let flag := x.flagOf f.l
          match x.spBlock t ls size flag with
          | some a => a
          | none =>
            let pops := if run = 1 then [d, n] else [n]
            if x.spLocal t ls size then
              let s := x.s.chose
              let (t', olds) := t.spAtomics op size s.free ls
              let s := (s.updTeam x.g.team fun _ => t').touchSp x.g.team (touchedPages ls size)
              match x.writeDst s pops d x.p.mask (fun l => (foundAt olds l).extractLsb' 0 32) none with
              | none => .park .place
              | some s =>
                if (atomRegs d op).length = 1 then .done s
                else match x.writeReg s (d + 1) x.p.mask (fun l => (foundAt olds l).extractLsb' 32 32) none with
                  | some s => .done s
                  | none => .park .place
            else .done (x.startSp (x.fillsQueue (x.s.popQueues x pops) d) t { x.op (.atsp d op) with flag, lanes := ls, size })

end Sys2Proof.Machine
end

