-- ==== Sys2Proof/Machine/Sync.lean ====
section
/-! DEFINITION. Fences, counters and scratchpad regions: major 24, minors 1 to 7 (R140, R160, R161, R174,
R181, R187, R344 to R348). -/

namespace Sys2Proof.Machine

/-- An instruction of major 24 that executes once for its path (R336). -/
def oneIssue (s : State) (code : Option Nat) (sp : BitVec 1) (body : IssueCtx → Act) : Host.Outcome State Fault Refusal :=
  issue s code (fun _ => { sp := sp == 1 }) body

/-! ## Write-backs (R161) -/

/-- A dirty line of a region: its scratchpad line, its region and its dirty bytes. -/
structure DirtyLine where
  ln : Nat
  reg : Region
  mask : BitVec 128

/-- The dirty lines of the write-enabled regions that `p` picks, in increasing region number. -/
def Team.dirtyLines (t : Team) (p : Nat → Region → Bool) : List DirtyLine :=
  t.regions.flatMap fun (r, g) =>
    if g.we && p r g then
      (t.lines.filter fun (ln, l) => g.off / 128 ≤ ln && ln < (g.off + g.len) / 128 && l.dirty != 0).map fun (ln, l) => ⟨ln, g, l.dirty⟩
    else []

/-- The global address of a line that is written back. -/
def DirtyLine.va (d : DirtyLine) : Nat := 128 * d.reg.globalLine d.ln

/-- Whether a line's page may be written: its lease slot and its leaf give the right (R161, R165). -/
def IssueCtx.mayWriteBack (x : IssueCtx) (d : DirtyLine) : Bool :=
  x.s.mayAccess x.gr 2 d.va 128 && (leafFault (x.s.leafOf x.c.core x.g.ctx d.va) 2).isNone

/-- The first line whose page may not be written. -/
def IssueCtx.badWriteBack (x : IssueCtx) (ds : List DirtyLine) : Option W64 :=
  (ds.find? fun d => !x.mayWriteBack d).map fun d => BitVec.ofNat 64 d.va

/-- Start the masked writes of dirty lines (R161): their masks clear, and SPW counts the whole. Lines whose
page may not be written stay D. `tok` is the token of the release that starts them. -/
def IssueCtx.writeBack (x : IssueCtx) (s : State) (ds : List DirtyLine) (tok flag : Option Nat) : State :=
  let good := ds.filter x.mayWriteBack
  let bad := x.badWriteBack ds
  let o : Op := { x.op (.wb tok) with ctr := some 3, flag, lanes := good.map (fun d => { lane := 0, addr := d.va }), size := 128
                                      pages := (good.map fun d => d.va / 4096).eraseDups
                                      fail := if tok.isNone then bad.map fun va => (13, va, 0) else none }
  let sp := match s.team? x.g.team with | some t => t.sp | none => []
  let s := s.updTeam x.g.team fun t => { t with
    lines := good.foldl (fun m d => m.upd d.ln fun l => { l with dirty := 0, keep := if l.filling then l.keep ||| l.dirty else 0 }) t.lines }
  if good.isEmpty then
    match o.fail with
    | some (cls, va, det) => s.addLate o cls va det
    | none => s
  else s.startOp o fun id s => good.map fun d =>
    { s.request id o 3 d.va with mask := d.mask, data := BitVec.ofNat 1024 (readLE (SMap.get 0 sp) (128 * d.ln) 128) }

/-! ## FENCE, FWAIT and WAITC (R181, R344 to R346) -/

/-- Whether an operation is in the covered set of a fence of a kind (R181): 1 acq, 2 rel, 3 both. An acquire covers the
loads, a tile's among them (R189). The remote writes of a release are covered at SYSTEM alone. -/
def Op.covered (o : Op) (kind scope : Nat) : Bool :=
  match o.kind with
  | .load _ _ | .loadQ _ _ | .uload _ | .dload _ | .atom _ _ | .fill | .ldsp _ _ | .atsp _ _ | .mld => true
  | .pref | .descRead | .walkRead _ | .traceWrite | .scrub _ | .image _ => false
  | _ => 2 ≤ kind && (!o.remote || scope == 3)

/-- What a fence of the issuing path covers, of all that comes before it in program order and has not performed: operations,
copies and collectives, and the writes of others that its loads have returned (R177, R181). -/
def IssueCtx.coveredSet (x : IssueCtx) (kind scope : Nat) : List Nat :=
  x.p.past.filter fun i => match x.s.ops.find i with
    | some o => o.covered kind scope
    | none => 2 ≤ kind && x.s.outstanding i && !(scope != 3 && x.s.cores.any fun (_, c) => c.copies.any fun (_, y) => y.id == i && y.remote)

/-- Requests of a core's flows that have not left ask for an immediate acknowledgement (R66). -/
def State.askAcks (s : State) (core : Nat) : State :=
  { s with lodra := { s.lodra with links := s.lodra.links.map fun (n, l) =>
      (n, { l with wait := l.wait.map fun (r, p) =>
        (r, if p.srt = coreRouter core ∧ p.sep = corePort core ∧ p.op < 0x10 then { p with akq := true } else p) }) } }

/-- Note which fence the FWAIT that the path issues, or the FENCE that acts as one, waits for. -/
def IssueCtx.noteFence (x : IssueCtx) (f : Option (W64 × Nat)) : State :=
  x.s.updPath x.c.core x.c.slot x.c.path fun p => { p with fwait := f }

/-- FENCE (R181, R344): the token is outstanding at once; a release starts its region write-backs. -/
def execFence (f : FenceF) (s : State) : Host.Outcome State Fault Refusal :=
  oneIssue s (firstCode [(f.k = 0, 4)]) f.sp fun x =>
    let t := f.t.toNat
    let kind := f.k.toNat
    let scope := f.g.toNat
    let tok := x.g.tokens.get {} t
    if tok.out then .start (x.noteFence (some (x.p.pc, tok.bound))) (.token t)
    else match tok.wbFault, x.s.team? x.g.team with
      | some va, _ => .trapAt (x.s.updGroup x.c.core x.c.slot fun g => { g with tokens := g.tokens.erase t }) tok.pc 13 va
      | none, none => .done x.s
      | none, some tm =>
        let ds := if 2 ≤ kind then tm.dirtyLines fun _ r => (if r.sys then 3 else 2) ≤ scope else []
        match if ds.any x.mayWriteBack then x.room 3 none else none with
        | some w => .park w
        | none =>
          let covers := x.coveredSet kind scope
          let wbId := x.s.stamp
          let s := x.writeBack x.s ds (some t) none
          let covers := if ds.any x.mayWriteBack then covers ++ [wbId] else covers
          let s := if 2 ≤ kind ∧ scope = 3 then s.askAcks x.c.core else s
          .done (s.updGroup x.c.core x.c.slot fun g => { g with
            tokens := g.tokens.put t { out := true, kind := f.k, scope := f.g, pc := x.p.pc, bound := wbId, covers, wbFault := x.badWriteBack ds } })

/-- FWAIT (R140, R345): wait until the fence that the token was bound to at the FWAIT's issue has taken effect, whatever a
sibling binds to it since; a deferred write-back fault is raised here, at the FENCE's PC. -/
def execFwait (f : FwaitF) (s : State) : Host.Outcome State Fault Refusal :=
  oneIssue s none f.sp fun x =>
    let t := f.t.toNat
    let tok := x.g.tokens.get {} t
    let rebound := match x.p.fwait with | some (pc, n) => pc == x.p.pc && n != tok.bound | none => false
    if rebound then .done (x.noteFence none)
    else if tok.out then .start (x.noteFence (some (x.p.pc, tok.bound))) (.token t)
    else match tok.wbFault with
      | some va => .trapAt (x.s.updGroup x.c.core x.c.slot fun g => { g with tokens := g.tokens.erase t }) tok.pc 13 va
      | none => .done (x.noteFence none)

/-- WAITC (R346): wait until a counter is at most UInt(Sv) as read here, of the operations that it counts here: "the counter covers
exactly the operations issued before the WAITC". -/
def execWaitc (f : WaitcF) (s : State) : Host.Outcome State Fault Refusal :=
  oneIssue s (firstCode [(6 ≤ f.c.toNat, 4)]) f.sp fun x =>
    match x.sWait [f.v.toNat] with
    | some w => .park w
    | none =>
      let thr := (x.g.sreg f.v.toNat).toNat
      if x.g.ctr f.c.toNat ≤ thr then .done x.s
      else .stay (x.s.updPath x.c.core x.c.slot x.c.path fun p =>
        { p with wait := .counter f.c.toNat thr ((x.g.ctrs.get [] f.c.toNat).map Prod.fst) (f.sp == 1) })

/-! ## Regions (R160, R161, R347, R348) -/

/-- Bytes of an element of a chain: FP32, FP16, BF16, INT32. -/
def chainSize (ty : Nat) : Nat := if ty = 1 ∨ ty = 2 then 2 else 4

/-- The scratchpad bytes that a copy in flight reads: its length counts the bytes that it writes. -/
def Copy.srcLen (y : Copy) : Nat := match y.chain with | some c => y.len / chainSize c.dstTy * chainSize c.srcTy | none => y.len

/-- Whether an access of the team to the scratchpad range [lo, lo + n) is in flight: a fill, a load, a store or an atomic, or a copy. -/
def State.spBusy (s : State) (team lo n : Nat) : Bool :=
  (s.ops.any fun (_, o) => o.team == team && o.lines.any fun ln => lo < 128 * ln + 128 && 128 * ln < lo + n) ||
  ((s.teamCores team).any fun c => (s.core c).copies.any fun (_, y) => y.team == team &&
    ((y.ssp && decide (lo < y.src.toNat + y.srcLen ∧ y.src.toNat < lo + n)) ||
     (y.dsp && decide (lo < y.dst.toNat + y.len ∧ y.dst.toNat < lo + n))))

/-- Whether a scratchpad range lies within the team's pages (R153, R159). -/
def spRangeOk (d : Desc) (off n : Nat) : Bool :=
  off % 2 ^ 18 + n ≤ 4096 * d.spages && (off < 2 ^ 18 || (d.pair && off < 2 ^ 19))

/-- Whether a scratchpad range meets one of the team's regions, other than region `r`. -/
def Team.meetsRegion (t : Team) (r : Option Nat) (off n : Nat) : Bool :=
  n != 0 && t.regions.any fun (q, g) => r != some q && g.off < off + n && off < g.off + g.len

/-- Unmap a region: its lines become plain local memory. -/
def Team.unmap (t : Team) (r : Nat) : Team :=
  match t.regions.find r with
  | none => t
  | some g => { t with regions := t.regions.erase r
                       lines := t.lines.filter fun (ln, _) => !(g.off / 128 ≤ ln && ln < (g.off + g.len) / 128) }

/-- Set region r; its lines start in I. -/
def State.mapRegion (s : State) (team r : Nat) (va : W64) (off len : Nat) (w3 : W32) : State :=
  if len = 0 then s
  else s.updTeam team fun t => { t with
    regions := t.regions.put r { off, len, va := va.toNat, sys := w3.getLsbD 31, we := w3.getLsbD 30 } }

/-- SPMAP (R347). -/
def execSpmap (f : SpmapF) (s : State) : Host.Outcome State Fault Refusal :=
  oneIssue s (firstCode [(oddReg f.b, 5)]) f.sp fun x =>
    let b := f.b.toNat
    let r := f.r.toNat
    match x.sWait [b, b + 1, b + 2, b + 3], x.s.team? x.g.team with
    | some w, _ => .park w
    | none, none => .done x.s
    | none, some t =>
      let va := x.g.spair b
      let off := (x.g.sreg (b + 2)).toNat
      let w3 := x.g.sreg (b + 3)
      let len := w3.toNat % 2 ^ 20
      if fld va 52 12 ≠ 0 ∨ va.toNat % 128 ≠ 0 ∨ 2 ^ 19 ≤ off ∨ off % 128 ≠ 0 ∨ len % 128 ≠ 0 ∨ w3.toNat / 2 ^ 20 % 2 ^ 10 ≠ 0
          ∨ !spRangeOk x.d off len ∨ t.meetsRegion (some r) off len then .trap 1 0 4
      else if len ≠ 0 && !x.s.mayAccess x.gr 1 va.toNat len then .trap 3 va 0
      else
        let old := t.regions.find r
        let ds := t.dirtyLines fun q _ => q == r
        if x.s.spBusy x.g.team off len then .park (.spRange off len)
        else match old with
          | some g => if x.s.spBusy x.g.team g.off g.len then .park (.spRange g.off g.len) else
              match if ds.any x.mayWriteBack then x.room 3 none else none with
              | some w => .park w
              | none =>
                let s := (x.writeBack x.s ds none none).updTeam x.g.team fun t => t.unmap r
                .done (s.mapRegion x.g.team r va off len w3)
          | none => .done (x.s.mapRegion x.g.team r va off len w3)
/-- The lines that SPFILL, SPWB and SPINV act on (R348): the whole region, or a range of it rounded outward
to lines and clipped. -/
def IssueCtx.regionLines (x : IssueCtx) (g : Region) (ranged : BitVec 1) (b : Nat) : List Nat :=
  let o := (x.g.sreg b).toNat
  let n := (x.g.sreg (b + 1)).toNat
  let lo := if ranged = 1 then min g.len (o / 128 * 128) else 0
  let hi := if ranged = 1 then (if n = 0 then lo else min g.len (ceilDiv (o + n) 128 * 128)) else g.len
  (List.range ((hi - lo) / 128)).map fun i => (g.off + lo) / 128 + i

/-- The common part of SPFILL, SPWB and SPINV: the operands, the region and its lines; fills and accesses in flight to
those lines end first. -/
def regionOp (s : State) (code : Option Nat) (sp : BitVec 1) (b r : Nat) (ranged : BitVec 1)
    (body : IssueCtx → Team → Region → List Nat → Act) : Host.Outcome State Fault Refusal :=
  oneIssue s code sp fun x =>
    match if ranged = 1 then x.sWait [b, b + 1] else none, x.s.team? x.g.team with
    | some w, _ => .park w
    | none, none => .done x.s
    | none, some t =>
      match t.regions.find r with
      | none => .trap 1 0 4
      | some g =>
        let lns := x.regionLines g ranged b
        match lns.find? t.lineFilling with
        | some ln => .park (.spLine ln)
        | none =>
          match x.s.ops.find? fun (_, o) => o.kind.isSp && o.team == x.g.team && o.lines.any lns.contains with
          | some (id, _) => .park (.store id)
          | none => body x t g lns

/-- SPFILL (R161, R348): fill the lines; dirty bytes are kept. -/
def execSpfill (f : RegionLF) (s : State) : Host.Outcome State Fault Refusal :=
  regionOp s (illegalRegion f.b f.g) f.sp f.b.toNat f.r.toNat f.g fun x t _ lns =>
    let flag := x.flagOf f.l
    if lns.isEmpty then .done x.s
    else match x.fillFault t lns with
      | some (cls, va, det) => .trap cls va det
      | none =>
        match x.room 2 flag with
        | some w => .park w
        | none => .done (x.startFill x.s t lns flag)

/-- SPWB (R161, R348): write dirty lines back; a page without write right is a late fault (R337). -/
def execSpwb (f : RegionLF) (s : State) : Host.Outcome State Fault Refusal :=
  regionOp s (illegalRegion f.b f.g) f.sp f.b.toNat f.r.toNat f.g fun x t _ lns =>
    let flag := x.flagOf f.l
    let ds := (t.dirtyLines fun q _ => q == f.r.toNat).filter fun d => lns.contains d.ln
    match if ds.any x.mayWriteBack then x.room 3 flag else none with
    | some w => .park w
    | none => .done (x.writeBack x.s ds none flag)

/-- SPINV (R161, R348): the lines become I. -/
def execSpinv (f : RegionF) (s : State) : Host.Outcome State Fault Refusal :=
  regionOp s (illegalRegion f.b f.g) f.sp f.b.toNat f.r.toNat f.g fun x _ _ lns =>
    let s := x.s.updTeam x.g.team fun t => { t with lines := t.lines.filter fun (ln, _) => !lns.contains ln }
    .done (s.touchSp x.g.team ((lns.map fun ln => ln / 32).eraseDups))

end Sys2Proof.Machine
end

