-- ==== Sys2Proof/Machine/Async.lean ====
section
/-! DEFINITION. Copies and chains, mailboxes, the remote binding and collectives: major 24, minors 8 to 12,
and the mailbox forms of VMOV (R44 to R49, R72, R73, R341, R349 to R356). -/

namespace Sys2Proof.Machine

/-! ## Ranges (R165, R349) -/

/-- Whether lease slots of a grid together give a right over [va, va + n): one slot after another carries
the range on. -/
def State.rangeCovered (s : State) (gr : Grid) (need va n : Nat) : Nat → Bool
  | 0 => false
  | k + 1 =>
    if n = 0 then true
    else
      let reach := (List.range 16).foldl (fun a i =>
        let l := s.lease gr.ctx (gr.leases[i]?.getD 255)
        if s.slotCovers gr need va 1 i then max a (l.base + l.len) else a) va
      if reach ≤ va then false
      else if va + n ≤ reach then true
      else s.rangeCovered gr need reach (va + n - reach) k

/-- Whether a range of global memory may be accessed with a right (R165). -/
def State.mayRange (s : State) (gr : Grid) (need va n : Nat) : Bool := va + n ≤ 2 ^ 52 && s.rangeCovered gr need va n 17

/-! ## CPY and CHAIN (R218, R349 to R352) -/

/-- What CPY and CHAIN ask of the copy unit. -/
structure CopyReq where
  dst : W64
  src : W64
  srcLen : Nat
  dstLen : Nat
  acq : Bool
  rel : Bool
  scope : BitVec 2
  ssp : Bool
  dsp : Bool
  remote : Bool := false
  fm : Bool := false
  route : Nat := 0
  chain : Option ChainSpec := none

/-- The first free copy slot of a core (R218). -/
def Core.freeCopySlot (c : Core) : Option Nat := (List.range 48).find? fun i => (c.copies.find i).isNone

/-- The checks of a copy and its start (R349, R350): it takes a slot and raises CPY. -/
def IssueCtx.startCopy (x : IssueCtx) (q : CopyReq) (l : BitVec 1) : Act :=
  let spBad (sp : Bool) (a : W64) (n : Nat) : Bool :=
    sp && (!spRangeOk x.d a.toNat n || (match x.s.team? x.g.team with | some t => t.meetsRegion none a.toNat n | none => true))
  let flag := x.flagOf l
  if q.remote && (q.dsp || ((q.acq || q.rel) && q.scope != 3)) then .trap 1 0 4
  else if spBad q.ssp q.src q.srcLen || spBad q.dsp q.dst q.dstLen then .trap 1 0 4
  else if !q.ssp && !x.s.mayRange x.gr 1 q.src.toNat q.srcLen then .trap 3 q.src 0
  else if !q.dsp && !q.remote && !x.s.mayRange x.gr 2 q.dst.toNat q.dstLen then .trap 3 q.dst 0
  else if q.remote && !x.s.routeOpen x.g.ctx q.route then .trap 8 0 0
  else if q.dstLen = 0 then .done x.s
  else match x.room 4 flag, (x.s.core x.c.core).freeCopySlot with
    | some w, _ => .park w
    | none, none => .park .copySlot
    | none, some i =>
      let id := x.s.stamp
      let y : Copy :=
        { slot := x.c.slot, gen := x.g.gen, path := x.c.path, pid := x.p.born, pc := x.p.pc, ctx := x.g.ctx, team := x.g.team, id
          dst := q.dst, src := q.src, len := q.dstLen, chain := q.chain, rel := q.rel, scope := q.scope, ssp := q.ssp
          dsp := q.dsp, remote := q.remote, fm := q.fm, route := q.route, flag
          acqOps := if q.acq then x.coveredSet 2 q.scope.toNat else [], turn := id }
      .done (((x.s.bump.updCore x.c.core fun c => { c with copies := c.copies.put i y }).updGroup x.c.core x.c.slot fun g =>
        let g := g.raise 4 id
        match flag with | some k => g.addFlag k | none => g).remember x.c.core x.c.slot x.c.path [id])

/-- Whether a context holds a COPY instance on a core (R122, R275 code 9). -/
def State.hasCopy (s : State) (core ctx : Nat) : Bool := (s.srv? 2 core ctx 0).isSome

/-- CPY (R349). -/
def execCpy (f : CpyF) (s : State) : Host.Outcome State Fault Refusal :=
  oneIssue s (firstCode [(oddReg f.b, 5)]) f.sp fun x =>
    let b := f.b.toNat
    match x.sWait ((List.range 6).map fun i => b + i) with
    | some w => .park w
    | none =>
      let n := (x.g.sreg (b + 4)).toNat
      let m := x.g.sreg (b + 5)
      if !x.s.hasCopy x.c.core x.g.ctx then .trap 1 0 9
      else if m.toNat / 2 ^ 18 ≠ 0 ∨ 2 ^ 31 < n then .trap 1 0 4
      else x.startCopy { dst := x.g.spair b, src := x.g.spair (b + 2), srcLen := n, dstLen := n, acq := m.getLsbD 0
                         rel := m.getLsbD 1, scope := m.extractLsb' 2 2, ssp := m.getLsbD 4, dsp := m.getLsbD 5
                         remote := m.getLsbD 6, fm := m.getLsbD 7, route := m.toNat / 256 % 1024 } f.l

/-- The operations of a chain: its bytes before the first code 0, with their constants; nothing where the
list breaks R351. -/
def chainOps (int : Bool) (k : Nat → W32) : List Nat → Option (List (Nat × W32))
  | [] => some []
  | b :: bs =>
    let code := b % 32
    let i := b / 32
    if code = 0 then (if bs.all (· = 0) then some [] else none)
    else if (if int then code < 16 ∨ 26 < code else 14 < code) ∨ (7 ≤ code ∧ code ≤ 13 ∧ i ≠ 0) then none
    else (chainOps int k bs).map fun os => (code, k i) :: os

/-- One operation of a chain on an element of the stream (R351). -/
def chainOp (code : Nat) (k x : W32) : W32 :=
  match code with
  | 1 => fp32.add 0 x k
  | 2 => fp32.sub 0 x k
  | 3 => fp32.sub 0 k x
  | 4 => fp32.mul 0 x k
  | 5 => fp32.minMax false x k
  | 6 => fp32.minMax true x k
  | 7 => fabs x
  | 8 => fneg x
  | 9 => special FV.rcp x
  | 10 => special FV.sqrt x
  | 11 => special FV.exp2 x
  | 12 => special FV.log2 x
  | 13 => special FV.tanh x
  | 14 => fscale x k
  | 16 => x + k
  | 17 => x - k
  | 18 => x * k
  | 19 => x &&& k
  | 20 => x ||| k
  | 21 => x ^^^ k
  | 22 => shl x k
  | 23 => shr x k
  | 24 => sar x k
  | 25 => minS x k
  | 26 => maxS x k
  | _ => x

/-- The value of an element of a chain's source or destination type. -/
def chainValue (ty x : Nat) : FV :=
  match ty with
  | 0 => fp32.value x
  | 1 => fp16.value x
  | 2 => bf16.value x
  | _ => .ofInt (BitVec.ofNat 32 x).toInt

/-- A stream value as an element of the destination type, rounded .rn (R232, R234). -/
def chainCode (ty : Nat) (v : FV) : Nat :=
  match ty with
  | 0 => fp32.enc 0 v
  | 1 => fp16.enc 0 v
  | 2 => bf16.enc 0 v
  | _ => intCode 32 (v.toInt 0 (intLo true 32) (intHi true 32))

/-- What a chain makes of one source element (R352). -/
def ChainSpec.elem (c : ChainSpec) (x : Nat) : Nat :=
  let int := c.srcTy = 3 ∧ c.dstTy = 3
  let y : W32 := if int then BitVec.ofNat 32 x else fp32.code 32 0 (chainValue c.srcTy x)
  let z := c.ops.foldl (fun y (code, k) => chainOp code k y) y
  if int then z.toNat else chainCode c.dstTy (fp32.value z.toNat)

/-- CHAIN (R351). -/
def execChain (f : CpyF) (s : State) : Host.Outcome State Fault Refusal :=
  oneIssue s (firstCode [(oddReg f.b, 5)]) f.sp fun x =>
    let b := f.b.toNat
    match x.sWait ((List.range 16).map fun i => b + i) with
    | some w => .park w
    | none =>
      let n := (x.g.sreg (b + 4)).toNat
      let m := x.g.sreg (b + 5)
      let srcTy := m.toNat / 64 % 4
      let dstTy := m.toNat / 256 % 4
      let ops := chainOps (decide (srcTy = 3 ∧ dstTy = 3)) (fun i => x.g.sreg (b + 8 + i))
        ((bytesLE 8 (x.g.spair (b + 6)).toNat).map BitVec.toNat)
      if !x.s.hasCopy x.c.core x.g.ctx then .trap 1 0 9
      else match ops with
        | none => .trap 1 0 4
        | some os =>
          if m.toNat / 2 ^ 10 ≠ 0 ∨ 2 ^ 28 < n then .trap 1 0 4
          else x.startCopy { dst := x.g.spair b, src := x.g.spair (b + 2), srcLen := n * chainSize srcTy
                             dstLen := n * chainSize dstTy, acq := m.getLsbD 0, rel := m.getLsbD 1, scope := m.extractLsb' 2 2
                             ssp := m.getLsbD 4, dsp := m.getLsbD 5, chain := some { srcTy, dstTy, ops := os } } f.l

/-! ## Mailboxes (R44 to R49, R353, R354) -/

def Group.mbSend (g : Group) (n : Nat) : MbSend := g.mbs.get {} n
def Group.mbRecv (g : Group) (n : Nat) : MbRecv := g.mbg.get {} n
def Core.recvQ (c : Core) (q : Nat) : RecvQ := c.recv.get {} q

/-- Flits of a message of a width code (R45). -/
def msgFlits (wc : Nat) : Nat := if wc = 2 then 2 else 1

/-- Inject the message that MBSn holds (R33, R45, R49). -/
def State.injectMail (s : State) (core slot n : Nat) : State :=
  match s.group? core slot with
  | none => s
  | some g =>
    let m := g.mbSend n
    let dc := m.dcore.toNat
    let p : Pkt :=
      { op := 0x20, drt := coreRouter dc, dep := corePort dc, srt := coreRouter core, sep := corePort core
        part := s.ctxPart g.ctx, ctx := g.ctx, cls := if s.rfld (.svcfg g.ctx 0) 48 3 = 0 then 0 else 1
        addr := m.dq.toNat + 16 * g.wc + 64 * n, img := m.img, core, slot, gen := g.gen, stage := .net (coreRouter core), born := s.now, arr := s.stamp, came := s.now
        inp := corePort core, frec := s.faultRec core g m.path (g.path m.path).mask m.pc 5 0 0, pid := m.pid, grid := g.grid }
    ({ s.bump with pkts := s.pkts.put s.stamp p }).updGroup core slot fun g => { g with mbs := g.mbs.put n { m with retry := none } }

/-- MBSET.send (R353). -/
def execMbsetSend (f : MbsetF) (s : State) : Host.Outcome State Fault Refusal :=
  oneIssue s none f.sp fun x =>
    let n := f.n.toNat
    match x.sWait [f.a.toNat] with
    | some w => .park w
    | none =>
      let v := x.g.sreg f.a.toNat
      let dc := v.toNat % 256
      if v.toNat / 2 ^ 12 ≠ 0 then .trap 1 0 4
      else if !x.s.partHasUnit (x.s.ctxPart x.g.ctx) (unitOfCore dc) then .trap 7 0 0
      else if (x.g.mbSend n).busy then .park (.busy n)
      else .done (x.s.updGroup x.c.core x.c.slot fun g => { g with
        mbs := g.mbs.put n { (g.mbSend n) with dcore := v.extractLsb' 0 8, dq := v.extractLsb' 8 4, svalid := true } })

/-- MBSET.recv (R44, R353): bind MBGn to a queue of the core; a free queue opens for the team. -/
def execMbsetRecv (f : MbsetF) (s : State) : Host.Outcome State Fault Refusal :=
  oneIssue s none f.sp fun x =>
    match x.sWait [f.a.toNat] with
    | some w => .park w
    | none =>
      let v := x.g.sreg f.a.toNat
      let q := v.toNat % 16
      let r := (x.s.core x.c.core).recvQ q
      if v.toNat / 16 ≠ 0 then .trap 1 0 4
      else if r.st ≠ 0 ∧ r.team ≠ x.g.team then .trap 7 0 0
      else
        let s := if r.st = 0 then x.s.updCore x.c.core fun c => { c with recv := c.recv.put q { ctx := x.g.ctx, team := x.g.team, st := 1 } } else x.s
        .done (s.updGroup x.c.core x.c.slot fun g => { g with mbg := g.mbg.put f.n.toNat { rq := v.extractLsb' 0 4, rvalid := true } })

/-- MBSET.route (R341, R342, R353): the remote binding. It leaves the field n unused (R275). -/
def execMbsetRoute (f : MbsetF) (s : State) : Host.Outcome State Fault Refusal :=
  oneIssue s (illegalMbsetRoute f) f.sp fun x =>
    match x.sWait [f.a.toNat] with
    | some w => .park w
    | none =>
      let v := x.g.sreg f.a.toNat
      let r := v.toNat % 1024
      if v.toNat / 2 ^ 11 ≠ 0 then .trap 1 0 4
      else if !(x.s.rteValid r && x.s.rteLctx r == x.g.ctx && !x.s.rteDrain r) then .trap 8 0 0
      else .done (x.s.updGroup x.c.core x.c.slot fun g => { g with route := r, fm := v.getLsbD 10, rOn := true })

/-- MBSET.local (R353). -/
def execMbsetLocal (f : SafeF) (s : State) : Host.Outcome State Fault Refusal :=
  oneIssue s none f.sp fun x => .done (x.s.updGroup x.c.core x.c.slot fun g => { g with rOn := false })

/-- MBPOLL (R47, R353). -/
def execMbpoll (f : MbpollF) (s : State) : Host.Outcome State Fault Refusal :=
  oneIssue s none f.sp fun x =>
    let m := x.g.mbRecv f.n.toNat
    if !m.rvalid then .trap 7 0 0
    else
      let r := !((x.s.core x.c.core).recvQ m.rq.toNat).msgs.isEmpty
      .done (x.s.updGroup x.c.core x.c.slot fun g => g.setK f.k.toNat r)

/-- VMOV MBSn, Va (R45, R354): send a whole register. -/
def execVmovMbs (f : MbsF) (s : State) : Host.Outcome State Fault Refusal :=
  laneIssue s none f.sp fun x =>
    let a := f.a.toNat
    let n := f.n.toNat
    match x.laneFault [a] [] [] with
    | some (cls, det) => .trap cls 0 det
    | none =>
      let m := x.g.mbSend n
      if !m.svalid then .trap 7 0 0
      else match firstWait [x.laneWait [a] [] [], if m.busy then some (.busy n) else none] with
        | some w => .park w
        | none =>
          let s := (x.s.popQueues x [a]).updGroup x.c.core x.c.slot fun g =>
            { g with mbs := g.mbs.put n { m with busy := true, path := x.c.path, pid := x.p.born, pc := x.p.pc, img := VReg.ofFn x.w (x.vsrc a).lane } }
          .done (s.injectMail x.c.core x.c.slot n)

/-- Whether a group may take the oldest message of a queue: the group that began waiting first does (R47). -/
def RecvQ.mine (r : RecvQ) (slot : Nat) : Bool :=
  !r.msgs.isEmpty && (match r.waiters with | [] => true | w :: _ => w.1 == slot)

/-- VMOV Vd, MBGn (R47, R354): receive the oldest message. -/
def execVmovMbg (f : MbgF) (s : State) : Host.Outcome State Fault Refusal :=
  laneIssue s none f.sp fun x =>
    let d := f.d.toNat
    let m := x.g.mbRecv f.n.toNat
    let q := m.rq.toNat
    match x.laneFault [] [] [d] with
    | some (cls, det) => .trap cls 0 det
    | none =>
      if !m.rvalid then .trap 7 0 0
      else match x.laneWait [] [] [d] with
        | some w => .park w
        | none =>
          let r := (x.s.core x.c.core).recvQ q
          let set (s : State) (r : RecvQ) : State := s.updCore x.c.core fun c => { c with recv := c.recv.put q r }
          match r.msgs with
          | msg :: more =>
            if r.mine x.c.slot then
              let s := set x.s { r with msgs := more, waiters := r.waiters.erase (x.c.slot, x.c.path) }
              if msg.bad then .trapAt s x.p.pc 6 0
              else match x.writeDst s [] d x.p.mask (fun i => if i < msg.width then msg.img.lane i else 0) none with
              | some s => .done s
              | none => .park .place
            else if r.waiters.contains (x.c.slot, x.c.path) then .park (.msg q)
            else .start (set x.s { r with waiters := r.waiters ++ [(x.c.slot, x.c.path)] }) (.msg q)
          | [] =>
            if r.waiters.contains (x.c.slot, x.c.path) then .park (.msg q)
            else .start (set x.s { r with waiters := r.waiters ++ [(x.c.slot, x.c.path)] }) (.msg q)

/-! ## Collectives (R72, R73, R355, R356) -/

/-- Peers of a mask, in device order. -/
def peersOf (m : W64) : List Nat := (List.range 64).filter fun d => m.getLsbD d

/-- Bytes of an element of a collective: FP32, BF16, FP16, INT32. -/
def collSize (ty : Nat) : Nat := if ty = 1 ∨ ty = 2 then 2 else 4

/-- Elements that RECV holds (R356). -/
def collRecvCount (op count n : Nat) : Nat := if op = 3 then count * n else if op = 4 then count / n else count

/-- A route of a context to a peer with a job tag (R72). -/
def State.jobRoute (s : State) (ctx job dev : Nat) : Option Nat :=
  (List.range 1024).find? fun i => s.rteValid i && s.rteLctx i == ctx && s.rtePeer i == dev && s.rteJob i == job && !s.rteDrain i

/-- Send a system packet of a collective over a route, in class 0 (R55, R72). -/
def State.sendSystem (s : State) (route op job inst reason : Nat) : State :=
  s.onStrand route { ddev := s.rtePeer route, sdev := s.devId, srt := 0, sep := 15, route := s.rteRidx route, cls := 0, fm := false
                     seq := 0, op, addr := job + inst * 2 ^ 16 + reason * 2 ^ 48, akq := false, data := [] }

/-- Send a system packet to other peers of a collective. -/
def State.tellPeers (s : State) (c : Coll) (op reason : Nat) : State :=
  (peersOf c.peers).foldl (fun s d =>
    if d = s.devId then s
    else match s.jobRoute c.ctx c.job d with
      | some r => s.sendSystem r op c.job c.inst reason
      | none => s) s

/-- The coordinator of a collective: its lowest peer (R72). -/
def Coll.coord (c : Coll) : Nat := match peersOf c.peers with | d :: _ => d | [] => 0

/-- The body of an instruction that reads a descriptor of 64 bytes first: one read, at its issue, from the home slice (R355). -/
def IssueCtx.withDescriptor (x : IssueCtx) (a : W64) (body : Nat → Act) : Act :=
  let l : LaneAcc := { lane := 0, addr := a.toNat }
  let set (s : State) (d : Option CollDesc) : State := s.updPath x.c.core x.c.slot x.c.path fun p => { p with desc := d }
  match x.p.desc with
  | some .reading => .park .desc
  | some (.bytes img) => body img
  | some (.failed cls va det) => .trap cls va det
  | none =>
    if a.toNat % 64 ≠ 0 then .trap 1 0 4
    else match x.laneAccess 64 1 l with
      | some (cls, va, det) => .trap cls va det
      | none =>
        let o : Op := { x.op .descRead with lanes := [l], size := 64 }
        .start ((set x.s (some .reading)).startOp o fun id s => s.reads id o [a.toNat / 128]) .desc

/-- COLL (R72, R355). -/
def execColl (f : CollF) (s : State) : Host.Outcome State Fault Refusal :=
  oneIssue s (firstCode [(oddReg f.b, 5)]) f.sp fun x =>
    let b := f.b.toNat
    match x.sWait [b, b + 1] with
    | some w => .park w
    | none => x.withDescriptor (x.g.spair b) fun img =>
      let at? (lo n : Nat) : Nat := img / 2 ^ (8 * lo) % 2 ^ (8 * n)
      let op := at? 8 1
      let ty := at? 9 1
      let count := at? 16 8
      let peers := BitVec.ofNat 64 (at? 40 8)
      let n := (peersOf peers).length
      let job := at? 0 2
      let inst := at? 4 4
      let own := x.s.devId
      let mine := x.s.lodra.colls.filter fun (_, c) => c.team == x.g.team
      let flag := x.flagOf f.l
          if at? 2 2 ≠ 0 ∨ at? 12 4 ≠ 0 ∨ at? 49 15 ≠ 0 ∨ 4 < op ∨ 3 < ty ∨ count = 0 ∨ 2 ^ 32 < count ∨ n < 2 ∨
              !peers.getLsbD own ∨ (op = 0 ∧ !((peersOf peers).contains (at? 48 1))) ∨ (op = 4 ∧ count % n ≠ 0) then .trap 1 0 4
          else if !x.s.mayRange x.gr 1 (at? 24 8) (count * collSize ty) then .trap 3 (BitVec.ofNat 64 (at? 24 8)) 0
          else if !x.s.mayRange x.gr 2 (at? 32 8) (collRecvCount op count n * collSize ty) then .trap 3 (BitVec.ofNat 64 (at? 32 8)) 0
          else if (peersOf peers).any fun d => d != own && (x.s.jobRoute x.g.ctx job d).isNone then .trap 8 0 0
          else if mine.any fun (_, c) => c.job == job && c.inst == inst then .trap 10 0 0
          else if 2 ≤ mine.length then .park .collRoom
          else match x.flagFull flag with
            | some w => .park w
            | none =>
              let c : Coll :=
                { team := x.g.team, ctx := x.g.ctx, core := x.c.core, slot := x.c.slot, gen := x.g.gen, path := x.c.path, pid := x.p.born, pc := x.p.pc
                  job, inst, op, ty, hto := if at? 10 2 = 0 then 1000 else at? 10 2, count, send := BitVec.ofNat 64 (at? 24 8)
                  recv := BitVec.ofNat 64 (at? 32 8), peers, root := at? 48 1, flag, rel := f.r == 1, scope := f.g
                  hoisted := 1#64 <<< own, acqOps := if f.e = 1 then x.coveredSet 2 f.g.toNat else [] }
              let s := { x.s.bump with lodra := { x.s.lodra with colls := x.s.lodra.colls.put x.s.stamp c } }
              let s := match flag with | some k => s.updGroup x.c.core x.c.slot fun g => g.addFlag k | none => s
              let s := s.updPath x.c.core x.c.slot x.c.path fun p => { p with desc := none }
              .done (if c.coord = own then s
                else match s.jobRoute c.ctx job c.coord with
                  | some r => s.sendSystem r 0x31 job inst 0
                  | none => s)

end Sys2Proof.Machine
end

