-- ==== Sys2Proof/Machine/Access.lean ====
section
/-! DEFINITION. The access slice: major 25 (R215, R270, R357 to R359). -/

namespace Sys2Proof.Machine

/-- The access thread that issues, with everything its instruction reads. -/
structure AccCtx where
  s : State
  c : Cur
  g : Group
  a : Acc
  gr : Grid

/-- What an instruction of the access slice does at its issue. -/
inductive AccAct where
  | trap (cls : Nat) (va : W64) (detail : Nat)
  | wait (a : AccAwait)
  | go (s : State) (a : Acc)

/-- The thread goes on at the next parcel. -/
def Acc.next (a : Acc) : Acc := { a with pc := a.pc + 4, left := a.left - 1, await := none }

/-- Replace the access thread of a group. -/
def State.setAcc (s : State) (c : Cur) (a : Acc) : State :=
  s.updGroup c.core c.slot fun g => { g with acc := some a }

/-- One issue of the access thread (R357): not charged. An AS parcel in the execute slice traps (R270). -/
def accIssue (s : State) (code : Option Nat) (body : AccCtx → AccAct) : Host.Outcome State Fault Refusal :=
  match s.cur with
  | none => .fault .noIssuingPath
  | some c =>
    if !c.access then issue s (some 7) (fun _ => {}) fun _ => .trap 1 0 7
    else
      let s := { s with cur := none }
      match s.group? c.core c.slot with
      | none => .next s
      | some g =>
        match g.acc with
        | none => .next s
        | some a =>
          if a.left = 0 then .next (s.accessFault c.core c.slot a.pc 1 0 6)
          else match code with
            | some k => .next (s.accessFault c.core c.slot a.pc 1 0 k)
            | none =>
              match body { s, c, g, a, gr := s.grid g.grid } with
              | .trap cls va det => .next (s.accessFault c.core c.slot a.pc cls va det)
              | .wait w => .next (s.setAcc c { a with await := some w })
              | .go s a => .next (s.setAcc c a)

/-- Affine register n. -/
def Acc.axr (a : Acc) (n : Nat) : W64 := a.ax.get 0 n
def Acc.setAx (a : Acc) (n : Nat) (v : W64) : Acc := { a with ax := SMap.set 0 a.ax n v }

/-- Where a thread goes on after the ANEXT that closes the level it skips: the place, and the parcels left of
the clause there. Nothing where the slice ends first. -/
def State.afterNext (s : State) (ctx : Nat) (pc : W64) (left depth : Nat) : Nat → Option (W64 × Nat)
  | 0 => none
  | n + 1 =>
    let w := s.virtRead ctx pc.toNat 4
    if left = 0 then
      if w % 64 = 63 ∧ w / 2 ^ 26 ≠ 0 then s.afterNext ctx (pc + 4) (w / 2 ^ 26) depth n else none
    else if w % 512 = 51 then s.afterNext ctx (pc + 4) (left - 1) (depth + 1) n
    else if w % 512 = 115 then
      if depth = 0 then some (pc + 4, left - 1) else s.afterNext ctx (pc + 4) (left - 1) (depth - 1) n
    else s.afterNext ctx (pc + 4) (left - 1) depth n

/-- Parcels from an address to the end of the slots that hold it. -/
def State.slotParcels (s : State) (gr : Grid) (pc : Nat) : Nat :=
  (List.range 16).foldl (fun a i =>
    let l := s.lease gr.ctx (gr.leases[i]?.getD 255)
    if s.slotCovers gr 1 pc 1 i then max a ((l.base + l.len - pc) / 4 + 1) else a) 0

/-- What the acquire of a nest waits for (R188, R358): the writes of the group's engines that have been sent and the thread's
own earlier accesses. -/
def AccCtx.unperformed (x : AccCtx) : Bool :=
  x.s.ops.any fun (_, o) => o.ofGroup x.c.core x.c.slot x.g &&
    match o.kind with | .copyWrite _ | .mst | .collWrite _ | .astq | .aldq _ => true | _ => false

/-- Whether the flag and the acquire of an AFOR let its nest begin (R358). -/
def AccCtx.mayOpen (x : AccCtx) (k : Nat) (acq : Bool) : Bool :=
  (k == 15 || x.g.flag k == 0) && !(acq && x.unperformed)

/-- AFOR (R358): open a loop level; with a count of 0 go on after its ANEXT. -/
def execAfor (f : AforF) (s : State) : Host.Outcome State Fault Refusal :=
  accIssue s (firstCode [(12 ≤ f.k.toNat ∧ f.k ≠ 15, 4)]) fun x =>
    let n := (x.g.sreg f.a.toNat).toNat
    let k := f.k.toNat
    let a := x.a.next
    if f.x.toNat ≠ x.a.loops.length then .trap 1 0 6
    else if n = 0 then
      match x.s.afterNext x.g.ctx a.pc a.left 0 (x.s.slotParcels x.gr a.pc.toNat) with
      | some (pc, left) => .go x.s { a with pc, left }
      | none => .trap 1 0 6
    else if !x.mayOpen k (f.c == 1) then .wait (.flag k (f.c == 1))
    else .go x.s { a with loops := a.loops ++ [{ count := n, body := a.pc, left := a.left }] }

/-- ANEXT (R358): repeat or close the innermost level. -/
def execAnext (f : AnextF) (s : State) : Host.Outcome State Fault Refusal :=
  accIssue s none fun x =>
    let a := x.a.next
    match x.a.loops.getLast? with
    | none => .trap 1 0 6
    | some l =>
      if f.x.toNat + 1 ≠ x.a.loops.length then .trap 1 0 6
      else if 1 < l.count then
        .go x.s { a with pc := l.body, left := l.left, loops := x.a.loops.dropLast ++ [{ l with count := l.count - 1 }] }
      else .go x.s { a with loops := x.a.loops.dropLast }

/-- An operation that the access thread starts on all W lanes at an affine register (R357). -/
def AccCtx.op (x : AccCtx) (kind : OpKind) (va : W64) : Op :=
  { core := x.c.core, slot := x.c.slot, gen := x.g.gen, path := 255, grp := x.g.num, pc := x.a.pc, ctx := x.g.ctx
    team := x.g.team, kind, size := 4, lanes := (List.range x.g.w).map fun i => { lane := i, addr := va.toNat + 4 * i } }

/-- The fault of an access of W lanes: that of the lowest-numbered failing lane (R165, R166). -/
def AccCtx.fault? (x : AccCtx) (va : W64) (need : Nat) : Option (Nat × W64 × Nat) :=
  (x.op .astq va).lanes.findSome? (x.s.laneFault? x.gr x.c.core x.g.ctx 4 need)

/-- The checks of ALDQ and ASTQ: the queue is declared and the register aligned (R358). -/
def AccCtx.queueFault (x : AccCtx) (q : Nat) (va : W64) : Option Nat :=
  if x.gr.desc.qmask / 2 ^ q % 2 = 0 then some 5 else if va.toNat % 4 ≠ 0 then some 4 else none

/-- AXx after ALDQ or ASTQ. -/
def Acc.bumpAx (a : Acc) (x : Nat) (i : BitVec 12) : Acc := a.setAx x (a.axr x + 4 * i.signExtend 64)

/-- ALDQ (R358): load W × 4 bytes into the next entry of a queue. -/
def execAldq (f : AldqF) (s : State) : Host.Outcome State Fault Refusal :=
  accIssue s none fun x =>
    let q := f.q.toNat
    let va := x.a.axr f.x.toNat
    match x.queueFault q va with
    | some k => .trap 1 0 k
    | none =>
      if !(x.g.queue q).room x.gr.desc.qdepth then .wait (.room q)
      else match x.fault? va 1 with
        | some (cls, v, det) => .trap cls v det
        | none =>
          if 255 ≤ x.g.ctr 5 then .wait .ctrRoom
          else
            let o : Op := { x.op (.aldq q) va with ctr := some 5 }
            let s := x.s.updGroup x.c.core x.c.slot fun g => g.setQueue q { (g.queue q) with fills := (g.queue q).fills + 1 }
            .go (s.startOp o fun id s => s.reads id o (touchedLines o.lanes 4)) (x.a.next.bumpAx f.x.toNat f.i)

/-- ASTQ (R358): pop an entry and store its W × 4 bytes. -/
def execAstq (f : AldqF) (s : State) : Host.Outcome State Fault Refusal :=
  accIssue s none fun x =>
    let q := f.q.toNat
    let va := x.a.axr f.x.toNat
    match x.queueFault q va with
    | some k => .trap 1 0 k
    | none =>
      if (x.g.queue q).len = 0 then .wait (.data q)
      else match x.fault? va 2 with
        | some (cls, v, det) => .trap cls v det
        | none =>
          let e := (x.g.queue q).front x.gr.desc.qdepth
          let o := x.op .astq va
          let o := { o with lanes := o.lanes.map fun l => { l with x := (e.lane l.lane).setWidth 64 }, pages := touchedPages o.lanes 4 }
          let a := { x.a.next.bumpAx f.x.toNat f.i with stores := x.a.stores ++ [x.s.stamp] }
          let s := x.s.updGroup x.c.core x.c.slot fun g => { g.setQueue q (g.queue q).pop with acc := some a }
          .go (s.startOp o fun id s => s.laneWrites id o 0) a

/-- ASET (R358): AXx := S pair + SExt(m) × g. -/
def execAset (f : AsetF) (s : State) : Host.Outcome State Fault Refusal :=
  accIssue s (firstCode [(oddReg f.a, 5)]) fun x =>
    .go x.s (x.a.next.setAx f.x.toNat (x.g.spair f.a.toNat + f.i.signExtend 64 * BitVec.ofNat 64 x.g.num))

/-- AINC (R358): AXx := AXx + (SInt(Sa) or 0) + SExt(imm). -/
def execAinc (f : AincF) (s : State) : Host.Outcome State Fault Refusal :=
  accIssue s (firstCode [(f.f = 1 ∧ f.a ≠ 0, 3)]) fun x =>
    let r := if f.f = 1 then 0 else (x.g.sreg f.a.toNat).signExtend 64
    .go x.s (x.a.next.setAx f.x.toNat (x.a.axr f.x.toNat + r + f.i.signExtend 64))

/-- ASIG (R358): Fk rises by one, and falls when the thread's earlier stores have performed (REL) or been
sent. -/
def execAsig (f : AsigF) (s : State) : Host.Outcome State Fault Refusal :=
  accIssue s (firstCode [(12 ≤ f.k.toNat, 4)]) fun x =>
    let k := f.k.toNat
    if 255 ≤ x.g.flag k then .wait (.flagRoom k)
    else if f.c = 0 ∨ x.a.stores.isEmpty then .go x.s x.a.next
    else .go (x.s.updGroup x.c.core x.c.slot fun g => g.addFlag k)
      { x.a.next with sigs := x.a.sigs ++ [{ flag := k, ops := x.a.stores }] }

/-- AHALT (R358): the thread ends. -/
def execAhalt (s : State) : Host.Outcome State Fault Refusal :=
  accIssue s none fun x => .go x.s { x.a.next with halted := true }

/-- Whether what an access thread waits for has come about. -/
def State.accHolds (s : State) (core slot : Nat) (g : Group) (a : Acc) : Bool :=
  match a.await with
  | none => true
  | some (.flag k acq) => AccCtx.mayOpen { s, c := { core, slot, path := 255 }, g, a, gr := s.grid g.grid } k acq
  | some (.flagRoom k) => decide (g.flag k < 255)
  | some (.room q) => (g.queue q).room (s.grid g.grid).desc.qdepth
  | some (.data q) => (g.queue q).len != 0
  | some .ctrRoom => decide (g.ctr 5 < 255)

/-- Whether an access thread can issue. -/
def State.accReady (s : State) (core slot : Nat) (g : Group) : Bool :=
  match g.acc with
  | none => false
  | some a => !a.halted && !g.done && !g.stopped && g.unplaced.isEmpty && s.standing core g.quarter && s.accHolds core slot g a

end Sys2Proof.Machine
end

