-- ==== Sys2Proof/Machine/Matrix.lean ====
section
/-! DEFINITION. The matrix engine: major 26, the turns of a bank queue and the grant of a bank (R217, R236 to
R238, R362 to R375). -/

namespace Sys2Proof.Machine

/-! ## Shapes and elements (R268, R365) -/

/-- A region of a tile: the tile, its first row and column, and n. -/
structure RegionAt where
  t : Nat
  row : Nat
  col : Nat
  n : Nat

/-- The region that a REGION code names (R217, R268). -/
def regionAt (r : Nat) : RegionAt :=
  if r < 64 then ⟨r / 16, 16 * (r % 16 / 4), 16 * (r % 4), 16⟩
  else if r < 80 then ⟨(r - 64) / 4, 32 * (r % 4 / 2), 32 * (r % 2), 32⟩
  else ⟨r - 80, 0, 0, 64⟩

/-- Where element (i, j) of a region stands in its bank. -/
def RegionAt.key (r : RegionAt) (i j : Nat) : Nat := 4096 * r.t + 64 * (r.row + i) + r.col + j

/-- The partial tile of an MSCA: the other tile, at the same place (R373). -/
def RegionAt.other (r : RegionAt) : RegionAt := { r with t := 1 - r.t }

/-- The indices (i, j) of a region, row by row. -/
def RegionAt.places (r : RegionAt) : List (Nat × Nat) := (List.range r.n).flatMap fun i => (List.range r.n).map fun j => (i, j)

/-- The K-step of a type (R365). -/
def typeK (ty : Nat) : Nat := if ty < 2 then 16 else if ty = 6 then 64 else 32

/-- Registers of a fragment (R365). -/
def fragRegs (w n ty : Nat) : Nat := n * typeK ty * typeBits ty / (32 * w)

/-- The image of consecutive registers: each register's lanes, lowest first. -/
def fragImage (w : Nat) : List VReg → Nat
  | [] => 0
  | r :: rs => r.toNat % 2 ^ (32 * w) + 2 ^ (32 * w) * fragImage w rs

/-- Element e of a fragment's image, as a code of its type. -/
def fragElem (ty img e : Nat) : Nat := img / 2 ^ (typeBits ty * e) % 2 ^ typeBits ty

/-- The value of a code of a matrix type; LNS6 is apart (R228). -/
def matValue (ty c : Nat) : FV :=
  match ty with
  | 0 => bf16.value c
  | 1 => fp16.value c
  | 2 => e4m3.value c
  | 3 => e5m2.value c
  | 4 => .ofInt (intVal true 8 c)
  | _ => .ofInt c

/-- The exact product of two codes. -/
def matProduct (ty a b : Nat) : FV := if ty = 6 then lnsMul a b else (matValue ty a).mul (matValue ty b)

/-! ## Effects on tiles -/

def Bank.elem (b : Bank) (k : Nat) : W32 := b.tiles.get 0 k
def Bank.put (b : Bank) (k : Nat) (v : W32) : Bank := { b with tiles := SMap.set 0 b.tiles k v }

/-- One tile-step (R367): A and B fragments into the accumulators of a region. -/
def Bank.tileStep (b : Bank) (m : MOp) (w : Nat) (fa fb : List VReg) : Bank :=
  let r := regionAt m.region
  let k := typeK m.ty
  let a := fragImage w fa
  let c := fragImage w fb
  r.places.foldl (fun t (i, j) =>
    let ps := (List.range k).map fun d =>
      if m.rowM.getLsbD i && m.colM.getLsbD j && m.depM.getLsbD d then matProduct m.ty (fragElem m.ty a (i * k + d)) (fragElem m.ty c (j * k + d))
      else .fin false 0 0
    t.put (r.key i j) (fp32.add 0 (b.elem (r.key i j)) (stepSum (decide (m.ty < 2)) ps))) b

/-- MSCA (R373): add the scaled partial tile. -/
def Bank.scale (b : Bank) (m : MOp) (w : Nat) (fa fb : List VReg) : Bank :=
  let r := regionAt m.region
  let lane (f : List VReg) (i : Nat) : FV := fp32.value ((f[i / w]?.getD 0).lane (i % w)).toNat
  r.places.foldl (fun t (i, j) =>
    if m.rowM.getLsbD i && m.colM.getLsbD j then
      let p := ((fp32.value (b.elem (r.other.key i j)).toNat).mul (lane fa i)).mul (lane fb j)
      t.put (r.key i j) (fp32.code 32 0 ((fp32.value (b.elem (r.key i j)).toNat).add false p))
    else t) b

/-- MZERO (R373). -/
def Bank.zeroRegion (b : Bank) (m : MOp) : Bank :=
  let r := regionAt m.region
  r.places.foldl (fun t (i, j) => t.put (r.key i j) 0) b

/-- An accumulator as a code of an MCVT's destination format (R372). -/
def cvtCode (ty mode : Nat) (v : W32) : Nat :=
  let x := fp32.value v.toNat
  match ty with
  | 0 => bf16.enc mode x
  | 1 => fp16.enc mode x
  | 2 => e4m3.enc mode x
  | 3 => e5m2.enc mode x
  | 4 => intCode 8 (x.toInt mode (intLo true 8) (intHi true 8))
  | 5 => intCode 8 (x.toInt mode (intLo false 8) (intHi false 8))
  | 6 => lnsEnc mode x
  | _ => fp32.enc mode x

/-- The image that an MCVT writes (R372). -/
def Bank.cvtImage (b : Bank) (m : MOp) : Nat :=
  let r := regionAt m.region
  r.places.reverse.foldl (fun a (i, j) => a * 2 ^ typeBits m.ty + cvtCode m.ty m.mode (b.elem (r.key i j))) 0

/-! ## Entering a bank queue (R363, R364, R366) -/

/-- A matrix instruction other than MBANK: its team holds a bank on this core. -/
def mxIssue (s : State) (code : Option Nat) (body : IssueCtx → Nat → Bank → Act) : Host.Outcome State Fault Refusal :=
  issue s code (fun _ => {}) fun x =>
    match x.s.bankOf x.c.core x.g.team with
    | none => .trap 1 0 4
    | some (h, b) => body x h b

/-- An entry of a bank queue, with the masks in force (R364). -/
def IssueCtx.mop (x : IssueCtx) (b : Bank) (kind : MKind) : MOp :=
  { kind, ctx := x.g.ctx, team := x.g.team, slot := x.c.slot, gen := x.g.gen, path := x.c.path, pc := x.p.pc, mask := x.p.mask
    rowM := b.rowM, colM := b.colM, depM := b.depM }

/-- Enter a bank queue: the sources' registers are held until the instruction completes (R204, R366). -/
def IssueCtx.enter (x : IssueCtx) (s : State) (h : Nat) (m : MOp) (regs : List Nat) : State :=
  let keys := regs.filterMap fun r => mapKey x.g.wc (x.g.vname.get 0 r)
  s.updCore x.c.core fun c =>
    { c with
      pvrs := keys.foldl (fun p k => p.upd k fun v => v.hold s.stamp) c.pvrs
      banks := c.banks.upd h fun b => { b with q := b.q ++ [{ m with refs := keys }] } }

/-- The wait of a full bank queue. -/
def Bank.full (b : Bank) : Option Await := if 8 ≤ b.q.length then some .bankQueue else none

/-- The faults of register runs that a matrix instruction names (R366). -/
def IssueCtx.runsFault (x : IssueCtx) (runs : List (Nat × Nat)) : Option (Nat × Nat) :=
  firstFault ((runs.flatMap runRegs).map (vrunFault x.g x.d))

/-- The values of a run of registers. -/
def IssueCtx.runVals (x : IssueCtx) (r : Nat × Nat) : List VReg := (runRegs r).map x.g.vreg

/-- A free bank of a core. -/
def Core.freeBank (c : Core) : Option Nat := [0, 1].find? fun h => let b : Bank := c.banks.get {} h; b.team.isNone && b.q.isEmpty

/-- MBANK (R363). -/
def execMbank (s : State) : Host.Outcome State Fault Refusal :=
  issue s none (fun _ => {}) fun x =>
    if (x.s.bankOf x.c.core x.g.team).isSome then .done x.s
    else if (x.s.srv? 1 x.c.core x.g.ctx 0).isNone then .trap 1 0 9
    else
      let c := x.s.core x.c.core
      match c.freeBank with
      | none => .park .bankFree
      | some h =>
        let all := BitVec.allOnes 64
        .done (x.s.updCore x.c.core fun c => { c with
          banks := c.banks.put h { team := some x.g.team, rowM := all, colM := all, depM := all } })

/-- MFREE (R363): the team holds no bank from now on; the bank is freed at its turn. -/
def execMfree (s : State) : Host.Outcome State Fault Refusal :=
  mxIssue s none fun x h b =>
    match b.full with
    | some w => .park w
    | none =>
      .done ((x.enter x.s h (x.mop b .free) []).updCore x.c.core fun c => { c with banks := c.banks.upd h fun b => { b with team := none } })

/-- MZERO (R373). -/
def execMzero (f : RegnF) (s : State) : Host.Outcome State Fault Refusal :=
  mxIssue s (illegalTile f.r) fun x h b =>
    match b.full with
    | some w => .park w
    | none => .done (x.enter x.s h { x.mop b .zero with region := f.r.toNat } [])

/-- MMASK (R370): the masks of the instructions that enter after it. -/
def execMmask (f : MmaskF) (s : State) : Host.Outcome State Fault Refusal :=
  mxIssue s (firstCode [(oddReg f.d, 5), (58 < f.d.toNat, 5)]) fun x h b =>
    let d := f.d.toNat
    match firstWait [x.sWait ((List.range 6).map fun i => d + i), b.full] with
    | some w => .park w
    | none =>
      .done ((x.enter x.s h (x.mop b .mask) []).updCore x.c.core fun c => { c with
        banks := c.banks.upd h fun b => { b with rowM := x.g.spair d, colM := x.g.spair (d + 2), depM := x.g.spair (d + 4) } })

/-- MMA (R366, R367). -/
def execMma (f : MmaF) (s : State) : Host.Outcome State Fault Refusal :=
  mxIssue s (firstCode [(!regionOk f.r, 4), (f.t = 7, 4)]) fun x h b =>
    let n := fragRegs x.w (regionN f.r.toNat) f.t.toNat
    let ra := (f.a.toNat, n)
    let rb := (f.b.toNat, n)
    match x.runsFault [ra, rb] with
    | some (cls, det) => .trap cls 0 det
    | none =>
      match firstWait [x.vWait (runRegs ra ++ runRegs rb), b.full] with
      | some w => .park w
      | none =>
        .done (x.enter x.s h { x.mop b .mma with region := f.r.toNat, ty := f.t.toNat, frags := [(x.runVals ra, x.runVals rb)] }
          (runRegs ra ++ runRegs rb))

/-- The loop word of an MML (R368). -/
structure LoopWord where
  areg : Nat
  breg : Nat
  ainc : Nat
  binc : Nat
  aq : Option Nat
  bq : Option Nat
  bad : Bool

def loopWord (w : W32) : LoopWord :=
  let n (lo k : Nat) : Nat := w.toNat / 2 ^ lo % 2 ^ k
  let aq := w.getLsbD 24
  let bq := w.getLsbD 27
  { areg := n 0 6, breg := n 6 6, ainc := n 12 6, binc := n 18 6
    aq := if aq then some (n 25 2) else none, bq := if bq then some (n 28 2) else none
    bad := n 30 2 != 0 || (aq && (n 0 6 != 0 || n 12 6 != 0)) || (bq && (n 6 6 != 0 || n 18 6 != 0)) }

/-- MML (R366, R368, R369). -/
def execMml (f : MmlF) (s : State) : Host.Outcome State Fault Refusal :=
  mxIssue s (firstCode [(!regionOk f.r, 4), (f.t = 7, 4)]) fun x h b =>
    match x.sWait [f.l.toNat] with
    | some w => .park w
    | none =>
      let lw := loopWord (x.g.sreg f.l.toNat)
      let count := f.k.toNat + 1
      let n := fragRegs x.w (regionN f.r.toNat) f.t.toNat
      let run (q : Option Nat) (reg inc i : Nat) : Option (Nat × Nat) := if q.isSome then none else some (reg + i * inc, n)
      let steps := List.range count
      let ra (i : Nat) := run lw.aq lw.areg lw.ainc i
      let rb (i : Nat) := run lw.bq lw.breg lw.binc i
      let runs := steps.filterMap ra ++ steps.filterMap rb
      let undeclared := [lw.aq, lw.bq].any fun q => match q with | some q => x.d.qmask / 2 ^ q % 2 == 0 | none => false
      let pops (q : Nat) : Nat := count * n * ((if lw.aq = some q then 1 else 0) + if lw.bq = some q then 1 else 0)
      if lw.bad then .trap 1 0 4
      else match firstFault ((if undeclared then some (1, 5) else none) :: (runs.flatMap runRegs).map (vrunFault x.g x.d)) with
        | some (cls, det) => .trap cls 0 det
        | none =>
          if (List.range 4).any fun q => x.d.qdepth < pops q then .trap 1 0 4
          else
            let regs := (runs.flatMap runRegs).eraseDups
            match firstWait [x.vWait regs, b.full] with
            | some w => .park w
            | none =>
              let vals (r : Option (Nat × Nat)) : List VReg := match r with | some r => x.runVals r | none => []
              .done (x.enter x.s h { x.mop b .mml with region := f.r.toNat, ty := f.t.toNat, steps := count, aq := lw.aq, bq := lw.bq, loop := x.g.sreg f.l.toNat
                                                       frags := steps.map fun i => (vals (ra i), vals (rb i)) } regs)

/-- MSCA (R373): the scales are captured at issue. -/
def execMsca (f : MscaF) (s : State) : Host.Outcome State Fault Refusal :=
  mxIssue s (illegalTile f.r) fun x h b =>
    let n := ceilDiv (regionN f.r.toNat) x.w
    let ra := (f.a.toNat, n)
    let rb := (f.b.toNat, n)
    match x.runsFault [ra, rb] with
    | some (cls, det) => .trap cls 0 det
    | none =>
      match firstWait [x.vWait (runRegs ra ++ runRegs rb), b.full] with
      | some w => .park w
      | none =>
        .done (x.enter x.s h { x.mop b .sca with region := f.r.toNat, frags := [(x.runVals ra, x.runVals rb)] }
          (runRegs ra ++ runRegs rb))

/-- MCVT (R372). -/
def execMcvt (f : McvtF) (s : State) : Host.Outcome State Fault Refusal :=
  mxIssue s (firstCode [(!regionOk f.r, 4), (5 ≤ f.o.toNat, 4)]) fun x h b =>
    let rd := (f.d.toNat, mcvtCount x.w (regionN f.r.toNat) f.t.toNat)
    match x.runsFault [rd] with
    | some (cls, det) => .trap cls 0 det
    | none =>
      match firstWait [x.vWait (runRegs rd), b.full] with
      | some w => .park w
      | none => .done (x.enter x.s h { x.mop b .cvt with region := f.r.toNat, ty := f.t.toNat, d := f.d.toNat, mode := f.o.toNat } [])

/-- The issue of MLD and MST (R371): the address and pitch, the selected elements and their rights. Without its acquire bit an
MLD waits, as a plain load does, for the earlier stores to its elements, and an MST for the earlier loads of them (R180, R185, R189). -/
def tileMem (f : MemTileF) (s : State) (store : Bool) : Host.Outcome State Fault Refusal :=
  mxIssue s (firstCode [(!regionOk f.r, 4), (oddReg f.b, 5)]) fun x h b =>
    let bs := f.b.toNat
    match x.sWait [bs, bs + 1, bs + 2] with
    | some w => .park w
    | none =>
      let a := x.g.spair bs
      let p := x.g.sreg (bs + 2)
      let r := regionAt f.r.toNat
      let flag := x.flagOf f.l
      if a.toNat % 4 ≠ 0 ∨ p.toNat % 4 ≠ 0 then .trap 3 a 2
      else
        let sel := r.places.filter fun (i, j) => b.rowM.getLsbD i && b.colM.getLsbD j && (!store || x.p.mask.getLsbD ((i * r.n + j) % x.w))
        let ls : List LaneAcc := sel.map fun (i, j) => { lane := i * r.n + j, addr := (a + BitVec.ofNat 64 (i * p.toNat + 4 * j)).toNat }
        let ctr := if store then 1 else 0
        match x.accessFault? ls 4 (if store then 2 else 1) with
        | some (cls, va, det) => .trap cls va det
        | none =>
          match firstWait [b.full, if ls.isEmpty then none else x.room ctr flag] with
          | some w => .park w
          | none =>
            let m := { x.mop b (if store then .st else .ld) with region := f.r.toNat, rel := f.e == 1 }
            if ls.isEmpty then .done (x.enter x.s h m [])
            else
              let acq := if f.c = 1 then x.coveredSet 2 f.g.toNat else x.earlier (fun k => if store then k.readsGlobal && k != .mst else k.writes) false ls 4
              let early := !store && f.c == 0 && acq.isEmpty
              let o : Op := { x.op (if store then .mst else .mld) with ctr := some ctr, flag, lanes := ls, size := 4
                                                                       pages := if store then touchedPages ls 4 else [] }
              let id := x.s.stamp
              let s := x.s.startOp o fun id s => if early then s.reads id o (touchedLines ls 4) else []
              .done (x.enter s h { m with op := some id, acqOps := acq, step := if early then 1 else 0 } [])

/-- MLD (R371). -/
def execMld (f : MemTileF) (s : State) : Host.Outcome State Fault Refusal := tileMem f s false
/-- MST (R371). -/
def execMst (f : MemTileF) (s : State) : Host.Outcome State Fault Refusal := tileMem f s true

/-! ## The turns of a bank (R141, R364, R367 to R374) -/

/-- Whether a kind runs tile-steps on the engine (R374). -/
def MKind.tile : MKind → Bool
  | .mma | .mml | .sca | .cvt => true
  | _ => false

/-- Quanta that a tile-step reserves (R141): MSCA and MCVT draw as BF16. -/
def MOp.quanta (m : MOp) : Nat :=
  let lns := m.ty == 6 && (m.kind == .mma || m.kind == .mml)
  match regionN m.region with
  | 64 => if lns then 32 else 40
  | 32 => if lns then 10 else 12
  | _ => if lns then 3 else 4

/-- Core cycles of a tile-step (R374). -/
def MOp.cycles (m : MOp) : Nat := match regionN m.region with | 64 => 16 | 32 => 4 | _ => 1

/-- Quanta that a unit holds (R142). -/
def State.heldQuanta (s : State) (u : SlewUnit) (core : Nat) : Nat :=
  match s.partOfUnit (unitOfCore core) with
  | none => 2 ^ 14
  | some n => (s.slew.get {} n).held.foldl (fun a r => if r.unit == u && r.core == core then a + r.size else a) 0

/-- The group that issued an entry of a bank queue, while it is there. -/
def State.opGroup (s : State) (core slot : Nat) (gen : BitVec 4) : Option Group :=
  match s.group? core slot with
  | some g => if g.gen = gen then some g else none
  | none => none

/-- The width of the registers that an entry captured. -/
def State.mopWidth (s : State) (core : Nat) (m : MOp) : Nat :=
  match s.team? m.team with
  | some t => 16 * 2 ^ (s.grid t.grid).desc.wcode
  | none => match s.opGroup core m.slot m.gen with | some g => g.w | none => 16

/-- Entries that the next step of an MML pops from queue q. -/
def MOp.popsOf (m : MOp) (w q : Nat) : Nat :=
  let n := fragRegs w (regionN m.region) m.ty
  (if m.aq = some q then n else 0) + if m.bq = some q then n else 0

/-- Whether the next tile-step at the head of a bank has its operands (R99, R369), and its team is not being halted (R376). -/
def State.tileOperands (s : State) (core : Nat) (b : Bank) : Bool :=
  match b.q with
  | [] => false
  | m :: _ =>
    m.kind.tile && !b.started && !s.teamHalted m.team &&
      (m.kind != .mml || (m.aq.isNone && m.bq.isNone) ||
        match s.opGroup core m.slot m.gen with
        | none => false
        | some g => (List.range 4).all fun q => m.popsOf (s.mopWidth core m) q ≤ (g.queue q).len)

/-- Whether the bank's next tile-step is a candidate at the arbiter (R98). -/
def State.tileReady (s : State) (core : Nat) (b : Bank) : Bool :=
  s.tileOperands core b && match b.q with | m :: _ => m.quanta ≤ s.heldQuanta .matrix core | [] => false

def State.updBank (s : State) (core h : Nat) (f : Bank → Bank) : State :=
  s.updCore core fun c => { c with banks := c.banks.upd h f }

/-- Pop the entries of one fragment; they stay in the queue buffer, held (R369). -/
def State.popFrag (s : State) (core slot q n depth : Nat) : State × List VReg :=
  match s.group? core slot with
  | none => (s, [])
  | some g =>
    let u := g.queue q
    let vals := (List.range n).map fun i => u.slots.get 0 ((u.head + i) % depth)
    (s.updGroup core slot fun g => g.setQueue q { u with head := u.head + n, held := u.held + n }, vals)

/-- A tile-step starts: an MML pops its entries, and the shadow is taken before the first (R217, R369). -/
def State.startTile (s : State) (core h : Nat) : State :=
  match (s.core core).banks.find h with
  | none => s
  | some b =>
    match b.q with
    | [] => s
    | m :: ms =>
      let depth := match s.opGroup core m.slot m.gen with | some g => (s.descOf g).qdepth | none => 1
      let n := fragRegs (s.mopWidth core m) (regionN m.region) m.ty
      let (fa, fb) := m.frags[m.step]?.getD ([], [])
      let (s, fa) := match m.aq with | some q => s.popFrag core m.slot q n depth | none => (s, fa)
      let (s, fb) := match m.bq with | some q => s.popFrag core m.slot q n depth | none => (s, fb)
      let tag (q : Option Nat) (f : List VReg) : List (Nat × VReg) := match q with | some q => f.map fun v => (q, v) | none => []
      (s.updBank core h fun b => { b with
        q := { m with frags := setAt m.frags m.step (fa, fb) } :: ms
        started := true
        popped := b.popped ++ tag m.aq fa ++ tag m.bq fb
        shadow := if (m.kind = .mma ∨ m.kind = .mml) ∧ m.step = 0 then some b.tiles else b.shadow }).slewTake .matrix core 0 m.cycles

/-- Drop the references of an instruction that completes (R204, R366). -/
def Core.dropRefs (c : Core) (keys : List Nat) : Core :=
  keys.foldl (fun c k => ({ c with pvrs := c.pvrs.upd k fun p => if p.pinned then p else { p with count := p.count - 1 } } : Core).freeIfDead k) c

/-- The instruction at the head of a bank completes: its references and popped entries are released, and a group that waits for
its replay waits for one less (R376). -/
def State.endMop (s : State) (core h : Nat) (m : MOp) : State :=
  let s := s.updCore core fun c => c.dropRefs m.refs
  let popped := match (s.core core).banks.find h with | some b => b.popped | none => []
  let s := match s.opGroup core m.slot m.gen with
    | some _ => popped.foldl (fun (s : State) ((q, _) : Nat × VReg) => s.updGroup core m.slot fun g => g.setQueue q { (g.queue q) with held := (g.queue q).held - 1 }) s
    | none => s
  let s := if m.replay && (s.opGroup core m.slot m.gen).isSome then s.updGroup core m.slot fun g => { g with replays := g.replays - 1 } else s
  s.updBank core h fun b => { b with q := b.q.drop 1, started := false, shadow := none, popped := [] }

/-- The unit of a tile-step ends (R99). Its reservation is free once the tile-step's cycles are over (R141). -/
def State.endTileUnit (s : State) (core ctx : Nat) : State :=
  match s.srv? 1 core ctx 0 with
  | none => s
  | some v => s.putSrv (v.endUnit s.now ((s.core core).banks.any fun (_, b) =>
      (match b.q with | m :: _ => m.ctx == ctx | [] => false) && s.tileOperands core b))

/-- Write the registers of an MCVT, or nothing where a write must stall (R203, R372). -/
def State.writeCvt (s : State) (core slot : Nat) (m : MOp) (img w : Nat) : List Nat → Option State
  | [] => some s
  | i :: is =>
    match s.group? core slot with
    | none => some s
    | some g =>
      let new : VReg := BitVec.ofNat 2048 (img / 2 ^ (32 * w * i) % 2 ^ (32 * w))
      let v := VReg.merge w m.mask new.lane (g.vreg (m.d + i))
      match s.writeV core slot (m.d + i) v with
      | some (s, _, _) => s.writeCvt core slot m img w is
      | none => none

/-- An MLD that has its lines writes the tile, bit for bit (R371). -/
def Bank.loadTile (b : Bank) (m : MOp) (o : Op) : Bank :=
  let r := regionAt m.region
  o.lanes.foldl (fun b l => b.put (r.key (l.lane / r.n) (l.lane % r.n)) (BitVec.ofNat 32 (o.readN l.addr 4))) b

/-- The words that an MST stores (R371). -/
def Bank.storeLanes (b : Bank) (m : MOp) (o : Op) : List LaneAcc :=
  let r := regionAt m.region
  o.lanes.map fun l => { l with x := (b.elem (r.key (l.lane / r.n) (l.lane % r.n))).setWidth 64 }

/-- Whether an entry is an MST that is storing (R132, R376). -/
def MOp.storing (m : MOp) : Bool := m.kind == .st && m.step == 1

/-- The turn of the instruction at the head of a bank's queue. While its team is being halted only an MST in progress goes on. A
replayed MML that has to wait for entries of its queues lets its group issue, which may be what fills them (R376, log 114). -/
def State.bankTurn (s : State) (core h : Nat) : State :=
  match (s.core core).banks.find h with
  | none => s
  | some b =>
    match b.q with
    | [] => s
    | m :: ms =>
      let w := s.mopWidth core m
      let (fa, fb) := m.frags[m.step]?.getD ([], [])
      if s.teamHalted m.team && !m.storing then s
      else if m.kind.tile && !b.started then
        if s.tileOperands core b then
          if s.tileReady core b then s
          else s.slewRequest { unit := .matrix, core, ctx := m.ctx, size := m.quanta - s.heldQuanta .matrix core }
        else if m.replay then s.updGroup core m.slot fun g => if g.gen = m.gen then { g with replays := 0 } else g
        else s
      else match m.kind with
      | .free => ((s.endMop core h m).updBank core h fun _ => {}).askRound (s.ctxPart m.ctx)
      | .mask => s.endMop core h m
      | .zero => (s.updBank core h fun b => b.zeroRegion m).endMop core h m
      | .sca => ((s.updBank core h fun b => b.scale m w fa fb).endMop core h m).endTileUnit core m.ctx
      | .mma => ((s.updBank core h fun b => b.tileStep m w fa fb).endMop core h m).endTileUnit core m.ctx
      | .mml =>
        let s := s.updBank core h fun b => b.tileStep m w fa fb
        if m.step + 1 = m.steps then (s.endMop core h m).endTileUnit core m.ctx
        else (s.updBank core h fun b => { b with q := { m with step := m.step + 1 } :: ms, started := false }).endTileUnit core m.ctx
      | .cvt =>
        match s.opGroup core m.slot m.gen with
        | none => (s.endMop core h m).endTileUnit core m.ctx
        | some _ =>
          match s.writeCvt core m.slot m (b.cvtImage m) w (List.range (mcvtCount w (regionN m.region) m.ty)) with
          | some s => (s.endMop core h m).endTileUnit core m.ctx
          | none => s
      | .ld =>
        match m.op with
        | none => s.endMop core h m
        | some id =>
          match s.ops.find id with
          | none => s.endMop core h m
          | some o =>
            if m.step = 0 then
              if s.performed m.acqOps then
                (s.updBank core h fun b => { b with q := { m with step := 1 } :: ms }).sendFor id (s.reads id o (touchedLines o.lanes 4))
              else s
            else if o.left ≠ 0 then s
            else ((if o.fail.isSome then s else s.updBank core h fun b => b.loadTile m o).closeOp id).endMop core h m
      | .st =>
        match m.op with
        | none => s.endMop core h m
        | some id =>
          match s.ops.find id with
          | none => s.endMop core h m
          | some o =>
            if m.step = 0 ∧ s.performed m.acqOps then
              let s := s.chose
              let o := { o with lanes := b.storeLanes m o }
              let s := { s with ops := s.ops.put id o }
              let s := match o.flag, s.opGroup core m.slot m.gen with
                | some f, some _ => if m.rel then s else
                    { s.updGroup core m.slot fun g => g.subFlag f with ops := s.ops.put id { o with flag := none } }
                | _, _ => s
              let o := (s.ops.find id).getD o
              (s.updBank core h fun b => { b with q := { m with step := 1 } :: ms }).sendFor id (s.laneWrites id o s.free)
            else s

/-- MATRIX_QUEUE_TURN (R364): the head of a bank's queue takes its turn. -/
def execMatrixQueueTurn (core bank : Nat) (s : State) : Host.Outcome State Fault Refusal := .next (s.bankTurn core bank)

/-- A free bank goes to the resumed team of the core that has waited for one longest: its tiles, masks and queue are restored
into it (R376). -/
def State.installBank (s : State) (core : Nat) : State :=
  let due (t : Team) : Option (Nat × Bank) := t.banksDue.find? fun e => t.core.isSome && t.cores.contains core && (!t.pair || e.1 == core % 2)
  match (s.core core).freeBank, leastBy (fun e => e.2.placedAt) (s.sched.teams.filter fun (_, t) => (due t).isSome) with
  | some h, some (k, t) =>
    match due t with
    | none => s
    | some e =>
      let s := (s.updTeam k fun t => { t with banksDue := t.banksDue.erase e }).updCore core fun c => { c with banks := c.banks.put h e.2 }
      s.updCore core fun c => { c with groups := c.groups.map fun (i, (g : Group)) => (i, if g.team = k then { g with replays := g.replays - 1 } else g) }
  | _, _ => s

/-- MATRIX_BANK_GRANT (R217, R363, R376): a bank is free: a resumed team that waits for its bank takes it, or else the groups that
wait for one issue MBANK again. -/
def execMatrixBankGrant (core : Nat) (s : State) : Host.Outcome State Fault Refusal :=
  let s := s.installBank core
  .next (if (s.core core).freeBank.isSome then s.updCore core fun c => { c with groups := c.groups.map fun (i, g) =>
    (i, { g with paths := mapIf (fun p => p.park == some .bankFree) (fun p => { p with park := none }) g.paths }) } else s)

end Sys2Proof.Machine
end

