-- ==== Sys2Proof/Machine/Direction.lean ====
section
/-! DEFINITION. Direction instructions: major 27, and the end of the renormalising pipe (R213, R214, R240 to
R243, R378 to R391). -/

namespace Sys2Proof.Machine

/-! ## Registers and the pipe (R214, R378, R391) -/

/-- A direction register as every use reads it (R378). -/
def IssueCtx.dread (x : IssueCtx) (n : Nat) : DReg :=
  let d := x.g.dreg n
  if d.isZero then dZero else if d.isUndef then dUndef else d

/-- Whether a D register lies at or beyond `DIRS` (R213). -/
def IssueCtx.beyondDirs (x : IssueCtx) (ns : List Nat) : Bool := ns.any fun n => x.d.dirs ≤ n

/-- A component write goes into the pipe (R214): the register takes it whole when the pipe ends. -/
def IssueCtx.pipe (x : IssueCtx) (s : State) (d : Nat) (v : DReg × Bool) : State :=
  let id := s.stamp
  let w : DWrite := { id, d, path := x.c.path, pid := x.p.born, after := x.p.past, val := v.1, dov := v.2, ready := true, back := x.p, nth := x.p.done }
  (s.bump.updGroup x.c.core x.c.slot fun g => { g with dpipe := g.dpipe ++ [w] }).remember x.c.core x.c.slot x.c.path [id]

/-- The first write of the pipe that may take effect: it has its operands, and no write to its register that comes before it in
program order stands (R177, R214). -/
def firstWrite (before : List DWrite) : List DWrite → Option (DWrite × List DWrite)
  | [] => none
  | w :: ws =>
    if w.ready && !(before.any fun u => u.d == w.d && w.after.contains u.id) then some (w, before.reverse ++ ws)
    else firstWrite (w :: before) ws

/-- The pipe of a group ends one write: components and norm together, and `GSR.DOV` (R214, R242, R391). -/
def State.endPipe (s : State) (core slot : Nat) : State :=
  match s.group? core slot with
  | none => s
  | some g =>
    match firstWrite [] g.dpipe with
    | none => s
    | some (w, rest) =>
      let s := s.updGroup core slot fun g =>
        let g := { g.setD w.d w.val with dpipe := rest }
        if w.dov then g.setGsr 7 else g
      if w.op = 0 then s else s.closeOp w.op

/-- DIRECTION_PIPE_END (R214, R242, R391). -/
def execDirectionPipeEnd (core slot : Nat) (s : State) : Host.Outcome State Fault Refusal := .next (s.endPipe core slot)

/-- The checks of a direction instruction before its own meaning: the D registers it names (R213) and reads (R214). -/
def IssueCtx.dirChecks (x : IssueCtx) (names reads : List (BitVec 6)) (body : IssueCtx → Act) : Act :=
  if x.beyondDirs (names.map BitVec.toNat) then .trap 1 0 5
  else match x.dWait (reads.map BitVec.toNat) with
    | some w => .park w
    | none => body x

/-- A direction instruction of W/16 beats: its D registers are declared, and those it reads have no write of
the path in the pipe. -/
def dirIssue (s : State) (code : Option Nat) (sp : BitVec 1) (names : List (BitVec 6)) (reads : List (BitVec 6))
    (body : IssueCtx → Act) : Host.Outcome State Fault Refusal :=
  laneIssue s code sp fun x => x.dirChecks names reads body

/-- The same for DLD and DST, which move data (R141). -/
def dirMove (s : State) (code : Option Nat) (sp : BitVec 1) (names : List (BitVec 6)) (reads : List (BitVec 6))
    (body : IssueCtx → Act) : Host.Outcome State Fault Refusal :=
  moveIssue s code sp fun x => x.dirChecks names reads body

/-- The same for an instruction of one beat. -/
def dirOne (s : State) (code : Option Nat) (sp : BitVec 1) (d : Nat) (body : IssueCtx → Act) :
    Host.Outcome State Fault Refusal :=
  oneIssue s code sp fun x =>
    if x.beyondDirs [d] then .trap 1 0 5
    else match x.dWait [d] with
      | some w => .park w
      | none => body x

/-- A D field of 5 bits as one of 6. -/
def dfield (a : BitVec 5) : BitVec 6 := a.setWidth 6

/-! ## Memory (R381, R382) -/

/-- The words of a direction's memory image at an address: its lanes, then its norm. -/
def dirWords (w a : Nat) (d : DReg) : List LaneAcc :=
  (List.range (w + 1)).map fun i =>
    { lane := i, addr := a + 4 * i, x := if i < w then (d.comps.lane i).setWidth 64 else d.norm.setWidth 64 }

/-- The address of DLD and DST. -/
def IssueCtx.dirAddr (x : IssueCtx) (f : DMemF) : W64 := x.g.spair f.b.toNat + BitVec.ofNat 64 (64 * f.x.toNat)

/-- The faults of a direction's memory access (R382). -/
def IssueCtx.dirFault (x : IssueCtx) (a : W64) (ls : List LaneAcc) (need : Nat) : Option (Nat × W64 × Nat) :=
  if a.toNat % 4 ≠ 0 then some (3, a, 2) else x.accessFault? ls 4 need

/-- DLD (R382). -/
def execDld (f : DMemF) (s : State) : Host.Outcome State Fault Refusal :=
  dirMove s (illegalDmem f) f.sp [dfield f.a] [] fun x =>
    let b := f.b.toNat
    match x.sWait [b, b + 1] with
    | some w => .park w
    | none =>
      let a := x.dirAddr f
      let ls := dirWords x.w a.toNat dZero
      let flag := x.flagOf f.l
      match x.dirFault a ls 1 with
      | some (cls, va, det) => .trap cls va det
      | none =>
        match firstWait [x.storeWait false ls 4, x.room 0 flag] with
        | some w => .park w
        | none =>
          let id := x.s.stamp
          let o : Op := { x.op (.dload f.a.toNat) with ctr := some 0, flag, lanes := ls, size := 4 }
          let w : DWrite := { id, d := f.a.toNat, path := x.c.path, pid := x.p.born, after := x.p.past, val := dZero, dov := false, ready := false, op := id }
          let s := x.s.updGroup x.c.core x.c.slot fun g => { g with dpipe := g.dpipe ++ [w] }
          .done (s.startOp o fun id s => s.reads id o (touchedLines ls 4))

/-- DST (R382). -/
def execDst (f : DMemF) (s : State) : Host.Outcome State Fault Refusal :=
  dirMove s (illegalDmem f) f.sp [dfield f.a] [dfield f.a] fun x =>
    let b := f.b.toNat
    match x.sWait [b, b + 1] with
    | some w => .park w
    | none =>
      let a := x.dirAddr f
      let ls := dirWords x.w a.toNat (x.dread f.a.toNat)
      let flag := x.flagOf f.l
      match x.dirFault a ls 2 with
      | some (cls, va, det) => .trap cls va det
      | none =>
        match firstWait [x.loadWait false ls 4, x.room 1 flag] with
        | some w => .park w
        | none =>
          let o : Op := { x.op .store with ctr := some 1, flag, lanes := ls, size := 4, pages := touchedPages ls 4 }
          .done (x.s.startOp o fun id s => s.laneWrites id o 0)

/-! ## Conversions (R383, R384) -/

/-- DFROMV (R243, R383). -/
def execDfromv (f : DfromvF) (s : State) : Host.Outcome State Fault Refusal :=
  dirIssue s (firstCode [(f.t = 3, 4)]) f.sp [dfield f.a] [] fun x =>
    let b := f.b.toNat
    let two := f.t = 0
    match if two then x.laneFault [] [(b, 2)] [] else x.laneFault [b] [] [] with
    | some (cls, det) => .trap cls 0 det
    | none =>
      match if two then x.laneWait [] [(b, 2)] [] else x.laneWait [b] [] [] with
      | some w => .park w
      | none =>
        let v := if two then x.g.vreg b else x.vsrc b
        let u := x.g.vreg (b + 1)
        let xs := (List.range (2 * x.w)).map fun i =>
          if two then fp32.value ((if i % 2 = 0 then v else u).lane (i / 2)).toNat
          else (if f.t = 1 then fp16 else bf16).value (v.half i).toNat
        .done (x.pipe (if two then x.s else x.s.popQueues x [b]) f.a.toNat (dirOf xs))

/-- The value of component i that DTOV converts: with its norm, or raw (R384). -/
def DReg.shown (d : DReg) (raw : Bool) (i : Nat) : FV :=
  if d.isUndef then .nan
  else if d.isZero then .fin false 0 0
  else if raw then .fin (decide (d.comp i < 0)) (d.comp i).natAbs (-15)
  else d.value i

/-- DTOV (R241, R384). -/
def execDtov (f : DtovF) (s : State) : Host.Outcome State Fault Refusal :=
  dirIssue s (firstCode [(f.t = 3, 4), (5 ≤ f.r.toNat, 4)]) f.sp [dfield f.a] [dfield f.a] fun x =>
    let d := x.dread f.a.toNat
    let v := f.x.toNat
    let mode := f.r.toNat
    let val (i : Nat) : FV := d.shown (f.k == 1) i
    if f.t = 0 then
      match x.laneFault [] [(v, 2)] [] with
      | some (cls, det) => .trap cls 0 det
      | none =>
        match x.laneWait [] [] [v, v + 1] with
        | some w => .park w
        | none =>
          match x.writeDst x.s [] v x.p.mask (fun l => fp32.code 32 mode (val (2 * l))) none with
          | none => .park .place
          | some s =>
            match x.writeReg s (v + 1) x.p.mask (fun l => fp32.code 32 mode (val (2 * l + 1))) none with
            | some s => .done s
            | none => .park .place
    else
      let fm := if f.t = 1 then fp16 else bf16
      x.laneAct { dst := v, mask := x.p.mask
                  lane := fun l => (fm.code 16 mode (val (2 * l + 1)) : BitVec 16) ++ (fm.code 16 mode (val (2 * l)) : BitVec 16) }

/-! ## Component writers (R385 to R387) -/

/-- The components of a direction as integers. -/
def DReg.comps' (d : DReg) (w : Nat) : List Int := (List.range (2 * w)).map d.comp

/-- trunc(c × 2¹² × F(−Δ)) (R241, R385). -/
def scaledDown (c : Int) (delta : Nat) : Int :=
  let q : Int := (-(delta : Int)) / 256
  let f := ((-(delta : Int)) % 256).toNat
  (c * 4096 * dirP f).tdiv (2 ^ (23 - q).toNat)

/-- The vector sum of two directions; `neg` for the difference (R385, R387). -/
def dirAdd (w : Nat) (neg : Bool) (a b : DReg) : DReg × Bool :=
  let cb := (b.comps' w).map fun c => if neg then -c else c
  let ca := a.comps' w
  let na := a.norm.toInt
  let nb := b.norm.toInt
  if a.isUndef || b.isUndef then (dUndef, false)
  else if b.isZero then (if a.isZero then (dZero, false) else renorm (ca.map (· * 4096)) (na - 3072))
  else if a.isZero then renorm (cb.map (· * 4096)) (nb - 3072)
  else
    let (ch, cl, nh, nl) := if nb ≤ na then (ca, cb, na, nb) else (cb, ca, nb, na)
    renorm (List.zipWith (fun h l => h * 4096 + scaledDown l (nh - nl).toNat) ch cl) (nh - 3072)

/-- Σ c_a,i × c_b,i, exactly. -/
def dirDot (w : Nat) (a b : DReg) : Int := (List.zipWith (· * ·) (a.comps' w) (b.comps' w)).foldl (· + ·) 0

/-- DHAD (R385, R387). -/
def dirHad (w : Nat) (a b : DReg) : DReg × Bool :=
  if a.isUndef || b.isUndef then (dUndef, false)
  else if a.isZero || b.isZero then (dZero, false)
  else renorm (List.zipWith (fun x y => (x * y).tdiv 4) (a.comps' w) (b.comps' w)) (a.norm.toInt + b.norm.toInt - 3328)

/-- DPROJ (R385, R387). -/
def dirProj (w : Nat) (a b : DReg) : DReg × Bool :=
  if a.isUndef || b.isUndef || b.isZero then (dUndef, false)
  else if a.isZero then (dZero, false)
  else
    let g := dirDot w a b
    if g = 0 then (dZero, false)
    else
      let l : Int := (Nat.log2 (2 * g.natAbs ^ 512) / 2 : Nat) - 7680
      renorm ((b.comps' w).map fun c => g.sign * c * 4096) (a.norm.toInt + l - 3072)

/-- DREFL (R385, R387). -/
def dirRefl (w : Nat) (a b : DReg) : DReg × Bool :=
  if a.isUndef || b.isUndef || b.isZero then (dUndef, false)
  else if a.isZero then (dZero, false)
  else
    let g := dirDot w a b
    renorm (List.zipWith (fun x y => x * 2048 - (g * y).tdiv (2 ^ 18)) (a.comps' w) (b.comps' w)) (a.norm.toInt - 2816)

/-- Round a quotient to the nearest integer, ties to even. -/
def roundDiv (n d : Int) : Int :=
  let q := n / d
  let r := 2 * (n % d)
  if r < d then q else if d < r then q + 1 else if q % 2 = 0 then q else q + 1

/-- DMIX with 0 < w < 65536 on ordinary operands (R386). -/
def dirMix (width w : Nat) (x a : DReg) : DReg × Bool :=
  let us := List.zipWith (fun (c e : Int) => (c * (65536 - (w : Int)) + e * w).tdiv 16) (x.comps' width) (a.comps' width)
  let d := (renorm us 0).1
  if d.isZero then (d, false)
  else ({ d with norm := BitVec.ofInt 16 (roundDiv (x.norm.toInt * (65536 - (w : Int)) + a.norm.toInt * w) 65536) }, false)

/-- DMOV (R385). -/
def execDmov (f : D2F) (s : State) : Host.Outcome State Fault Refusal :=
  dirIssue s (firstCode [(illegalD f.x, 5)]) f.sp [f.x, dfield f.a] [dfield f.a] fun x =>
    .done (x.pipe x.s f.x.toNat (x.dread f.a.toNat, false))

/-- The issue of a component writer of two sources. -/
def dir3 (f : D3F) (s : State) (op : Nat → DReg → DReg → DReg × Bool) : Host.Outcome State Fault Refusal :=
  dirIssue s (illegalD3 f) f.sp [f.x, dfield f.a, f.b] [dfield f.a, f.b] fun x =>
    .done (x.pipe x.s f.x.toNat (op x.w (x.dread f.a.toNat) (x.dread f.b.toNat)))

/-- DADD (R385). -/
def execDadd (f : D3F) (s : State) : Host.Outcome State Fault Refusal := dir3 f s fun w a b => dirAdd w false a b
/-- DSUB (R385). -/
def execDsub (f : D3F) (s : State) : Host.Outcome State Fault Refusal := dir3 f s fun w a b => dirAdd w true a b
/-- DHAD (R385). -/
def execDhad (f : D3F) (s : State) : Host.Outcome State Fault Refusal := dir3 f s dirHad
/-- DPROJ (R385). -/
def execDproj (f : D3F) (s : State) : Host.Outcome State Fault Refusal := dir3 f s dirProj
/-- DREFL (R385). -/
def execDrefl (f : D3F) (s : State) : Host.Outcome State Fault Refusal := dir3 f s dirRefl

/-- DMIX (R386). -/
def execDmix (f : D3F) (s : State) : Host.Outcome State Fault Refusal :=
  dirIssue s (firstCode [(illegalD f.x, 5)]) f.sp [f.x, dfield f.a] [f.x, dfield f.a] fun x =>
    match x.sWait [f.b.toNat] with
    | some w => .park w
    | none =>
      let w := (x.g.sreg f.b.toNat).toNat
      let d := x.dread f.x.toNat
      let a := x.dread f.a.toNat
      if 65536 < w then .trap 1 0 4
      else if w = 0 then .done x.s
      else if w = 65536 then .done (x.pipe x.s f.x.toNat (a, false))
      else if d.isZero || d.isUndef || a.isZero || a.isUndef then .done (x.pipe x.s f.x.toNat (dUndef, false))
      else .done (x.pipe x.s f.x.toNat (dirMix x.w w d a))

/-! ## Norms (R388, R389) -/

/-- DSCL (R388): the new register, and whether the norm saturated. -/
def dirScale (d : DReg) (k : W32) : DReg × Bool :=
  if d.isZero || d.isUndef then (d, false)
  else
    let n := d.norm.toInt + k.toInt
    ({ d with norm := BitVec.ofInt 16 (clampInt (-32512) 32767 n) }, decide (n < -32512 ∨ 32767 < n))

/-- DSETN (R388). -/
def dirSetNorm (d : DReg) (c : BitVec 16) : DReg :=
  let undef := decide (0x8001 ≤ c.toNat ∧ c.toNat ≤ 0x80ff)
  if d.isZero then (if undef then dUndef else d)
  else if d.isUndef then (if c = 0x8000 then dZero else d)
  else if c = 0x8000 then dZero
  else if undef then dUndef
  else { d with norm := c }

/-- DSCL (R388). -/
def execDscl (f : DNormF) (s : State) : Host.Outcome State Fault Refusal :=
  dirOne s (firstCode [(illegalD f.x, 5)]) f.sp f.x.toNat fun x =>
    match x.sWait [f.b.toNat] with
    | some w => .park w
    | none =>
      let (d, dov) := dirScale (x.dread f.x.toNat) (x.g.sreg f.b.toNat)
      .done (x.s.updGroup x.c.core x.c.slot fun g => if dov then (g.setD f.x.toNat d).setGsr 7 else g.setD f.x.toNat d)

/-- DSETN (R388). -/
def execDsetn (f : DNormF) (s : State) : Host.Outcome State Fault Refusal :=
  dirOne s (firstCode [(illegalD f.x, 5)]) f.sp f.x.toNat fun x =>
    match x.sWait [f.b.toNat] with
    | some w => .park w
    | none =>
      let d := dirSetNorm (x.dread f.x.toNat) ((x.g.sreg f.b.toNat).extractLsb' 0 16)
      .done (x.s.updGroup x.c.core x.c.slot fun g => g.setD f.x.toNat d)

/-- DNRM (R389). -/
def execDnrm (f : D2F) (s : State) : Host.Outcome State Fault Refusal :=
  dirOne s none f.sp f.a.toNat fun x =>
    match x.sWait [f.x.toNat] with
    | some w => .park w
    | none =>
      let v := (x.dread f.a.toNat).norm.signExtend 32
      .done (x.s.updGroup x.c.core x.c.slot fun g => g.setS f.x.toNat v)

/-- DTEST (R389). -/
def execDtest (f : DtestF) (s : State) : Host.Outcome State Fault Refusal :=
  dirOne s (firstCode [(f.c = 3, 4)]) f.sp f.a.toNat fun x =>
    let d := x.dread f.a.toNat
    let r := if f.c = 0 then d.isZero else if f.c = 1 then d.isUndef else !(d.isZero || d.isUndef)
    .done (x.s.updGroup x.c.core x.c.slot fun g => g.setK f.k.toNat r)

/-! ## Dot products (R390) -/

/-- The FP32 code of a dot product; with the norms' magnitude factor for DDOTF. -/
def dirDotCode (w mode : Nat) (full : Bool) (a b : DReg) : W32 :=
  if a.isUndef || b.isUndef then nan32
  else if a.isZero || b.isZero then 0
  else
    let g := dirDot w a b
    if g = 0 then 0
    else
      let v : FV := .fin (decide (g < 0)) g.natAbs (-30)
      let m := a.norm.toInt + b.norm.toInt
      let k : FV := .fin false (dirP (m % 256).toNat) (m / 256 - 23)
      fp32.code 32 mode (if full then v.mul k else v)

/-- The issue of DDOT and DDOTF. -/
def dirDotOp (f : DDotF) (s : State) (full : Bool) : Host.Outcome State Fault Refusal :=
  dirIssue s (illegalDot f) f.sp [dfield f.a, f.b] [dfield f.a, f.b] fun x =>
    match x.sWait [f.x.toNat] with
    | some w => .park w
    | none =>
      let v := dirDotCode x.w f.r.toNat full (x.dread f.a.toNat) (x.dread f.b.toNat)
      .done (x.s.updGroup x.c.core x.c.slot fun g => g.setS f.x.toNat v)

/-- DDOT (R390). -/
def execDdot (f : DDotF) (s : State) : Host.Outcome State Fault Refusal := dirDotOp f s false
/-- DDOTF (R390). -/
def execDdotf (f : DDotF) (s : State) : Host.Outcome State Fault Refusal := dirDotOp f s true

end Sys2Proof.Machine
end

