-- ==== Sys2Proof/Machine/Network.lean ====
section
/-! DEFINITION. The on-chip network: a flit at a router, dropped flits, request timeouts and mailbox
messages (R32 to R50). -/

namespace Sys2Proof.Machine

/-! ## The checks of a router (R38) -/

/-- Whether a packet type may travel on the network, and for which context (R33, R157). -/
def opKnown (op ctx : Nat) : Bool :=
  op ≤ 6 || ((op == 7 || op == 8) && ctx == mgmtCtx) || (0x10 ≤ op && op ≤ 0x13) || (0x20 ≤ op && op ≤ 0x23)

/-- Whether a port of a router has an endpoint (R27). -/
def isEndpoint (r port : Nat) : Bool := port == 15 || decide (port < if isSliceRouter r then 2 else 8)

/-- The flits of a packet (R32, R45, R157): a masked write carries its line and its mask, and a 64-lane message 256 bytes.
The two flits of a packet stand back to back on one route, so the model moves them together. -/
def Pkt.flits (p : Pkt) : Nat := if p.op = 3 ∨ (p.op = 0x20 ∧ p.addr / 16 % 4 = 2) then 2 else 1

/-- Bits [119:0] of the header of a packet's flit (R32); LAST is set on the last of them. -/
def Pkt.fields (p : Pkt) (last : Bool) : BitVec 120 :=
  BitVec.ofNat 120 (p.drt + p.dep * 2 ^ 6 + p.srt * 2 ^ 10 + p.sep * 2 ^ 16 + p.part * 2 ^ 20 + p.ctx * 2 ^ 26 + p.cls * 2 ^ 35 +
    (if p.fm then 2 ^ 38 else 0) + (if last then 2 ^ 39 else 0) + p.seq % 2 ^ 24 * 2 ^ 40 + p.op * 2 ^ 64 + p.addr % 2 ^ 40 * 2 ^ 72)

/-- The header as it travels: the fields, HCK over them, and the bits that soft errors have flipped (R32, R34). -/
def Pkt.header (p : Pkt) (last : Bool) : BitVec 128 := (Config.headerCode (p.fields last) ++ p.fields last) ^^^ p.flips

/-- Whether a header cannot be corrected: more than one of its bits is wrong (R34). -/
def Pkt.badHead (p : Pkt) : Bool := decide (1 < ((List.range 128).filter fun i => p.flips.getLsbD i).length)

/-- A packet as a router reads it: with the fields of its header, which errors may have changed beyond correction. -/
def Pkt.seen (p : Pkt) : Pkt :=
  if !p.badHead then p
  else
    let h := (p.header true).toNat
    { p with drt := h % 2 ^ 6, dep := h / 2 ^ 6 % 2 ^ 4, srt := h / 2 ^ 10 % 2 ^ 6, sep := h / 2 ^ 16 % 2 ^ 4, part := h / 2 ^ 20 % 2 ^ 6
             ctx := h / 2 ^ 26 % 2 ^ 9, cls := h / 2 ^ 35 % 2 ^ 3, op := h / 2 ^ 64 % 2 ^ 6 }

/-- Whether a packet has just entered the network: it came to its router by an endpoint's port (R38). -/
def Pkt.injected (p : Pkt) : Bool := decide (p.inp < 16)

/-- The lowest reason code for which router `r` drops a packet (R37, R38). -/
def State.dropReason (s : State) (q : Pkt) (r : Nat) : Option Nat :=
  let p := q.seen
  if p.part = 63 then
    if q.injected ∧ p.sep ≠ 15 then some 1
    else if r ≠ p.srt then some 2
    else if p.drt ≠ r ∨ !isEndpoint r p.dep then some 3
    else if !(opKnown p.op p.ctx || (0x30 ≤ p.op && p.op ≤ 0x35)) then some 5
    else if q.badHead then some 6 else none
  else if q.injected ∧ !s.partHasEndpoint p.part p.srt p.sep then some 1
  else if !s.partHasRouter p.part r then some 2
  else if !s.partHasEndpoint p.part p.drt p.dep then some 3
  else if r ≠ p.drt ∧ !s.partHasRouter p.part (nextHop r p.drt) then some 4
  else if 48 ≤ p.part ∨ !opKnown p.op p.ctx then some 5
  else if q.badHead then some 6
  else none

/-- Write the drop log and count the drop (R38, R43). -/
def State.logDrop (s : State) (r part ctx cls drt dep srt sep reason : Nat) : State :=
  let i := s.rfld .dlhead 0 4
  let w := r + part * 2 ^ 6 + ctx * 2 ^ 12 + cls * 2 ^ 21 + drt * 2 ^ 24 + dep * 2 ^ 30 + srt * 2 ^ 34 + sep * 2 ^ 40 + reason * 2 ^ 44
  let s := (s.setReg (.dlog i 0) (BitVec.ofNat 64 w)).setReg (.dlog i 1) (BitVec.ofNat 64 s.now)
  let s := (s.setRfld .dlhead 0 4 (i + 1)).satFld .dlhead 16 32 1
  if part < 48 then s.satFld (.pstat part) 16 32 1 else s

/-- Drop each flit of a packet: every one is logged, as the router reads it, and counted (R38). -/
def State.dropFlits (s : State) (q : Pkt) (r why : Nat) : State :=
  let p := q.seen
  (List.range q.flits).foldl (fun s _ => s.logDrop r p.part p.ctx p.cls p.drt p.dep p.srt p.sep why) s

/-- Count a corrected single-bit error: at a router, in HBM, in L2 or in L1 (R34, R158). -/
def State.countCorrected (s : State) (place : Nat) : State :=
  { s with mon := { s.mon with corrected := s.mon.corrected.put place (s.mon.corrected.get 0 place + 1) } }

/-! ## Moving (R35, R36, R40) -/

/-- The output that a packet takes at a router: the next router, or 64 + an endpoint port. -/
def Pkt.output (p : Pkt) (r : Nat) : Nat := if r = p.drt then 64 + p.dep else nextHop r p.drt

/-- A packet comes to a router by an input port: an endpoint's, or 16 + the router it comes from. -/
def Pkt.enter (p : Pkt) (s : State) (r inp : Nat) : Pkt := { p with stage := .net r, arr := s.stamp, came := s.now, inp }

/-- The packet granted an output of a router (R36, R40): partitions alternate, then class 0 goes first, then the longest
wait, then the lower input port. Inputs keep requests and responses of each class apart and are never full, so a packet
waits for its output alone. Class-0 packets go by their wait too, and a link's input port counts after the endpoints', by
the router at its other end: the model's choices (log 86). -/
def State.outputGrant (s : State) (r out : Nat) : Option (Nat × Pkt) :=
  let here := s.pkts.filter fun (_, p) => p.stage == .net r && p.output r == out
  let last := s.msys.granted.get 64 (128 * r + out)
  let other := here.filter fun (_, p) => p.part != last
  let turn := if other.isEmpty then here else other
  let first := turn.filter fun (_, p) => p.cls == 0
  leastBy (fun e => (e.2.came * 128 + e.2.inp) * 2 ^ 64 + e.2.arr) (if first.isEmpty then turn else first)

/-- Take a packet out of the network. -/
def State.dropPkt (s : State) (id : Nat) : State := { s with pkts := s.pkts.erase id }

/-- A link packet whose payload came to its gateway poisoned: the gateway is its consumer, and its request takes the
data-integrity fault, for R55 has no field that carries the mark further (R34, log 112). -/
def State.gatewayPoison (s : State) (p : Pkt) : State :=
  if p.poison = 0 then s
  else { s with ops := s.ops.upd p.opId fun o => if o.fail.isSome then o else { o with fail := some (6, BitVec.ofNat 64 p.va, 0) } }

/-- FLIT (R34 to R38, R40): a packet at a router is dropped, or goes on when it is granted its output. A link packet that
comes out at its gateway goes to its strand. -/
def State.flit (s : State) (id : Nat) : State :=
  match s.pkts.find id with
  | none => s
  | some p =>
    match p.stage with
    | .net r =>
      match s.dropReason p r with
      | some why => { s.dropFlits p r why with pkts := s.pkts.put id { p with stage := .dropped, why } }
      | none =>
        let out := p.output r
        if (s.outputGrant r out).map Prod.fst ≠ some id then s
        else
          let s := if p.flips = 0 then s else s.countCorrected r
          let s := { s with msys := { s.msys with granted := s.msys.granted.put (128 * r + out) p.part } }
          let p := { p with flips := 0 }
          if r ≠ p.drt then { s.bump with pkts := s.pkts.put id (p.enter s out (16 + r)) }
          else match p.sys with
          | some (route, q) =>
            if p.dep = 15 then ((s.gatewayPoison p).dropPkt id).onStrand route q
            else { s.bump with pkts := s.pkts.put id { p with stage := .core, arr := s.stamp } }
          | none => { s.bump with pkts := s.pkts.put id { p with stage := if p.op < 0x10 then .home else .core, arr := s.stamp } }
    | _ => s

/-- FLIT. -/
def execFlit (pkt : Nat) (s : State) : Host.Outcome State Fault Refusal := .next (s.flit pkt)

/-- Send the answer to a packet, from where it was going to where it came from (R35). -/
def State.answer (s : State) (id : Nat) (p : Pkt) (op : Nat) (f : Pkt → Pkt := fun a => a) : State :=
  let a := ({ p with op, drt := p.srt, dep := p.sep, srt := p.drt, sep := p.dep } : Pkt).enter s p.drt p.dep
  { s.bump with pkts := s.pkts.put id (f a) }

/-! ## Mailboxes (R44 to R50) -/

/-- The core at an endpoint. -/
def coreAt (r port : Nat) : Nat := 8 * pairOfRouter r + port

/-- The group that sent a message, if it still stands in its slot. -/
def State.senderOf (s : State) (p : Pkt) : Option Group :=
  match s.group? p.core p.slot with
  | some g => if g.gen = p.gen then some g else none
  | none => none

/-- Change MBSn of the group that sent a message. -/
def State.updMbs (s : State) (p : Pkt) (f : MbSend → MbSend) : State :=
  match s.senderOf p with
  | none => s
  | some _ => s.updGroup p.core p.slot fun g => { g with mbs := g.mbs.put (p.addr / 64 % 4) (f (g.mbSend (p.addr / 64 % 4))) }

/-- A mailbox packet was dropped: its sender's MBSn is no longer busy, and the path that wrote it takes the network fault
late, or its grid takes it if the group has exited (R39). -/
def State.mailLost (s : State) (p : Pkt) : State :=
  let s := s.updMbs p fun m => { m with busy := false, retry := none }
  if (s.senderOf p).any fun g => !g.done then s.updGroup p.core p.slot fun g =>
    { g with late := g.late ++ [{ cls := 5, path := p.frec.path, pid := p.pid, pc := p.frec.pc, va := 0, detail := p.why }] }
  else s.strayFault p.grid { p.frec with time := s.now, detail := p.why }

/-- REQUEST_TIMEOUT (R39): 100 µs after its issue, a request that was dropped, or whose answer was, ends with a
network fault. -/
def execRequestTimeout (pkt : Nat) (s : State) : Host.Outcome State Fault Refusal :=
  match s.pkts.find pkt with
  | none => .next s
  | some p =>
    if p.stage = .dropped ∧ p.born + 100000 ≤ s.now then
      if 0x20 ≤ p.op then .next ((s.dropPkt pkt).mailLost p)
      else .next ((s.dropPkt pkt).pktFail p.opId 5 (BitVec.ofNat 64 p.va) p.why)
    else .next s

/-- MAILBOX_MESSAGE (R46): the receiving core answers accepted, full or refused. -/
def execMailboxMessage (pkt : Nat) (s : State) : Host.Outcome State Fault Refusal :=
  match s.pkts.find pkt with
  | none => .next s
  | some p =>
    if p.stage = .core ∧ p.op = 0x20 then
      let core := coreAt p.drt p.dep
      let q := p.addr % 16
      let wc := p.addr / 16 % 4
      let r := (s.core core).recvQ q
      let held := r.msgs.foldl (fun n m => n + m.flits) 0
      if r.st ≠ 1 ∨ r.ctx ≠ p.ctx then .next (s.answer pkt p 0x23)
      else if 8 < held + msgFlits wc then .next (s.answer pkt p 0x22)
      else .next ((s.updCore core fun c => { c with recv := c.recv.put q { r with
        msgs := r.msgs ++ [{ width := 16 * 2 ^ wc, img := p.img, flits := msgFlits wc, bad := p.poison != 0 }] } }).answer pkt p 0x21)
    else .next s

/-- MAILBOX_RESPONSE (R45): the sender's MBSn is free again, or injects again after 64 network cycles. -/
def execMailboxResponse (pkt : Nat) (s : State) : Host.Outcome State Fault Refusal :=
  match s.pkts.find pkt with
  | none => .next s
  | some p =>
    if p.stage = .core ∧ 0x21 ≤ p.op ∧ p.op ≤ 0x23 then
      let s := s.dropPkt pkt
      if p.op = 0x22 then .next (s.updMbs p fun m => { m with retry := some (s.now + 32) })
      else
        let s := s.updMbs p fun m => { m with busy := false, retry := none }
        if p.op = 0x23 ∧ (s.senderOf p).isSome then .next (s.updGroup p.core p.slot fun g => g.setGsr 6) else .next s
    else .next s

/-- MAILBOX_RETRY (R45): a message that was answered full is injected again. -/
def execMailboxRetry (core slot n : Nat) (s : State) : Host.Outcome State Fault Refusal :=
  match s.group? core slot with
  | none => .next s
  | some g =>
    match (g.mbSend n).retry with
    | some t => if t ≤ s.now ∧ !g.stopped then .next (s.injectMail core slot n) else .next s
    | none => .next s

end Sys2Proof.Machine
end

