-- ==== Sys2Proof/Machine/MemEvents.lean ====
section
/-! DEFINITION. Packets at their home slice and at the cores: L2, channel bursts, responses, page walks and
scrubbing (R34, R106, R154 to R158, R166, R167, R171 to R174, R180, R343). -/

namespace Sys2Proof.Machine

/-! ## Counters (R256) -/

/-- Count a shared-resource event of a partition. -/
def State.countShared (s : State) (part e : Nat) : State :=
  { s with mon := { s.mon with shared := s.mon.shared.put (64 * part + e) (s.mon.shared.get 0 (64 * part + e) + 1) } }

/-- Count a shared-resource event of the device. -/
def State.countDevice (s : State) (e : Nat) : State :=
  { s with mon := { s.mon with shared := s.mon.shared.put e (s.mon.shared.get 0 e + 1) } }

/-! ## L2 (R106, R156, R158) -/

/-- The L2 set of a line (R156). -/
def l2Set (line : Nat) : Nat := line % 2 ^ 26 % 1536

/-- Whether two lines share a set of one slice. -/
def sameSet (a b : Nat) : Bool := a / 2 ^ 26 == b / 2 ^ 26 && l2Set a == l2Set b

/-- Take a line out of L2. A dirty one reaches its channel: by its dirty bytes, or whole if it is wholly valid
(R156); the burst that carries it waits to be charged. -/
def MemSys.evict (m : MemSys) (key : Nat) : MemSys :=
  match m.l2.find key with
  | none => m
  | some l =>
    let m := { m with l2 := m.l2.erase key }
    if l.dirty = 0 then m
    else
      let line := l2LineOf key
      let m := m.dramWrite line (if l.valid = wholeMask then wholeMask else l.dirty) l.data l.poison
      let b : Burst := { chan := line / 2 ^ 26, ctx := l.ctx, line, write := true }
      { m with bursts := m.bursts ++ [b] }

/-- Put a line into one of its group's ways; the least recently used of them goes. Nothing where the group has no way. -/
def MemSys.l2Alloc (m : MemSys) (mask : BitVec 16) (line : Nat) (l : L2Line) : MemSys :=
  match m.l2Find l.sg line with
  | some o => { m with l2 := m.l2.put (l2Key l.sg line) { l with way := o.way } }
  | none =>
    let mine := m.l2.filter fun (n, _) => sameSet (l2LineOf n) line
    let ways := (List.range 16).filter fun w => mask.getLsbD w
    let at? (w : Nat) := mine.find? fun (_, x) => x.way == w
    match ways.find? fun w => (at? w).isNone with
    | some w => { m with l2 := m.l2.put (l2Key l.sg line) { l with way := w } }
    | none =>
      match leastBy (fun w => match at? w with | some (_, x) => x.used | none => 0) ways with
      | none => m
      | some w =>
        let m := match at? w with | some (n, _) => m.evict n | none => m
        { m with l2 := m.l2.put (l2Key l.sg line) { l with way := w } }

/-! ## At the home slice (R156, R157, R172, R343) -/

/-- The line of a packet's address. -/
def Pkt.line (p : Pkt) : Nat := p.addr / 128

/-- Whether an older packet of the same line is still served at the home slice (R35, R172). -/
def State.behind (s : State) (id : Nat) (p : Pkt) : Bool :=
  s.pkts.any fun (i, q) => i != id && q.line == p.line && q.op < 0x10 &&
    (q.stage == .burst || (q.stage == .home && decide (q.arr < p.arr)))

/-- Ask the channel for a burst of a packet's line. -/
def State.askBurst (s : State) (id : Nat) (p : Pkt) (write : Bool) (mask : BitVec 128) (d : Line) : State :=
  let b : Burst := { chan := channelOf p.addr, ctx := p.ctx, line := p.line, write, data := d, mask, pkt := some id
                     poison := if write ∧ (p.op = 2 ∨ p.op = 3) then p.poison else 0 }
  { s with
    pkts := s.pkts.put id { p with stage := .burst, missed := true }
    msys := { s.msys with bursts := s.msys.bursts ++ [b] } }

/-- Count a lookup in L2. -/
def State.countL2 (s : State) (p : Pkt) (hit : Bool) : State := s.countShared p.part (if hit then 16 else 17)

/-- Answer a read with the line. -/
def State.answerLine (s : State) (id : Nat) (p : Pkt) (d : Line) (poison : BitVec 16) : State :=
  s.answer id p 0x10 fun a => { a with data := d, poison }

/-- The old and the new value of an atomic at its home, and the line after it (R340). -/
def atomLine (p : Pkt) (d : Line) : W64 × Line × BitVec 128 :=
  match p.lanes with
  | [] => (0, d, 0)
  | l :: _ =>
    let size := atomSize p.aop
    let i := p.addr % 128
    let old := BitVec.ofNat 64 (d.toNat >>> (8 * i) % 2 ^ (8 * size))
    let new := atomNew p.aop old l.x l.y
    let m := byteMask i size
    (old, Line.merge m (BitVec.ofNat 1024 (new.toNat % 2 ^ (8 * size) * 2 ^ (8 * i))) d, m)

/-- Answer an atomic: its old value, or an acknowledgement of a reduction. -/
def State.answerAtom (s : State) (id : Nat) (p : Pkt) (old : W64) (poison : BitVec 16) : State :=
  let bad : BitVec 16 := if poison.getLsbD (p.addr % 128 / 8) then 1 else 0
  if p.op = 4 then s.answer id p 0x12 fun a =>
      { a with lanes := p.lanes.map (fun (l : LaneAcc) => { l with x := old }), poison := bad }
  else s.answer id p 0x11 fun a => { a with poison := bad }

/-- Serve a packet whose line is wholly valid in L2, or that writes it there. -/
def State.serveL2 (s : State) (id : Nat) (p : Pkt) (l : L2Line) : State :=
  let put (s : State) (l : L2Line) : State := s.bump.updMem fun m => { m with l2 := m.l2.put (l2Key l.sg p.line) { l with used := s.stamp } }
  if p.op ≤ 1 then (put s l).answerLine id p l.data l.poison
  else if p.op = 4 ∨ p.op = 5 then
    let (old, d, m) := atomLine p l.data
    let bad := l.poison.getLsbD (p.addr % 128 / 8)
    (put s (if bad then l else { l with data := d, dirty := l.dirty ||| m, ctx := p.ctx })).answerAtom id p old l.poison
  else (put s l).answer id p 0x11

/-- Serve a packet on its channel's line, without L2 (R172): the line it leaves, if it writes it. -/
def State.serveChannel (s : State) (id : Nat) (p : Pkt) : State :=
  let d := s.msys.dramLine p.line
  let poison := s.msys.dramPoison p.line
  if p.op ≤ 1 then s.answerLine id p d poison
  else if p.op = 4 ∨ p.op = 5 then
    let (old, new, m) := atomLine p d
    if poison.getLsbD (p.addr % 128 / 8) then s.answerAtom id p old poison
    else
      s.askBurst id { p with lanes := p.lanes.map (fun (l : LaneAcc) => { l with x := old }) } true m new
  else s.answer id p 0x11

/-- A packet that its home slice may serve now. A slice that is out of service (R24) answers nothing: the request times out
(log 89). -/
def State.atHome (s : State) (id : Nat) (ok : Pkt → Bool) (f : Pkt → State) : Host.Outcome State Fault Refusal :=
  match s.pkts.find id with
  | none => .next s
  | some p => if p.stage = .home ∧ ok p ∧ !s.behind id p then
      if s.boot.outOfService.contains (true, sliceOfChannel (channelOf p.addr)) then
        .next { s with pkts := s.pkts.put id { p with stage := .dropped } }
      else .next (f p)
    else .next s

/-- The bytes that a request needs of its line: an atomic's operand, or all (R156). -/
def Pkt.needs (p : Pkt) : BitVec 128 := if p.op = 4 ∨ p.op = 5 then byteMask (p.addr % 128) (atomSize p.aop) else wholeMask

/-- A read or an atomic: a hit is served at once, else the line is read from its channel (R156). An atomic whose operand
came poisoned is not performed (R34). -/
def State.homeRead (s : State) (id : Nat) (p : Pkt) : State :=
  if 4 ≤ p.op ∧ p.poison ≠ 0 then s.answerAtom id p 0 (BitVec.allOnes 16)
  else if s.l2Mask p.ctx = 0 then s.askBurst id p false 0 0
  else match s.msys.l2Find (s.ctxSg p.ctx) p.line with
    | some l => if p.needs &&& ~~~l.valid = 0 then (s.countL2 p true).serveL2 id p l else (s.countL2 p false).askBurst id p false 0 0
    | none => (s.countL2 p false).askBurst id p false 0 0

/-- READ_LINE (0x00). -/
def execReadLine (pkt : Nat) (s : State) : Host.Outcome State Fault Refusal := s.atHome pkt (·.op == 0) (s.homeRead pkt)

/-- READ_LINE_UNCACHED (0x01): the channel's line, allocating nothing (R172). -/
def execReadLineUncached (pkt : Nat) (s : State) : Host.Outcome State Fault Refusal :=
  s.atHome pkt (·.op == 1) fun p => s.askBurst pkt p false 0 0

/-- A store at its home slice: into L2, allocating the line without reading its channel, or past it (R156). -/
def State.homeStore (s : State) (id : Nat) (p : Pkt) (mask : BitVec 128) : State :=
  let sg := s.ctxSg p.ctx
  let way := s.l2Mask p.ctx
  if way = 0 then s.askBurst id p true mask p.data
  else
    let old := (s.msys.l2Find sg p.line).getD {}
    let l : L2Line := { old with
      data := Line.merge mask p.data old.data, valid := old.valid ||| mask, dirty := old.dirty ||| mask
      poison := poisonAfter old.poison p.poison mask, sg, ctx := p.ctx, used := s.stamp }
    ((s.countL2 p (s.msys.l2Find sg p.line).isSome).bump.updMem fun m => m.l2Alloc way p.line l).answer id p 0x11

/-- WRITE_LINE (0x02). -/
def execWriteLine (pkt : Nat) (s : State) : Host.Outcome State Fault Refusal :=
  s.atHome pkt (·.op == 2) fun p => s.homeStore pkt p wholeMask

/-- MASKED_WRITE (0x03). -/
def execMaskedWrite (pkt : Nat) (s : State) : Host.Outcome State Fault Refusal :=
  s.atHome pkt (·.op == 3) fun p => s.homeStore pkt p p.mask

/-- ATOMIC_WITH_RETURN (0x04): at the home slice (R156, R179). -/
def execAtomicWithReturn (pkt : Nat) (s : State) : Host.Outcome State Fault Refusal :=
  s.atHome pkt (·.op == 4) (s.homeRead pkt)

/-- REDUCTION_NO_RETURN (0x05). -/
def execReductionNoReturn (pkt : Nat) (s : State) : Host.Outcome State Fault Refusal :=
  s.atHome pkt (·.op == 5) (s.homeRead pkt)

/-- The fills that a server group awaits in the set of a line: the bursts that read for its requests (R343). -/
def State.pendingFills (s : State) (sg line : Nat) : Nat :=
  (s.msys.bursts.filter fun b => !b.write && sameSet b.line line &&
    match b.pkt.bind s.pkts.find with | some q => q.op != 1 && s.ctxSg q.ctx == sg | none => false).length

/-- PREFETCH_TO_L2 (0x06, R343): a line that is present, a set in which the group's ways all await fills, and a group
without ways fetch nothing; the prefetch completes in any case. -/
def execPrefetchToL2 (pkt : Nat) (s : State) : Host.Outcome State Fault Refusal :=
  s.atHome pkt (·.op == 6) fun p =>
    let way := s.l2Mask p.ctx
    let ways := ((List.range 16).filter fun w => way.getLsbD w).length
    if (s.msys.l2Find (s.ctxSg p.ctx) p.line).isSome ∨ ways ≤ s.pendingFills (s.ctxSg p.ctx) p.line then s.answer pkt p 0x11
    else (s.countL2 p false).askBurst pkt p false 0 0

/-- INVALIDATE_LINE (0x07, management): the home slice drops the line, dirty or not. -/
def execInvalidateLine (pkt : Nat) (s : State) : Host.Outcome State Fault Refusal :=
  s.atHome pkt (·.op == 7) fun p => (s.updMem fun m => { m with l2 := m.l2.filter fun (k, _) => l2LineOf k != p.line }).answer pkt p 0x11

/-- ZERO_LINE (0x08, management): zeros are written to the line's channel. -/
def execZeroLine (pkt : Nat) (s : State) : Host.Outcome State Fault Refusal :=
  s.atHome pkt (·.op == 8) fun p => s.askBurst pkt p true wholeMask 0

/-- The words of a line all of whose bytes are valid. -/
def coveredWords (v : BitVec 128) : BitVec 16 := poisonAfter (BitVec.allOnes 16) 0 v ^^^ BitVec.allOnes 16

/-- A burst has been granted its channel: it performs (R95, R156). -/
def State.runBurst (s : State) (b : Burst) : State :=
  let s := { s with msys := { s.msys with bursts := s.msys.bursts.erase b } }
  let part := match s.partOfUnit (unitOfChannel b.chan) with | some n => n | none => s.ctxPart b.ctx
  let s := s.countShared part 18
  let s := if b.write then s.updMem fun m => m.dramWrite b.line b.mask b.data b.poison else s
  match b.pkt with
  | none => s
  | some id =>
    match s.pkts.find id with
    | none => s
    | some p =>
      if b.write then
        if p.op = 4 ∨ p.op = 5 then s.answerAtom id p (match p.lanes with | l :: _ => l.x | [] => 0) 0
        else s.answer id p 0x11
      else
        let sg := s.ctxSg p.ctx
        let way := s.l2Mask p.ctx
        if p.op = 1 ∨ way = 0 then s.serveChannel id p
        else
          let old := (s.msys.l2Find sg p.line).getD { ctx := p.ctx }
          let l : L2Line := { old with
            data := Line.merge old.valid old.data (s.msys.dramLine p.line), valid := wholeMask, sg, used := s.stamp
            poison := old.poison ||| (s.msys.dramPoison p.line &&& ~~~coveredWords old.valid) }
          (s.bump.updMem fun m => m.l2Alloc way p.line l).serveL2 id p l

/-! ## Responses at the core (R34, R156, R174, R188) -/

/-- A write has performed: what L1 has taken of its line since it was made goes, and data that an older read has on its way does not
stand there (R156, R185). -/
def State.clearAfter (s : State) (id : Nat) (p : Pkt) : State :=
  { s.updCore p.core fun c => { c with l1 := c.l1.filter fun l => !(l.line == p.line && l.sg == s.ctxSg p.ctx && decide (id < l.born)) } with
    pkts := s.pkts.map fun (i, (q : Pkt)) =>
      (i, if q.sys.isNone ∧ q.op = 0x10 ∧ q.core = p.core ∧ q.line = p.line then { q with noAlloc := true } else q) }

/-- READ_DATA (0x10): the value is bound, and a line that L1 reads is allocated there. -/
def State.takeData (s : State) (id : Nat) (p : Pkt) : State :=
  let s := s.dropPkt id
  match s.ops.find p.opId with
  | none => s
  | some o =>
    let ways := s.l1Mask p.ctx
    let s := if o.kind.throughL1 ∧ ways ≠ 0 ∧ !p.noAlloc then
        s.bump.updCore p.core fun c => c.l1Alloc ways (s.ctxSg p.ctx) p.line p.data p.poison s.stamp
      else s
    (s.saw p.opId p.line).bindLine p.opId (p.va / 128) p.data p.poison

/-- WRITE_ACKNOWLEDGEMENT (0x11): one packet of the operation is over. A line that came into L1 while the write
was in flight, and any line that an engine has written, is invalidated (R156, R188). -/
def State.takeAck (s : State) (id : Nat) (p : Pkt) : State :=
  let s := s.dropPkt id
  match s.ops.find p.opId with
  | none => s
  | some o =>
    let s := if o.kind.engine then (s.clearAfter id p).dropLine p.core (s.ctxSg p.ctx) p.line
      else if o.kind = .pref ∨ o.kind.atGateway then s
      else s.clearAfter id p
    if p.poison ≠ 0 then s.pktFail p.opId 6 (BitVec.ofNat 64 p.va) 0 else s.pktDone p.opId

/-- ATOMIC_RESULT (0x12): the old value of a lane. -/
def State.takeOld (s : State) (id : Nat) (p : Pkt) : State :=
  let s := ((s.dropPkt id).clearAfter id p).saw p.opId p.line
  if p.poison ≠ 0 then s.pktFail p.opId 6 (BitVec.ofNat 64 p.va) 0
  else
    let s := { s with ops := s.ops.upd p.opId fun o =>
      { o with olds := p.lanes.foldl (fun (m : SMap W64) (l : LaneAcc) => m.put l.lane l.x) o.olds } }
    s.pktDone p.opId

/-! ## Soft errors (R34, R158) -/

/-- Whether a packet carries a payload (R45, R55, R157). -/
def Pkt.hasPayload (p : Pkt) : Bool := (2 ≤ p.op && p.op ≤ 5) || p.op == 0x10 || p.op == 0x12 || p.op == 0x13 || p.op == 0x20 || p.sys.isSome

/-- A soft error: a single bit is corrected and counted; more make a header bad or poison a word. -/
def State.upset (s : State) (u : Upset) : State :=
  match u with
  | .header id flips => { s with pkts := s.pkts.upd id fun p => { p with flips := p.flips ^^^ flips } }
  | .payload id word bits =>
    match s.pkts.find id with
    | none => s
    | some p =>
      if bits ≤ 1 then s.countCorrected (match p.stage with | .net r => r | _ => p.drt)
      else if !p.hasPayload then s
      else { s with pkts := s.pkts.put id { p with poison := p.poison ||| (1#16 <<< (word % 16)) } }
  | .memory word bits =>
    if bits ≤ 1 then s.countCorrected 64
    else s.updMem fun m => if m.poison.contains word then m else { m with poison := m.poison ++ [word] }
  | .l2 line word bits =>
    if bits ≤ 1 then s.countCorrected 65
    else s.updMem fun m => { m with l2 := m.l2.map fun (k, (l : L2Line)) =>
        (k, if l2LineOf k = line then { l with poison := l.poison ||| (1#16 <<< (word % 16)) } else l) }
  | .l1 core line word bits =>
    if bits ≤ 1 then s.countCorrected 66
    else
      let hit (l : L1Line) : L1Line := { l with poison := l.poison ||| (1#16 <<< (word % 16)) }
      s.updCore core fun c => { c with l1 := mapIf (fun l => l.line == line) hit c.l1 }

/-! ## Page walks (R166, R167) -/

/-- Whether a packet waits for the walk of a page. -/
def Pkt.waitsFor (p : Pkt) (s : State) (core ctx page size : Nat) : Bool :=
  p.stage == .xlat && p.ctx == ctx && unitOfCore p.core == unitOfCore core && p.va / pageBytes size == page &&
    (s.cached p.core p.ctx p.va).isNone

/-- The walker of a unit. -/
def State.walker (s : State) (u : Nat) : Walker := s.msys.walkers.get {} u

def State.setWalker (s : State) (u : Nat) (w : Walker) : State := s.updMem fun m => { m with walkers := m.walkers.put u w }

/-- The walker of a unit reads a table entry, as the management context: one uncached read at the entry's home slice and channel, from
the router of the unit's clusters (R102, R166, R167). -/
def State.readEntry (s : State) (u ctx va level table : Nat) : State :=
  let pa := entryPa table level va
  let (s, id) := s.startMgmt (.walkRead u) (coreRouter (4 * u)) ((s.partOfUnit u).getD 63) [(pa, none)]
  let s : State := { s with ops := s.ops.upd id fun o => { o with lanes := [{ lane := 0, addr := pa }], size := 8 } }
  s.setWalker u { s.walker u with walk := some { ctx, va, level, entry := pa, op := id } }

/-- Requests of a unit that wait for a walk of a page and whose translation another walk has brought go on. -/
def State.serveHits (s : State) (core ctx va : Nat) : State :=
  let hit (p : Pkt) : Bool := p.stage == .xlat && p.ctx == ctx && unitOfCore p.core == unitOfCore core && p.va / 4096 == va / 4096 &&
    (s.cached p.core p.ctx p.va).isSome
  (s.pkts.filter fun (_, p) => hit p).foldl (fun s (i, _) => s.launch i) s

/-- The requests that a walk of a page fails for end with its fault. -/
def State.walkFails (s : State) (core ctx va cls detail : Nat) : State :=
  let mine := s.pkts.filter fun (_, p) => p.waitsFor s core ctx (va / 4096) 0
  mine.foldl (fun s (i, p) => ({ s with pkts := s.pkts.erase i } : State).pktFail p.opId cls (BitVec.ofNat 64 p.va) detail) s

/-- Every request of the unit that waits for the page of a leaf goes on with it. A core that its context has left caches nothing. -/
def State.walkEnds (s : State) (core ctx va : Nat) (leaf : W64) (size : Nat) : State :=
  let mine := s.pkts.filter fun (_, p) => p.waitsFor s core ctx (va / pageBytes size) size
  mine.foldl (fun s (i, p) =>
    if (s.l2tlbKey p.core ctx).isSome then (s.install p.core ctx p.va leaf size).launch i else s.launchWith i p leaf size) s

/-- PAGE_WALK (R166, R167): the requests of a unit that wait for a page enter its walker's queue while there is room, and the walk of
the page at the queue's head begins when the walker is free. One walk serves every request that waits for its page. -/
def execPageWalk (core ctx : Nat) (va : BitVec 64) (s : State) : Host.Outcome State Fault Refusal :=
  let u := unitOfCore core
  let a := va.toNat
  let s := s.serveHits core ctx a
  let w := s.walker u
  let waiting (i : Nat) : Bool := (s.pkts.find i).any fun p => p.stage == .xlat
  let old := w.queue.filter waiting
  let new := (s.pkts.filter fun (i, p) => p.waitsFor s core ctx (a / 4096) 0 && !old.contains i).map Prod.fst
  let q := old ++ new.take (32 - old.length)
  let s := if q = w.queue then s else s.setWalker u { w with queue := q }
  match w.walk, q.head?.bind s.pkts.find with
  | none, some p =>
    if p.ctx = ctx ∧ p.va / 4096 = a / 4096 then
      match s.tableRoot ctx with
      | none => .next (s.walkFails core ctx a 3 1)
      | some t => .next (s.readEntry u ctx (p.va / 4096 * 4096) 3 t)
    else .next s
  | _, _ => .next s

/-- A table entry has been read: the walk goes on in the next table, or ends (R166). One that a TINV or the end of a lease has made stale
is discarded, and the requests walk again (R168, R170). -/
def State.walkGoes (s : State) (u : Nat) : State :=
  match (s.walker u).walk with
  | none => s
  | some w =>
    let walked (s : State) : State := s.setWalker u { s.walker u with walk := none }
    match s.ops.find w.op with
    | none => walked s
    | some o =>
      if o.left ≠ 0 then s
      else
        let s := walked (s.dropOp w.op)
        if w.stale then s
        else match o.fail with
          | some (cls, _, det) => s.walkFails (4 * u) w.ctx w.va cls det
          | none =>
            match walkStep w.level (BitVec.ofNat 64 (o.readN w.entry 8)) with
            | .bad => s.walkFails (4 * u) w.ctx w.va 3 1
            | .leaf e size => s.walkEnds (4 * u) w.ctx w.va e size
            | .next t => s.readEntry u w.ctx w.va (w.level - 1) t

/-! ## Scrubbing (R173) -/

/-- The lines of a 4 KiB frame. -/
def frameLines (frame : Nat) : List Nat := (List.range 32).map fun i => frame / 128 + i

/-- The next frame of a partition's scrub queue, and the queue after it. -/
def nextFrame : List (Nat × Nat) → Option (Nat × List (Nat × Nat))
  | [] => none
  | (b, n) :: q => if n = 0 then nextFrame q else some (b, if n = 1 then q else (b + 4096, n - 1) :: q)

/-- Drop every copy of some lines: in every L1 of a partition and in the home slice (R173 step 1). -/
def State.dropLines (s : State) (part : Nat) (lns : List Nat) : State :=
  let s := (s.partCores part).foldl (fun s c =>
    if (s.core c).l1.isEmpty then s else s.updCore c fun k => { k with l1 := k.l1.filter fun l => !lns.contains l.line }) s
  s.updMem fun m => { m with l2 := m.l2.filter fun (k, _) => !lns.contains (l2LineOf k) }

/-- SCRUB_FRAME (R173): the engine takes the next frame and sends its zero-line packets. -/
def execScrubFrame (part : Nat) (s : State) : Host.Outcome State Fault Refusal :=
  if (s.msys.scrubbing.find part).isSome then .next s
  else match nextFrame (s.msys.scrub.get [] part) with
    | none => .next s
    | some (frame, q) =>
      let lns := frameLines frame
      let id := s.stamp
      let o : Op := { kind := .scrub part, ctx := mgmtCtx, left := lns.length }
      let s := s.dropLines part lns
      let s := { s.bump with
        ops := s.ops.put id o
        msys := { s.msys with scrub := s.msys.scrub.put part q, scrubbing := s.msys.scrubbing.put part (frame, id) } }
      .next (lns.foldl (fun s ln =>
        let sl := sliceOfChannel (channelOf (128 * ln))
        let p : Pkt := { op := 8, drt := sliceRtr sl, dep := slicePort sl, srt := sliceRtr sl, sep := 15, part, ctx := mgmtCtx
                         cls := 0, addr := 128 * ln, opId := id, stage := .net (sliceRtr sl), born := s.now, arr := s.stamp, came := s.now }
        { s.bump with pkts := s.pkts.put s.stamp p }) s)

/-- SCRUB_FRAME_COMPLETE (R173 step 3): with every line acknowledged, the frame returns to its free pool. -/
def execScrubFrameComplete (part : Nat) (s : State) : Host.Outcome State Fault Refusal :=
  match s.msys.scrubbing.find part with
  | none => .next s
  | some (frame, id) =>
    if (s.ops.find id).isSome then .next s
    else
      let c := channelOf frame
      let s := s.updMem fun m => { m with scrubbing := m.scrubbing.erase part }
      let s := (s.setRfld (.scrub part) 0 32 (s.rfld (.scrub part) 0 32 - 1)).satFld (.scrub part) 32 32 1
      .next ((s.setRfld (.fpool c) 0 21 (s.rfld (.fpool c) 0 21 + 1)).setRfld (.fpool c) 21 21 (s.rfld (.fpool c) 21 21 - 1))

end Sys2Proof.Machine
end

