-- ==== Sys2Proof/Machine/Links.lean ====
section
/-! DEFINITION. Lodra links, remote flows and the hoist handshake (R51 to R75), and the responses that come to
cores or to gateways. -/

namespace Sys2Proof.Machine

/-! ## Link flits (R53) -/

/-- Modulo 4096, as link sequence numbers compare (R57). -/
def lmod (a b : Nat) : Nat := (a + 4096 - b % 4096) % 4096

/-- Modulo 2²⁴, as flow sequence numbers compare (R64). -/
def smod (a b : Nat) : Nat := (a + 2 ^ 24 - b % 2 ^ 24) % 2 ^ 24

/-- Whether a packet type is a response (R56): what answers a request on chip, and an ACK; the other system types count as
requests. R56 does not say which they are (log 112). -/
def isRsp (op : Nat) : Bool := (0x10 ≤ op && op ≤ 0x1F) || op == 0x30

/-- The key of a credit pool. -/
def creditKey (cls : Nat) (rsp : Bool) : Nat := 2 * cls + if rsp then 1 else 0

/-- The fields of a link header (R53). -/
structure FlitHead where
  kind : Nat
  lseq : Nat := 0
  lack : Nat
  ctx : Nat := 0
  cls : Nat := 0
  rsp : Bool := false
  crd : Nat := 0
  crcls : Nat := 0
  crrsp : Bool := false
  crv : Bool := false
  deriving DecidableEq, Repr

/-- One bit of a header. -/
def flag (b : Bool) (i : Nat) : Nat := if b then 2 ^ i else 0

/-- The 8 bytes of a link header. -/
def FlitHead.bits (h : FlitHead) : Nat :=
  h.kind % 4 + h.lseq % 4096 * 2 ^ 2 + h.lack % 4096 * 2 ^ 14 + h.ctx % 512 * 2 ^ 26 + h.cls % 8 * 2 ^ 35 + flag h.rsp 38 +
    h.crd % 256 * 2 ^ 39 + h.crcls % 8 * 2 ^ 47 + flag h.crrsp 50 + flag h.crv 51

/-- The first n bytes of a number. -/
def bytesOf (n x : Nat) : List Byte := bytesLE n x

/-- Bytes 0 to 247 of a flit: its header, and its body's slots with padding after them (R53, R54). -/
def flitLow (h : FlitHead) (slots : List (BitVec 128)) : Nat :=
  h.bits + (slots.mapIdx fun i x => x.toNat * 2 ^ (64 + 128 * i)).foldl (· + ·) 0

/-- The 256 bytes of a flit: bytes 0 to 247 and their CRC-64 (R53). -/
def buildFlit (h : FlitHead) (slots : List (BitVec 128)) : LinkFlit :=
  let low := flitLow h slots
  { image := BitVec.ofNat 2048 (low + (crc64 (bytesOf 248 low)).toNat * 2 ^ 1984), corrected := 0, uncorrectable := 0 }

/-- A field of a flit's header. -/
def flitFld (f : LinkFlit) (lo n : Nat) : Nat := f.image.toNat / 2 ^ lo % 2 ^ n

/-- A received flit's header; its reserved bits are not looked at. -/
def flitHead (f : LinkFlit) : FlitHead :=
  { kind := flitFld f 0 2, lseq := flitFld f 2 12, lack := flitFld f 14 12, ctx := flitFld f 26 9, cls := flitFld f 35 3, rsp := flitFld f 38 1 == 1
    crd := flitFld f 39 8, crcls := flitFld f 47 3, crrsp := flitFld f 50 1 == 1, crv := flitFld f 51 1 == 1 }

/-- The 15 slots of a flit's body. -/
def flitSlots (f : LinkFlit) : List (BitVec 128) := (List.range 15).map fun i => f.image.extractLsb' (64 + 128 * i) 128

/-- Whether a flit's CRC is that of its bytes 0 to 247. -/
def flitCrcOk (f : LinkFlit) : Bool := f.image.extractLsb' 1984 64 == crc64 (bytesOf 248 (f.image.toNat % 2 ^ 1984))

/-! ## Link packets in slots (R54, R55) -/

/-- Data slots of a packet. -/
def pktLen (p : SysPkt) : Nat := (p.data.length + 15) / 16

/-- A system header (R55). -/
def pktHeader (p : SysPkt) : BitVec 128 :=
  BitVec.ofNat 128 (p.ddev % 64 + p.sdev % 64 * 2 ^ 6 + p.srt % 64 * 2 ^ 12 + p.sep % 16 * 2 ^ 18 + p.route % 1024 * 2 ^ 22 +
    p.cls % 8 * 2 ^ 32 + flag p.fm 35 + p.seq % 2 ^ 24 * 2 ^ 36 + p.op % 64 * 2 ^ 60 + pktLen p % 32 * 2 ^ 66 + p.addr % 2 ^ 52 * 2 ^ 71 +
    flag p.akq 123 + 2 ^ 127)

/-- The slots of a packet: its header and its data. -/
def pktSlotList (p : SysPkt) : List (BitVec 128) :=
  pktHeader p :: (List.range (pktLen p)).map fun i => BitVec.ofNat 128 (leOf ((p.data.drop (16 * i)).take 16))

/-- LEN of a header slot. -/
def slotLen (h : BitVec 128) : Nat := h.toNat / 2 ^ 66 % 32

/-- The packet of a header and its data slots. -/
def sysPktOf (h : BitVec 128) (data : List (BitVec 128)) : SysPkt :=
  let f (lo n : Nat) : Nat := h.toNat / 2 ^ lo % 2 ^ n
  { ddev := f 0 6, sdev := f 6 6, srt := f 12 6, sep := f 18 4, route := f 22 10, cls := f 32 3, fm := f 35 1 == 1, seq := f 36 24
    op := f 60 6, addr := f 71 52, akq := f 123 1 == 1, data := data.flatMap fun x => bytesLE 16 x.toNat }

/-- The packets that end in some slots, after the slots of one begun before; and the slots of one that goes on in the next
flit. A slot that is no header, or whose LEN is above 16, ends the flit's packets (log 91 for the latter). -/
def takeSlots : List (BitVec 128) → List (BitVec 128) → List SysPkt × List (BitVec 128)
  | [], part => ([], part)
  | x :: xs, [] =>
    if !x.getLsbD 127 ∨ 16 < slotLen x then ([], [])
    else if slotLen x = 0 then ((sysPktOf x []) :: (takeSlots xs []).1, (takeSlots xs []).2)
    else takeSlots xs [x]
  | x :: xs, h :: ds =>
    let all := ds ++ [x]
    if all.length = slotLen h then ((sysPktOf h all) :: (takeSlots xs []).1, (takeSlots xs []).2)
    else takeSlots xs (h :: all)

/-! ## Credits, replay and acceptance (R56, R57) -/

/-- What the header of a good flit tells: the far end's LACK and returned credits (R56, R57). -/
def Link.heard (l : Link) (f : FlitHead) : Link :=
  let d := lmod f.lack l.peerLack
  let adv := d ≠ 0 ∧ d ≤ l.replay.length
  let l := if adv then { l with peerLack := f.lack, replay := l.replay.drop d, requests := 0 } else l
  if f.crv then
    let k := creditKey f.crcls f.crrsp
    { l with used := SMap.set 0 l.used k (l.used.get 0 k - f.crd) }
  else l

/-- Credits of a pool in a flit's header (R56). -/
def FlitHead.credit (f : FlitHead) (c : Option (Nat × Nat)) : FlitHead :=
  match c with
  | none => f
  | some (k, n) => { f with crd := n, crcls := k / 2, crrsp := k % 2 == 1, crv := true }

/-- Send a flit on a link. -/
def State.emit (s : State) (link : Nat) (f : LinkFlit) : State :=
  { s with host := { s.host with out := s.host.out ++ [.linkFlit link f] } }

/-- A data flit as it goes out. -/
def DataFlit.head (d : DataFlit) (lack : Nat) : FlitHead :=
  FlitHead.credit { kind := 1, lseq := d.lseq, lack, ctx := d.ctx, cls := d.cls, rsp := d.rsp } d.credit

/-- Send the data flits after LACK again (R57). -/
def State.resend (s : State) (link : Nat) : State :=
  (s.link link).replay.foldl (fun s d => s.emit link (buildFlit (d.head (s.link link).rxLack) d.slots)) s

/-- An idle flit with the credits that are due, where nothing else is sent (R56); none goes between the two parts of a
packet (R54). -/
def State.sendIdle (s : State) (link : Nat) : State :=
  if (s.link link).back.isEmpty ∨ !(s.link link).txPart.isEmpty ∨ !s.linkUp link ∨ s.rfld (.lstat link) 9 3 = 4 then s
  else
    let h : FlitHead := { kind := 0, lack := (s.link link).rxLack }
    (s.updLink link fun l => { l with back := l.back.drop 1 }).emit link (buildFlit (h.credit (s.link link).back.head?) [])

/-- Whether a flit is good: its CRC, and every FEC codeword under it. -/
def goodFlit (f : LinkFlit) : Bool := flitCrcOk f && f.uncorrectable == 0

/-- Count the FEC codewords of a flit (R75). -/
def State.countFec (s : State) (link : Nat) (f : LinkFlit) : State :=
  (s.satFld (.lcnt link) 0 32 f.corrected).satFld (.lcnt link) 48 16 f.uncorrectable

/-- Send a replay request with the current LACK (R57); one that would part a packet goes after it (R54). -/
def State.askReplay (s : State) (link : Nat) : State :=
  let later : Bool := !(s.link link).txPart.isEmpty
  let s := s.updLink link fun l => { l with reqSent := true, owed := later }
  if later then s
  else (s.satFld (.lcnt link) 32 16 1).emit link (buildFlit { kind := 2, lack := (s.link link).rxLack } [])

/-- Send the replay request that waited for the end of a packet, if it is still wanted. -/
def State.sendOwed (s : State) (link : Nat) : State :=
  if (s.link link).owed ∧ (s.link link).txPart.isEmpty then s.askReplay link else s

/-- Discard a flit (R57): one replay request goes out, and no other until the replay has failed too. That shows where the
sequence starts again without the flit that is due (log 93). -/
def State.discardFlit (s : State) (link : Nat) (f : LinkFlit) : State :=
  let l := s.link link
  let n := (flitHead f).lseq
  let failed : Bool := goodFlit f && l.seen.any fun x => lmod n x == 0 || decide (2048 ≤ lmod n x)
  let s := if goodFlit f then s.updLink link fun l => { l with seen := some n } else s
  if l.reqSent ∧ !failed then s else s.askReplay link

/-- The event that a packet brings (R55, R61). -/
def sysEvent (p : SysPkt) : Instr :=
  match p.op with
  | 0x30 => .ack p
  | 0x31 => .hoist p
  | 0x32 => .go p
  | 0x33 => .abort p
  | 0x34 => .withdraw p
  | 0x35 => .freset p
  | _ => .remoteRequest p

/-- LINK_DATA_FLIT (R54, R56, R57): a flit that is good and in sequence is accepted, and the packets that end in it leave
for the gateway; any other is discarded. A packet goes on from one flit to the next of the same CTX, CLS and RSP. A good flit
of the reserved KIND 3 is ignored whole, its LACK and credits with it: the model's choice (log 112). -/
def execLinkDataFlit (link : Nat) (flit : LinkFlit) (s : State) : Host.Outcome State Fault Refusal :=
  let s := s.countFec link flit
  let l := s.link link
  let h := flitHead flit
  if !s.linkUp link ∨ (goodFlit flit ∧ h.kind ≠ 1) then .next s
  else if goodFlit flit ∧ lmod h.lseq l.rxLack = 1 then
    let k := creditKey h.cls h.rsp
    let key := (h.ctx, h.cls, h.rsp)
    let (ps, part) := takeSlots (flitSlots flit) (if l.rxKey = key then l.rxPart else [])
    let s := s.updLink link fun l => { l.heard h with
      rxLack := h.lseq, reqSent := false, owed := false, seen := none, back := l.back.put k (l.back.get 0 k + 1), rxPart := part, rxKey := key }
    .next (s.push (ps.map sysEvent))
  else .next (s.discardFlit link flit)

/-- LINK_IDLE_FLIT (R56): credits and LACK. A far end that has nothing else to send has ended its replay (R57). -/
def execLinkIdleFlit (link : Nat) (flit : LinkFlit) (s : State) : Host.Outcome State Fault Refusal :=
  let s := s.countFec link flit
  if !(goodFlit flit) ∨ !s.linkUp link ∨ (flitHead flit).kind ≠ 0 then .next s
  else
    let s := s.updLink link fun l => l.heard (flitHead flit)
    .next (if (s.link link).reqSent then s.askReplay link else s)

/-- REPLAY_REQUEST (R57): go back to LACK + 1; the eighth request in a row without advance retrains the link. -/
def execReplayRequest (link : Nat) (flit : LinkFlit) (s : State) : Host.Outcome State Fault Refusal :=
  let s := s.countFec link flit
  if !(goodFlit flit) ∨ !s.linkUp link ∨ (flitHead flit).kind ≠ 2 then .next s
  else
    let s := s.updLink link fun l => let l := l.heard (flitHead flit); { l with requests := l.requests + 1 }
    if 8 ≤ (s.link link).requests then .next ((s.updLink link fun l => { l with requests := 0 }).push [.linkRetrain link])
    else .next (s.resend link)

/-- LINK_RETRAIN (R57): it lasts at most 300 µs. -/
def execLinkRetrain (link : Nat) (s : State) : Host.Outcome State Fault Refusal :=
  if s.linkUp link then
    let s := ((s.setRfld (.lstat link) 9 3 4).setRfld (.lstat link) 0 1 0).satFld (.lstat link) 22 16 1
    .next (s.updLink link fun l => { l with retrain := some (s.now + 300000), recal := none })
  else .next s

/-- The lanes in use, as a number. -/
def laneCount (lanes : BitVec 8) : Nat := ((List.range 8).filter fun i => lanes.getLsbD i).length

/-- LINK_RETRAIN_COMPLETE (R57): on 8 lanes or 7 the link goes on with a replay; on fewer it is down. -/
def execLinkRetrainComplete (link : Nat) (lanes : BitVec 8) (s : State) : Host.Outcome State Fault Refusal :=
  if s.rfld (.lstat link) 9 3 = 4 then
    let n := laneCount lanes
    let s := (s.updLink link fun l => { l with retrain := none, reqSent := false, owed := false, seen := none }).setRfld (.lstat link) 1 8 lanes.toNat
    if 7 ≤ n then .next (((s.setRfld (.lstat link) 9 3 (if n = 8 then 2 else 3)).setRfld (.lstat link) 0 1 1).resend link)
    else .next (s.push [.linkDown link])
  else .next s

/-- LINK_DOWN (R57, R71): its strands are no longer live; packets that wait there go out on the live ones.
The replay buffer is freed by LACK alone (R57). -/
def execLinkDown (link : Nat) (s : State) : Host.Outcome State Fault Refusal :=
  let s := (s.setRfld (.lstat link) 9 3 0).setRfld (.lstat link) 0 1 0
  let wait := (s.link link).wait
  let s := s.updLink link fun l => { l with wait := [], retrain := none, recal := none }
  .next (wait.foldl (fun s (r, p) => s.onStrand r p) s)

/-- LINK_RETURN (R71): a link that was down carries flits again. -/
def execLinkReturn (link : Nat) (s : State) : Host.Outcome State Fault Refusal :=
  if s.linkUp link then .next s
  else .next (((s.setRfld (.lstat link) 9 3 2).setRfld (.lstat link) 0 1 1).setRfld (.lstat link) 1 8 0xff)

/-! ## The receiving side of a flow (R61, R63, R65, R66) -/

/-- Drop a packet with reason code 7 (R61). -/
def State.dropLink (s : State) (p : SysPkt) : State := s.logDrop 0 63 0 p.cls 0 0 p.srt p.sep 7

/-- Whether a packet that arrives names this device and a valid route entry (R61). -/
def State.arrives (s : State) (p : SysPkt) : Bool := p.ddev == s.devId && s.rteValid p.route

/-- The receiving side of a packet's flow, opened at its first packet. -/
def State.rxFlow (s : State) (p : SysPkt) : Nat × RxFlow × State :=
  match s.lodra.rx.find? fun (_, f) => f.route == p.route && f.sdev == p.sdev && f.srt == p.srt && f.sep == p.sep && f.cls == p.cls with
  | some (k, f) => (k, f, s)
  | none => (s.stamp, { route := p.route, sdev := p.sdev, srt := p.srt, sep := p.sep, cls := p.cls }, s.bump)

def State.setRx (s : State) (k : Nat) (f : RxFlow) : State := { s with lodra := { s.lodra with rx := s.lodra.rx.put k f } }

/-- A packet back to a flow's source, which finds its request by the flow and the SEQ. -/
def State.respond (s : State) (f : RxFlow) (seq op : Nat) (data : Bytes) : State :=
  s.onStrand f.route { ddev := f.sdev, sdev := s.devId, srt := f.srt, sep := f.sep, route := s.rteRidx f.route, cls := f.cls
                       fm := false, seq, op, addr := 0, akq := false, data }

/-- When the oldest of some packets performed. -/
def oldestOf (ps : List (Nat × Nat)) : Option Nat := leastBy id (ps.map Prod.snd)

/-- Send the cumulative acknowledgement of a flow (R66). Packets that have performed above a gap stay unacknowledged. -/
def State.sendAck (s : State) (k : Nat) : State :=
  match s.lodra.rx.find k with
  | none => s
  | some f =>
    let s := s.onStrand f.route { ddev := f.sdev, sdev := s.devId, srt := f.srt, sep := f.sep, route := s.rteRidx f.route
                                  cls := f.cls, fm := false, seq := 0, op := 0x30, addr := (f.acked + 2 ^ 24 - 1) % 2 ^ 24, akq := false, data := [] }
    let oldest := oldestOf f.performed
    s.setRx k { f with sinceAck := 0, oldest, told := f.acked, timed := oldest.any fun t => decide (t + 1000 ≤ s.now) }

/-- Move past the packets that have performed in SEQ order. -/
def RxFlow.cover (f : RxFlow) : Nat → RxFlow
  | 0 => f
  | n + 1 => if f.performed.any fun e => e.1 == f.acked then
      ({ f with acked := (f.acked + 1) % 2 ^ 24, performed := f.performed.filter fun e => e.1 != f.acked } : RxFlow).cover n else f

/-- A packet of a flow has performed (R66): an acknowledgement goes out at once when it asks for one, or when it
is the sixteenth. -/
def State.rxDone (s : State) (k seq : Nat) (akq : Bool) : State :=
  match s.lodra.rx.find k with
  | none => s
  | some f =>
    let f := ({ f with performed := f.performed ++ [(seq, s.now)] } : RxFlow)
    let f := f.cover f.performed.length
    let f := { f with sinceAck := f.sinceAck + 1, oldest := some (f.oldest.getD s.now) }
    let s := s.setRx k f
    if akq ∨ 16 ≤ f.sinceAck then s.sendAck k else s

/-- The bytes that a remote request touches, from its address: a line, or an atomic's operand. -/
def reqSpan (p : SysPkt) : Nat := if p.op = 4 ∨ p.op = 5 then atomSize (leOf (p.data.take 2)) else 128

/-- The right that a remote request needs (R63): 1 read, 2 write, 3 both. -/
def sysNeed (p : SysPkt) : Nat := if p.op ≤ 1 ∨ p.op = 6 then 1 else if p.op = 4 then 3 else 2

/-- Hand a delivered request to the grid, or answer it with an access fault (R63). One of a reserved on-chip type is dropped with
reason 5 where it would be delivered, and its SEQ counts as performed (log 112). -/
def State.deliver (s : State) (k : Nat) (f : RxFlow) (p : SysPkt) : State :=
  let ctx := s.rteLctx f.route
  let pa := match s.liveLease ctx p.addr (reqSpan p) (sysNeed p) with | some _ => s.translate ctx p.addr | none => none
  if 6 < p.op then (s.logDrop 0 63 0 p.cls 0 0 p.srt p.sep 5).rxDone k p.seq p.akq
  else match pa with
  | none => (s.respond f p.seq 0x13 [3]).rxDone k p.seq p.akq
  | some pa =>
    let sl := sliceOfChannel (channelOf pa)
    let aop := leOf (p.data.take 2)
    let q : Pkt :=
      { op := p.op, drt := sliceRtr sl, dep := slicePort sl, srt := sliceRtr sl, sep := 15, part := s.ctxPart ctx, ctx, cls := p.cls
        fm := p.fm, seq := p.seq, addr := pa, va := p.addr, data := BitVec.ofNat 1024 (leOf (p.data.take 128))
        mask := if p.op = 2 then wholeMask else BitVec.ofNat 128 (leOf ((p.data.drop 128).take 16)), aop
        lanes := if p.op = 4 ∨ p.op = 5 then [{ lane := 0, addr := p.addr, x := BitVec.ofNat 64 (leOf ((p.data.drop 2).take 8))
                                                y := BitVec.ofNat 64 (leOf ((p.data.drop 10).take 8)) }] else []
        stage := .net (sliceRtr sl), born := s.now, arr := s.stamp, came := s.now }
    { s.bump with
      pkts := s.pkts.put s.stamp q
      lodra := { s.lodra with serving := s.lodra.serving.put s.stamp (k, p.seq, p.akq) } }

/-- Steps that deliver a whole reorder buffer (R64): two for each packet. -/
def reorderSteps : Nat := 2 * 8192 + 2

/-- Deliver a packet of a flow, and the held packets that become next (R65). -/
def State.reorder (s : State) (k : Nat) : Nat → State
  | 0 => s
  | n + 1 =>
    match s.lodra.rx.find k with
    | none => s
    | some f =>
      if f.marks.contains f.next then
        (s.setRx k { f with next := (f.next + 1) % 2 ^ 24, marks := f.marks.erase f.next }).reorder k n
      else match f.held.find? fun q => q.seq == f.next with
        | some q =>
          let f := { f with held := f.held.filter (fun x => x != q), marks := f.marks ++ [q.seq] }
          ((s.setRx k f).deliver k f q).reorder k n
        | none => s

/-! ## The sending side of a flow (R64, R66, R67) -/

/-- Change a request of a flow; a request that is acknowledged and answered is over. -/
def State.updReq (s : State) (k seq : Nat) (f : TxReq → TxReq) : State :=
  { s with lodra := { s.lodra with tx := s.lodra.tx.upd k fun t =>
    { t with reqs := (mapIf (fun r => r.seq == seq) f t.reqs).filter fun r => !r.over } } }

/-- Whether an operation's remote requests are answered by data alone. -/
def OpKind.answered : OpKind → Bool
  | .load _ _ | .loadQ _ _ | .uload _ | .dload _ | .aldq _ | .fill | .copyRead | .collRead => true
  | _ => false

/-- A response to a remote request (R55, R63); a word of it that came to the core poisoned is a data-integrity fault (R34). -/
def State.remoteAnswer (s : State) (p : SysPkt) (poison : BitVec 16) : State :=
  match s.txFind p.route p.srt p.sep p.cls with
  | none => s
  | some (k, f) =>
    match f.reqs.find? fun r => r.seq == p.seq with
    | none => s
    | some r =>
      if p.op = 0x13 then
        let cls := match p.data with | c :: _ => c.toNat | [] => 3
        let va := match s.ops.find r.op with
          | some o => (o.lanes.find? fun l => l.lane == r.item || l.addr / 128 == r.item).elim 0 LaneAcc.addr
          | none => 0
        (s.updReq k p.seq fun r => { r with waits := false, op := 0 }).pktFail r.op cls (BitVec.ofNat 64 va) 0
      else if !r.waits then s
      else
        let s := s.updReq k p.seq fun r => { r with waits := false }
        if p.op = 0x10 then s.bindLine r.op r.item (BitVec.ofNat 1024 (leOf p.data)) poison
        else if poison ≠ 0 then s.pktFail r.op 6 (BitVec.ofNat 64 r.item) 0
        else
          let s := { s with ops := s.ops.upd r.op fun o => { o with olds := o.olds.put r.item (BitVec.ofNat 64 (leOf p.data)) } }
          if r.acked then s.pktDone r.op else s

/-- A response from a link enters the grid at the gateway of its core's router (R37). The request that an access fault answers
waits for it, though its acknowledgement may overtake it in the grid (R63). -/
def State.answerIn (s : State) (p : SysPkt) : State :=
  match s.txFind p.route p.srt p.sep p.cls with
  | none => s
  | some (k, f) =>
    match (f.reqs.find? fun r => r.seq == p.seq).bind fun r => (s.ops.find r.op).map fun o => (r, o) with
    | some (r, o) => (if p.op = 0x13 then s.updReq k p.seq fun r => { r with waits := true } else s).byGateway o r.op p.route p false
    | none => s.remoteAnswer p 0

/-- REMOTE_REQUEST (R61, R63, R65): a packet of a flow is checked against its route entry and delivered once, in
its flow's order. -/
def execRemoteRequest (p : SysPkt) (s : State) : Host.Outcome State Fault Refusal :=
  if 0x20 ≤ p.op then .next (s.logDrop 0 63 0 p.cls 0 0 p.srt p.sep 5)
  else if !s.arrives p then .next (s.dropLink p)
  else if 0x10 ≤ p.op ∧ p.op ≤ 0x13 then .next (s.answerIn p)
  else if s.rtePeer p.route ≠ p.sdev ∨ s.rteCls p.route ≠ p.cls then .next (s.dropLink p)
  else
    let (k, f, s) := s.rxFlow p
    if s.rteRobn p.route ≤ smod p.seq f.next ∨ f.marks.contains p.seq ∨ f.held.any (fun q => q.seq == p.seq) then .next s
    else if p.fm then
      let f := { f with marks := f.marks ++ [p.seq] }
      .next (((s.setRx k f).deliver k f p).reorder k reorderSteps)
    else .next ((s.setRx k { f with held := f.held ++ [p] }).reorder k reorderSteps)

/-- Whether an ACK that names SEQ a covers a request: the request is at or before it, and stands on the same side of the flow's
base. An ACK from after an FRESET says nothing of the requests before it, which the far end discarded (R66, R67). -/
def TxFlow.covers (f : TxFlow) (a seq : Nat) : Bool :=
  decide (smod a seq < 2 ^ 23) && (decide (smod seq f.base < 2 ^ 23) || !decide (smod a f.base < 2 ^ 23))

/-- ACK (R66): every request of the flow up to the named SEQ has performed. -/
def execAck (p : SysPkt) (s : State) : Host.Outcome State Fault Refusal :=
  if !s.arrives p then .next (s.dropLink p)
  else match s.txFind p.route p.srt p.sep p.cls with
  | none => .next s
  | some (k, f) =>
    let hit := f.reqs.filter fun r => !r.acked && f.covers p.addr r.seq
    .next (hit.foldl (fun s r =>
      let s := s.updReq k r.seq fun r => { r with acked := true }
      match s.ops.find r.op with
      | some o => if o.kind.answered ∨ r.waits then s else s.pktDone r.op
      | none => s) s)

/-- ACK_TIMER (R66): 1 µs after the oldest unacknowledged packet of a flow performed. -/
def execAckTimer (flow : Nat) (s : State) : Host.Outcome State Fault Refusal :=
  match s.lodra.rx.find flow with
  | none => .next s
  | some f => match f.oldest with
    | some t => if t + 1000 ≤ s.now ∧ (!f.timed ∨ f.acked ≠ f.told) then .next (s.sendAck flow) else .next s
    | none => .next s

/-- FRESET (R65, R67): the flow's base moves; held packets go and every mark clears. What the grid still serves of the flow is
neither answered nor acknowledged any more. -/
def execFreset (p : SysPkt) (s : State) : Host.Outcome State Fault Refusal :=
  if !s.arrives p then .next (s.dropLink p)
  else
    let (k, f, s) := s.rxFlow p
    let b := p.addr % 2 ^ 24
    let stale (v : Nat × Nat × Bool) : Nat × Nat × Bool := if v.1 = k then (0, v.2) else v
    let s := { s with lodra := { s.lodra with serving := s.lodra.serving.map fun (i, v) => (i, stale v) } }
    .next (s.setRx k { f with next := b, marks := [], held := [], performed := [], acked := b, sinceAck := 0, oldest := none, told := b, timed := false })

/-! ## Collectives (R72 to R74, R356) -/

/-- Change the group that issued a collective, in its slot or in its team's saved state (R74). -/
def State.collGroup (s : State) (c : Coll) (f : Group → Group) : State :=
  match s.group? c.core c.slot with
  | some g => if g.gen = c.gen ∧ g.team = c.team then s.updGroup c.core c.slot f else saved
  | none => saved
where
  saved : State := s.updTeam c.team fun t => match t.saved with
    | some v => { t with saved := some { v with groups := v.groups.map fun (sl, g) => (sl, if sl = 64 * c.core + c.slot ∧ g.gen = c.gen then f g else g) } }
    | none => t

/-- End a collective; its flag falls, and a fault is raised late (R73, R337). -/
def State.endColl (s : State) (k : Nat) (c : Coll) (fault : Option (Nat × Nat)) : State :=
  let s := match c.xfer with | some (.read id _) => s.dropOp id | _ => s
  ({ s with lodra := { s.lodra with colls := s.lodra.colls.erase k } } : State).collGroup c fun g =>
    let g := match c.flag with | some f => g.subFlag f | none => g
    match fault with
    | some (cls, det) => { g with late := g.late ++ [{ cls, path := c.path, pid := c.pid, pc := c.pc, va := 0, detail := det }] }
    | none => g

/-- The instances of a job of the context that a packet's route belongs to. -/
def State.collsOf (s : State) (p : SysPkt) : List (Nat × Coll) :=
  s.lodra.colls.filter fun (_, c) => c.ctx == s.rteLctx p.route && c.job == p.addr % 2 ^ 16

/-- The instance number of a packet (R55). -/
def instOf (p : SysPkt) : Nat := p.addr / 2 ^ 16 % 2 ^ 32

/-- When the timer of an instance in WAIT runs out, in ns (R73). -/
def Coll.limit (c : Coll) (own : Nat) : Nat := 1000 * c.hto + if c.coord = own then 0 else 100000

/-- The coordinator sends GO once every peer is hoisted, before the timer reaches HTO (R73). -/
def State.tryGo (s : State) (k : Nat) : State :=
  match s.lodra.colls.find k with
  | none => s
  | some c =>
    if c.st = .wait ∧ c.coord = s.devId ∧ c.timer < c.limit s.devId ∧ c.hoisted &&& c.peers = c.peers then
      ({ s with lodra := { s.lodra with colls := s.lodra.colls.put k { c with st := .run, ranAt := s.now } } } : State).tellPeers c 0x32 0
    else s

/-- HOIST (R73), at the coordinator: count the peer, or abort an instance of the same tag and another number. One that matches
an instance in WAIT leaves another instance of its tag there: the model's choice (log 112). -/
def execHoist (p : SysPkt) (s : State) : Host.Outcome State Fault Refusal :=
  if !s.arrives p then .next (s.dropLink p)
  else
    let mine := (s.collsOf p).filter fun (_, c) => c.st == .wait && c.coord == s.devId && c.peers.getLsbD p.sdev
    match mine.find? fun (_, c) => c.inst == instOf p with
    | some (k, c) =>
      .next (({ s with lodra := { s.lodra with colls := s.lodra.colls.put k { c with hoisted := c.hoisted ||| (1#64 <<< p.sdev) } } } : State).tryGo k)
    | none =>
      .next (mine.foldl (fun s (k, c) => (s.tellPeers c 0x33 2).endColl k c (some (10, 0))) s)

/-- GO (R73), before the timer has run out. -/
def execGo (p : SysPkt) (s : State) : Host.Outcome State Fault Refusal :=
  if !s.arrives p then .next (s.dropLink p)
  else match (s.collsOf p).find? fun (_, c) => c.inst == instOf p && c.st == .wait && c.coord != s.devId && decide (c.timer < c.limit s.devId) with
  | some (k, c) => .next { s with lodra := { s.lodra with colls := s.lodra.colls.put k { c with st := .run, ranAt := s.now } } }
  | none => .next s

/-- ABORT (R73): a collective-aborted fault, with the reason. -/
def execAbort (p : SysPkt) (s : State) : Host.Outcome State Fault Refusal :=
  if !s.arrives p then .next (s.dropLink p)
  else match (s.collsOf p).find? fun (_, c) => c.inst == instOf p && c.st == .wait && c.coord != s.devId with
  | some (k, c) => .next (s.endColl k c (some (11, p.addr / 2 ^ 48 % 16)))
  | none => .next s

/-- WITHDRAW (R74): the coordinator no longer counts the peer. -/
def execWithdraw (p : SysPkt) (s : State) : Host.Outcome State Fault Refusal :=
  if !s.arrives p then .next (s.dropLink p)
  else match (s.collsOf p).find? fun (_, c) => c.inst == instOf p && c.st == .wait && c.coord == s.devId with
  | some (k, c) => .next { s with lodra := { s.lodra with colls := s.lodra.colls.put k { c with hoisted := c.hoisted &&& ~~~(1#64 <<< p.sdev) } } }
  | none => .next s

/-- HOIST_TIMEOUT (R73). -/
def execHoistTimeout (coll : Nat) (s : State) : Host.Outcome State Fault Refusal :=
  match s.lodra.colls.find coll with
  | none => .next s
  | some c =>
    if c.st = .wait ∧ c.limit s.devId ≤ c.timer then
      let s := if c.coord = s.devId then s.tellPeers c 0x33 1 else s
      .next (s.endColl coll c (some (9, 0)))
    else .next s

/-- FLOW_TIMEOUT (R67, R73): a remote request without an ACK within FTO ends with a network fault and an FRESET
to the next SEQ; a collective whose transfer times out aborts. -/
def execFlowTimeout (pkt : Nat) (s : State) : Host.Outcome State Fault Refusal :=
  match s.lodra.tx.find pkt, s.lodra.colls.find pkt with
  | some f, _ =>
    let due := fun (r : TxReq) => !r.acked && decide (r.issued + 1000 * s.rfld .lcfg 16 24 ≤ s.now)
    let late := f.reqs.filter due
    if late.isEmpty then .next s
    else
      let s := late.foldl (fun s r => s.pktFail r.op 5 0 0) s
      let s := { s with lodra := { s.lodra with tx := s.lodra.tx.upd pkt fun f =>
        { f with base := f.next, reqs := f.reqs.filter fun r => !due r } } }
      .next (s.onStrand f.route { ddev := s.rtePeer f.route, sdev := s.devId, srt := f.srt, sep := f.sep, route := s.rteRidx f.route
                                  cls := f.cls, fm := false, seq := 0, op := 0x35, addr := f.next, akq := false, data := [] })
  | none, some c => if c.st = .run ∧ c.ranAt + 1000 * s.rfld .lcfg 16 24 ≤ s.now then .next ((s.tellPeers c 0x33 3).endColl pkt c (some (11, 3))) else .next s
  | none, none => .next s

/-- Pairwise sum or maximum of two elements of a collective (R356). -/
def collOp (ty op a b : Nat) : Nat :=
  let mx := decide (op = 2)
  match ty with
  | 0 => (if mx then fp32.minMax true (BitVec.ofNat 32 a) (BitVec.ofNat 32 b) else fp32.add 0 (BitVec.ofNat 32 a) (BitVec.ofNat 32 b) : W32).toNat
  | 1 => (if mx then bf16.minMax true (BitVec.ofNat 16 a) (BitVec.ofNat 16 b) else bf16.add 0 (BitVec.ofNat 16 a) (BitVec.ofNat 16 b) : BitVec 16).toNat
  | 2 => (if mx then fp16.minMax true (BitVec.ofNat 16 a) (BitVec.ofNat 16 b) else fp16.add 0 (BitVec.ofNat 16 a) (BitVec.ofNat 16 b) : BitVec 16).toNat
  | _ => (if mx then maxS (BitVec.ofNat 32 a) (BitVec.ofNat 32 b) else BitVec.ofNat 32 a + BitVec.ofNat 32 b : W32).toNat

/-- Elementwise combination of two buffers. -/
def collCombine (ty op n : Nat) (a b : Bytes) : Bytes :=
  let z := collSize ty
  (List.range n).flatMap fun i => bytesLE z (collOp ty op (leOf ((a.drop (z * i)).take z)) (leOf ((b.drop (z * i)).take z)))

/-- Combine the buffers of the peers, one after another. -/
def collReduce (ty op n : Nat) : List Bytes → Bytes
  | [] => []
  | b :: bs => bs.foldl (collCombine ty op n) b

/-- What RECV holds (R356), from every peer's SEND in peer order. -/
def Coll.result (c : Coll) (own free : Nat) (sends : List (Nat × Bytes)) : Bytes :=
  let n := sends.length
  let sum := collReduce c.ty c.op c.count (chosenOrder free n (sends.map Prod.snd))
  let place := (sends.filter fun e => e.1 < own).length
  let part := c.count / n * collSize c.ty
  match c.op with
  | 0 => match sends.find? fun e => e.1 == c.root with | some e => e.2 | none => []
  | 1 | 2 => sum
  | 3 => sends.flatMap Prod.snd
  | _ => (sum.drop (part * place)).take part

/-- Whether a buffer has come from every other peer. -/
def Coll.allIn (c : Coll) (own : Nat) (parts : Parts) : Bool := (peersOf c.peers).all fun d => d == own || parts.any fun e => e.1 == d

/-- Whether every buffer has the length that the descriptor gives: where one has not, the peers' descriptors differ (R356). -/
def Coll.agree (c : Coll) (sends : Parts) : Bool := sends.all fun e => e.2.length == c.count * collSize c.ty

/-- The bytes of RECV. -/
def Coll.recvLen (c : Coll) : Nat := collRecvCount c.op c.count (peersOf c.peers).length * collSize c.ty

/-- What the instance writes to RECV. Where the peers' descriptors differ each byte is a free choice between what it held and
what the buffers that came give (R356). -/
def State.collWrites (s : State) (own : Nat) (c : Coll) (sends : Parts) : List GateReq :=
  let bs := c.result own s.free sends
  let rs := gateWrites c.recv.toNat (bs.take c.recvLen)
  if c.agree sends then rs
  else rs.map fun r =>
    let m := r.mask &&& BitVec.ofNat 128 (Config.choice ((s.free + 1) * 2 ^ 66 + r.va))
    { r with code := 3, mask := m }

/-- The operation of a collective's transfers (R356): the collective engine is no core's, but its writes are seen as those of
the core that issued it (R188). -/
def Coll.xferOp (c : Coll) (kind : OpKind) (va n : Nat) (pages : List Nat) : Op :=
  { core := c.core, slot := c.slot, gen := c.gen, path := c.path, pid := c.pid, pc := c.pc, ctx := c.ctx, team := c.team, kind
    lanes := [{ lane := 0, addr := va }], size := n, pages }

def State.setXfer (s : State) (k : Nat) (x : CollXfer) : State :=
  { s with lodra := { s.lodra with colls := s.lodra.colls.upd k fun c => { c with xfer := some x } } }

/-- COLLECTIVE_COMPLETE (R37, R73, R356): the next step of an instance in RUN. Once a buffer has come from every peer (log 92) SEND
is read, then RECV is written, both by the gateways of the home slices; then every transfer is acknowledged, and the
completion flag falls, in the team's saved state if it is off the core (R74). -/
def execCollectiveComplete (coll : Nat) (parts : Parts) (s : State) : Host.Outcome State Fault Refusal :=
  match s.lodra.colls.find coll with
  | none => .next s
  | some c =>
    let len := c.count * collSize c.ty
    if c.st ≠ .run then .next s
    else match c.xfer with
    | none =>
      if s.performed c.acqOps ∧ c.allIn s.devId parts then
        .next ((s.setXfer coll (.read s.stamp parts)).startGate (c.xferOp .collRead c.send.toNat len []) (s.gateReads c.ctx c.send.toNat len))
      else .next s
    | some (.read id parts) =>
      match s.ops.find id with
      | none => .next (s.endColl coll c (some (5, 0)))
      | some o =>
        if o.left ≠ 0 then .next s
        else match o.fail with
        | some (cls, _, det) => .next ((s.dropOp id).endColl coll c (some (cls, det)))
        | none =>
          let sends := (peersOf c.peers).map fun d =>
            (d, if d = s.devId then o.bytes c.send.toNat len else match parts.find? fun e => e.1 == d with | some e => e.2 | none => [])
          let s := (s.dropOp id).chose
          .next ((s.setXfer coll (.write s.stamp)).startGate
            (c.xferOp (.collWrite coll) c.recv.toNat c.recvLen (pagesOf c.recv.toNat c.recvLen)) (s.collWrites s.devId c sends))
    | some (.write id) => .next (if (s.ops.find id).isSome then s else s.endColl coll c none)

/-! ## Responses at a core or a gateway (R34, R63, R156, R180) -/

/-- The answer of the grid to a remote request leaves for the flow's source (R63). -/
def State.serveDone (s : State) (id : Nat) (p : Pkt) (v : Nat × Nat × Bool) : State :=
  let (k, seq, akq) := v
  let s := { s.dropPkt id with lodra := { s.lodra with serving := s.lodra.serving.erase id } }
  match s.lodra.rx.find k with
  | none => s
  | some f =>
    let s := if p.poison ≠ 0 then s.respond f seq 0x13 [6]
      else if p.op = 0x10 then s.respond f seq 0x10 (bytesLE 128 p.data.toNat)
      else if p.op = 0x12 then s.respond f seq 0x12 (bytesLE 8 (match p.lanes with | l :: _ => l.x.toNat | [] => 0))
      else s
    s.rxDone k seq akq

/-- A response that has come to its core, from the grid or from a link, or to the gateway for a remote flow. -/
def State.atCore (s : State) (id op : Nat) (f : Pkt → State) : Host.Outcome State Fault Refusal :=
  match s.pkts.find id with
  | none => .next s
  | some p =>
    if p.stage = .core ∧ p.op = op then
      match s.lodra.serving.find id, p.sys with
      | some v, _ => .next (s.serveDone id p v)
      | none, some (_, q) => .next ((s.dropPkt id).remoteAnswer q p.poison)
      | none, none => .next (f p)
    else .next s

/-- READ_DATA (R34, R156, R180). -/
def execReadData (pkt : Nat) (s : State) : Host.Outcome State Fault Refusal := s.atCore pkt 0x10 (s.takeData pkt)

/-- WRITE_ACKNOWLEDGEMENT (R156, R180). -/
def execWriteAcknowledgement (pkt : Nat) (s : State) : Host.Outcome State Fault Refusal := s.atCore pkt 0x11 (s.takeAck pkt)

/-- ATOMIC_RESULT (R180). -/
def execAtomicResult (pkt : Nat) (s : State) : Host.Outcome State Fault Refusal := s.atCore pkt 0x12 (s.takeOld pkt)

/-- ACCESS_FAULT (R63, R337): the requester's group takes the fault. -/
def execAccessFault (pkt : Nat) (s : State) : Host.Outcome State Fault Refusal :=
  s.atCore pkt 0x13 fun p => (s.dropPkt pkt).pktFail p.opId 3 (BitVec.ofNat 64 p.va) 0

end Sys2Proof.Machine
end

