-- ==== Sys2Proof/Machine/Servers.lean ====
section
/-! DEFINITION. Server instances at their engines: backlog, arbitration, charges and release (R36, R52, R56, R58,
R95 to R102, R126, R127), and the events that make a parked path ready again (R198, R253). -/

namespace Sys2Proof.Machine

/-! ## What a parked path waits for (R198) -/

/-- Whether what a path's next instruction awaits has come about. -/
def IssueCtx.comeAbout (x : IssueCtx) (a : Await) : Bool :=
  let core := x.s.core x.c.core
  let freeBank := [0, 1].any fun h => let b : Bank := core.banks.get {} h; b.team.isNone && b.q.isEmpty
  match a with
  | .vreg n => !x.vPending n
  | .cvt n => !x.cvtPending n
  | .sreg n => !x.sPending n
  | .dreg n => !x.dPending n
  | .dpipes => !(x.g.dpipe.any fun w => x.p.past.contains w.id)
  | .store op => (x.s.ops.find op).isNone
  | .ctrRoom c => decide (x.g.ctr c < 255)
  | .flagRoom f => decide (x.g.flag f < 255)
  | .token t => let tok := x.g.tokens.get {} t; !tok.out || x.p.fwait.any fun f => f.2 != tok.bound
  | .busy n => !(x.g.mbSend n).busy
  | .msg q => (core.recvQ q).mine x.c.slot
  | .qData q n => decide (n ≤ (x.g.queue q).len)
  | .qRoom q => (x.g.queue q).room x.d.qdepth
  | .bankFree => freeBank
  | .bankQueue => (match x.s.bankOf x.c.core x.g.team with | some (_, b) => b.full.isNone | none => true)
  | .copySlot => core.freeCopySlot.isSome
  | .pool => x.s.poolFits x.c.core x.g.wc x.d.vext
  | .place => core.canPlace x.c.slot x.g.wc
  | .extIdle => !((List.range x.d.vext).any fun i => x.vPending (x.d.vbase + i))
  | .barPhase b ph => (match x.s.team? x.g.team with | some t => (t.bar b).phase != ph | none => true)
  | .spLine ln => !((x.s.team? x.g.team).any fun t => t.lineFilling ln)
  | .spRange lo n => !x.s.spBusy x.g.team lo n
  | .collRoom => decide ((x.s.lodra.colls.filter fun (_, c) => c.team == x.g.team).length < 2)
  | .desc => x.p.desc != some CollDesc.reading
  | .slewGrant => x.s.vectorResv x.c.core x.g.quarter

/-- A path of a group as an issue context. -/
def State.issueCtx (s : State) (core slot path : Nat) (g : Group) : IssueCtx :=
  { s, c := { core, slot, path }, g, p := g.path path, gr := s.grid g.grid }

/-- The paths of a group whose awaited event has come about. -/
def State.wakeable (s : State) (core slot : Nat) (g : Group) : List Nat :=
  (List.range 8).filter fun i =>
    match (g.path i).park, (g.path i).wait with
    | some a, _ => (s.issueCtx core slot i g).comeAbout a
    | none, .counter c thr ids _ => decide (g.ctrOf c ids ≤ thr)
    | none, _ => false

/-- A path whose awaited event has come about: its instruction issues, or, if it is a WAITC, retires, and may be a safe point
(R131, R198, R346). -/
def State.unpark (s : State) (core slot i : Nat) (g : Group) : State :=
  match (g.path i).wait with
  | .counter _ _ _ true =>
    s.updGroup core slot fun g => { g.updPath i fun p => { p.step 8 2 with wait := .none } with
      atSafe := some (BitVec.ofNat 32 (s.virtRead g.ctx ((g.path i).pc.toNat + 4) 4)) }
  | .counter .. => s.updPath core slot i Path.wake
  | _ => s.updPath core slot i fun p => { p with park := none }

/-- GROUP_UNPARK (R198): the paths whose awaited event has come about are ready again. -/
def execGroupUnpark (core slot : Nat) (s : State) : Host.Outcome State Fault Refusal :=
  match s.group? core slot with
  | none => .next s
  | some g => if g.stopped then .next s else .next ((s.wakeable core slot g).foldl (fun s i => s.unpark core slot i g) s)

/-- Whether the WAIT test of a path's clause passes (R262, R263). -/
def Group.clauseOpen (g : Group) (p : Path) : Bool := (List.range 12).all fun k => !p.waitMask.getLsbD k || g.flag k == 0

/-- CLAUSE_ENTRY (R262, R263): no flag of the clause's WAIT mask is pending, and the clause begins. -/
def execClauseEntry (core slot path : Nat) (s : State) : Host.Outcome State Fault Refusal :=
  match s.group? core slot with
  | none => .next s
  | some g =>
    let p := g.path path
    if p.valid ∧ p.entry ∧ g.clauseOpen p then .next (s.updPath core slot path fun p => { p with entry := false, waitMask := 0 })
    else .next s

/-! ## Issue (R126, R127, R141, R250) -/

/-- Compute runs in READY alone (R15). -/
def State.running (s : State) : Bool := s.rfld .bstat 0 3 == 4

/-- The path of a group that issues next: the oldest ready one, unless it has had 256 issues in a row (R127). -/
def Group.nextPath (g : Group) : Option Nat :=
  let ready := (List.range 8).filter fun i => (g.path i).ready
  match leastBy (fun i : Nat => (g.path i).born) ready with
  | none => none
  | some i =>
    if (g.path i).run < 256 then some i
    else match leastBy (fun j : Nat => (g.path j).born) (ready.filter (· != i)) with
      | some j => some j
      | none => some i

/-- The group of a context that issues next on a quarter: the fewest issues since its barrier, then the earliest
placed, then the lower number (R126). -/
def State.nextGroup (s : State) (core quarter ctx : Nat) : Option (Nat × Group) :=
  leastBy (fun e => (e.2.issued * 2 ^ 64 + e.2.placed) * 64 + e.2.num)
    ((s.core core).groups.filter fun (_, g) => g.ctx == ctx && g.quarter == quarter && g.readyPath)

/-- The READY instance of an engine with the earliest deadline among those that `p` accepts; ties go to the lower
context, then round robin (R100). -/
def State.earliest (s : State) (cls inst : Nat) (p : Srv → Bool) : Option Srv :=
  leastBy (fun v => (v.d * 512 + v.ctx) * 2 ^ 64 + v.last) (s.srvs.filter fun v => v.cls == cls && v.inst == inst && v.st == .ready && p v)

/-- What a quarter would issue now: slot and path. -/
def State.issueChoice (s : State) (core quarter : Nat) : Option (Nat × Nat) :=
  if !s.running || !s.standing core quarter then none
  else match s.earliest 0 (4 * core + quarter) fun v => (s.nextGroup core quarter v.ctx).isSome with
    | none => none
    | some v =>
      match s.nextGroup core quarter v.ctx with
      | none => none
      | some (sl, g) => g.nextPath.map fun i => (sl, i)

/-- The breakpoint registers that a path about to issue meets (R253), unless it has just been resumed there (R255). -/
def State.breaksAt (s : State) (g : Group) (p : Path) : List Nat :=
  if p.bpSkip == some p.pc || !(s.reg (.dbgcfg g.ctx)).getLsbD 0 then []
  else (List.range 4).filter fun k =>
    let b := s.reg (.dbp g.ctx k)
    b.getLsbD 0 && 2 * fld b 3 52 == p.pc.toNat

/-- The lowest of them. -/
def State.breakAt (s : State) (g : Group) (p : Path) : Option Nat := (s.breaksAt g p).head?

/-! ## Backlog and arbitration (R95, R98 to R101) -/

/-- The copy of a context whose next chunk has its source data and is not charged yet, in round robin (R218). -/
def Core.nextCopy (c : Core) (s : State) (ctx : Nat) : Option (Nat × Copy) :=
  leastBy (fun e => e.2.turn) (c.copies.filter fun (_, y) => y.ctx == ctx && !y.started && y.pos < y.len &&
    match y.read with
    | some id => (s.ops.find id).any fun o => o.left == 0 && o.fail.isNone
    | none => false)

/-- Requests of a route that are in flight: sent and not acknowledged (R64). -/
def State.inFlight (s : State) (r : Nat) : Nat :=
  s.lodra.tx.foldl (fun n (_, f) => if f.route = r then n + (f.reqs.filter fun q => q.sent && !q.acked).length else n) 0

/-- Whether a packet may leave beside `more` requests that leave with it: requests stay within their route's reorder
reservation (R64). -/
def State.mayLeave (s : State) (r : Nat) (p : SysPkt) (more : Nat) : Bool :=
  0x10 ≤ p.op || s.inFlight r + more < (s.lodra.far.find r).getD (s.rteRobn r)

/-- What the next data flit of a link carries (R54): the slots of its body, the packets that begin in it, and the slots
that its last packet leaves for the flit after it. -/
structure FlitPlan where
  cls : Nat
  rsp : Bool
  slots : List (BitVec 128) := []
  taken : List (Nat × SysPkt) := []
  rest : List (BitVec 128) := []
  route : Nat

/-- Put waiting packets into a flit while its body has a free slot. -/
def State.fillFlit (s : State) : List (Nat × SysPkt) → FlitPlan → FlitPlan
  | [], f => f
  | (r, p) :: more, f =>
    if 15 ≤ f.slots.length then f
    else if s.mayLeave r p (f.taken.filter fun e => e.1 == r && e.2.op < 0x10).length then
      let all := f.slots ++ pktSlotList p
      s.fillFlit more { f with slots := all.take 15, rest := all.drop 15, taken := f.taken ++ [(r, p)], route := r }
    else s.fillFlit more f

/-- The packets of a route's context, class and kind that wait, the route's own before those of other routes. -/
def State.alike (s : State) (l : Link) (route cls : Nat) (rsp : Bool) : List (Nat × SysPkt) :=
  let same := l.wait.filter fun (r, p) => s.rteLctx r == s.rteLctx route && p.cls == cls && isRsp p.op == rsp
  same.filter (fun e => e.1 == route) ++ same.filter fun e => e.1 != route

/-- The next data flit of a route on a link: it goes on with a packet that the flit before left, which no other flit may
part (R54), or begins with the route's first packet, class 0 first; it needs a credit and a place in the replay buffer
(R56, R57). -/
def State.flitPlan (s : State) (link route : Nat) : Option FlitPlan :=
  let l := s.link link
  let begun : Option (Nat × Bool) :=
    if l.txPart.isEmpty then
      let mine := (l.wait.filter fun (r, p) => r == route && s.mayLeave r p 0).map Prod.snd
      match mine.find? fun p => p.cls == 0 with
      | some p => some (p.cls, isRsp p.op)
      | none => mine.head?.map fun p => (p.cls, isRsp p.op)
    else if l.txRoute = route then some (l.txCls, l.txRsp) else none
  match begun with
  | none => none
  | some (cls, rsp) =>
    if 32 ≤ l.used.get 0 (creditKey cls rsp) ∨ 1024 ≤ l.replay.length ∨ s.rfld (.lstat link) 9 3 < 2 ∨
        s.rfld (.lstat link) 9 3 = 4 then none
    else some (s.fillFlit (s.alike l route cls rsp) { cls, rsp, slots := l.txPart.take 15, rest := l.txPart.drop 15, route })

/-- The copy unit whose server a context's COPYHs are charged to: its first (R88). -/
def State.copyhCore (s : State) (ctx : Nat) : Option Nat := leastBy id ((s.srvs.filter fun v => v.cls == 2 && v.ctx == ctx).map Srv.inst)

/-- The COPYH of a context whose chunk waits for a copy unit. -/
def State.copyhNext (s : State) (core ctx : Nat) : Option (Nat × Cmd) :=
  if s.copyhCore ctx = some core then s.sched.cmds.find? fun (_, c) => c.ctx == ctx && c.phase == .ready else none

/-- Whether an instance is backlogged (before R99). -/
def State.backlogged (s : State) (v : Srv) : Bool :=
  match v.cls with
  | 0 => s.issueBacklog (v.inst / 4) (v.inst % 4) v.ctx && s.standing (v.inst / 4) (v.inst % 4)
  | 1 => (s.core v.inst).banks.any fun (_, b) => (b.q.head?.any fun m => m.ctx == v.ctx) && s.tileOperands v.inst b
  | 2 => ((s.core v.inst).nextCopy s v.ctx).isSome || (s.copyhNext v.inst v.ctx).isSome
  | 3 => s.msys.bursts.any fun b => b.chan == v.inst && b.ctx == v.ctx
  | _ => (s.flitPlan v.inst v.route).isSome

/-- SERVER_WAKE (R99): backlog appears while the instance is IDLE. -/
def execServerWake (srv : SrvRef) (s : State) : Host.Outcome State Fault Refusal :=
  match s.srv? srv.cls srv.inst srv.ctx srv.route with
  | none => .next s
  | some v => if v.st = .idle ∧ s.backlogged v then .next (s.putSrv (v.wake s.now)) else .next s

/-- UNIT_END (R99): an instance whose unit has left the engine, or whose backlog went while it was READY: IDLE is not
backlogged (log 95). -/
def execUnitEnd (srv : SrvRef) (s : State) : Host.Outcome State Fault Refusal :=
  match s.srv? srv.cls srv.inst srv.ctx srv.route with
  | none => .next s
  | some v =>
    let on := match v.cls with
      | 1 => (s.core v.inst).banks.any fun (_, b) => b.started && b.q.head?.any fun m => m.ctx == v.ctx
      | 2 => (s.core v.inst).copies.any fun (_, y) => y.started && y.ctx == v.ctx
      | _ => false
    if v.st = .run ∧ !on then .next (s.putSrv (v.endUnit s.now (s.backlogged v)))
    else if v.st = .ready ∧ !s.backlogged v then .next (s.putSrv { v with st := .idle })
    else .next s

/-- CAPPED_RELEASE (R99, R101): the release time has come. -/
def execCappedRelease (srv : SrvRef) (s : State) : Host.Outcome State Fault Refusal :=
  match s.srv? srv.cls srv.inst srv.ctx srv.route with
  | none => .next s
  | some v =>
    if v.st = .capped ∧ v.r ≤ s.now then .next (s.putSrv { v with st := if s.backlogged v then .ready else .idle }) else .next s

/-- Charge a granted instance for its unit. -/
def State.grantSrv (s : State) (v : Srv) (a b n : Nat) : State :=
  s.bump.chargeSrv { v with last := s.stamp } a b n

/-- End the unit of an instance at once, where the engine's step is one event. -/
def State.endSrv (s : State) (v : Srv) : State :=
  match s.srv? v.cls v.inst v.ctx v.route with
  | some v => s.putSrv (v.endUnit s.now (s.backlogged v))
  | none => s

/-- Whether an engine is running a unit. -/
def State.engineBusy (s : State) (cls inst : Nat) : Bool := s.srvs.any fun v => v.cls == cls && v.inst == inst && v.st == .run

/-- The bank of a context whose tile-step starts: the one not granted last, if both could (R100). -/
def State.bankChoice (s : State) (core ctx : Nat) : Option (Nat × Bank) :=
  let c := s.core core
  let ok := c.banks.filter fun (_, b) => (b.q.head?.any fun m => m.ctx == ctx) && s.tileReady core b
  match ok.find? fun (h, _) => h != c.lastBank with
  | some e => some e
  | none => ok.head?

/-- A tile-step starts: it is charged M × N / 256 core cycles (R95, R364). -/
def State.grantTile (s : State) (core : Nat) : State :=
  match s.earliest 1 core fun v => (s.bankChoice core v.ctx).isSome with
  | none => s
  | some v =>
    match s.bankChoice core v.ctx with
    | none => s
    | some (h, b) =>
      let n := match b.q with | m :: _ => m.cycles | [] => 0
      ((s.grantSrv v 10 (17 - s.keff (s.ctxPart v.ctx)) n).updCore core fun c => { c with lastBank := h }).startTile core h

/-- The bytes of a copy's next chunk: to the next 4 KiB boundary of the destination (R350). -/
def Copy.chunk (y : Copy) : Nat := min (y.len - y.pos) (4096 - (y.dst.toNat + y.pos) % 4096)

/-- Whether the copy unit of a core holds its reservation (R141). -/
def State.copyHeld (s : State) (core : Nat) : Bool := 4 ≤ s.heldQuanta .copy core

/-- A chunk starts: it is charged by its bytes (R95, R350). A COPYH's chunk is charged as a copy's (R88); its work is the
host port's, and it holds no current reservation of the copy unit (log 102). -/
def State.grantChunk (s : State) (core : Nat) : State :=
  let held := s.copyHeld core
  match s.earliest 2 core fun v => (held && ((s.core core).nextCopy s v.ctx).isSome) || (s.copyhNext core v.ctx).isSome with
  | none => s
  | some v =>
    match s.copyhNext core v.ctx, (s.core core).nextCopy s v.ctx with
    | some (id, c), _ =>
      let s := s.grantSrv v 1 2 ((c.chunk + 127) / 128)
      ({ s with sched := { s.sched with cmds := s.sched.cmds.upd id fun c => { c with phase := .granted } } } : State).endSrv v
    | none, some (i, y) =>
      ((s.grantSrv v 1 2 ((y.chunk + 127) / 128)).updCore core fun c =>
        { c with copies := c.copies.upd i fun y => { y with started := true } }).slewTake .copy core 0 0
    | none, none => s

/-- Whether a burst belongs to the saving or the restoring of a team, which no server is charged for (R97, R133). -/
def State.ofImage (s : State) (b : Burst) : Bool :=
  match b.pkt.bind s.pkts.find with
  | none => false
  | some p => match s.ops.find p.opId with
    | some o => match o.kind with | .image _ => true | _ => false
    | none => false

/-- A burst is granted its channel (R95); none is while the channel is held for retraining (R21). The scrub engine's bursts
are charged to the management server, as R173 says; R97 would charge them to none (log 90). -/
def State.grantBurst (s : State) (chan : Nat) : State :=
  if s.boot.hbmHeld.any fun h => h.1 == chan then s
  else match s.earliest 3 chan fun v => s.backlogged v with
  | none => s
  | some v =>
    match s.msys.bursts.find? fun b => b.chan == chan && b.ctx == v.ctx with
    | none => s
    | some b => ((if s.ofImage b then s.bump else s.grantSrv v 2 5 1).runBurst b).endSrv v

/-- Mark the requests of a flit's packets as sent. -/
def State.markSent (s : State) (route : Nat) (ps : List SysPkt) : State :=
  let mark (f : TxFlow) : TxFlow :=
    let here (r : TxReq) : Bool := ps.any fun p => p.op < 0x10 && p.srt == f.srt && p.sep == f.sep && p.seq == r.seq
    { f with reqs := mapIf here (fun (r : TxReq) => { r with sent := true }) f.reqs }
  { s with lodra := { s.lodra with tx := s.lodra.tx.map fun (k, f) => (k, if f.route = route then mark f else f) } }

/-- A link that sends a data flit: it keeps the flit for replay, its credit is used, the credits it returns are given, and its
packets wait no longer. -/
def Link.sentFlit (l : Link) (d : DataFlit) (f : FlitPlan) : Link :=
  let k := creditKey f.cls f.rsp
  { l with txSeq := (l.txSeq + 1) % 4096, back := l.back.drop 1, replay := l.replay ++ [d], used := l.used.put k (l.used.get 0 k + 1)
           wait := f.taken.foldl (fun w e => w.erase e) l.wait, txPart := f.rest, txRoute := f.route, txCls := f.cls, txRsp := f.rsp }

/-- A data flit is granted the link: it takes a credit, the next LSEQ and a place in the replay buffer (R54 to
R58). -/
def State.grantFlit (s : State) (link : Nat) : State :=
  match s.earliest 4 link fun v => s.backlogged v with
  | none => s.sendIdle link
  | some v =>
    match s.flitPlan link v.route with
    | none => s
    | some f =>
      let s := s.grantSrv v 1239 1024 1
      let d : DataFlit := { lseq := (s.link link).txSeq, ctx := s.rteLctx v.route, cls := f.cls, rsp := f.rsp, slots := f.slots, credit := (s.link link).back.head? }
      let s := s.updLink link fun l => l.sentFlit d f
      let s := f.taken.foldl (fun s (e : Nat × SysPkt) => s.markSent e.1 [e.2]) s
      (((s.countDevice 19).emit link (buildFlit (d.head (s.link link).rxLack) d.slots)).sendOwed link).endSrv v

/-- The choice of a quarter's issue port (R126); a breakpoint at the path's instruction comes first (R253). -/
def State.grantIssue (s : State) (core quarter : Nat) : State :=
  match s.issueChoice core quarter with
  | none => s
  | some (slot, path) =>
    match s.group? core slot with
    | none => s
    | some g =>
      let s := if 256 ≤ (g.path path).run then s.updPath core slot path fun p => { p with run := 0 } else s
      match s.breakAt g (g.path path) with
      | some _ => s.push [.breakpointMatch core slot path]
      | none => { s with cur := some { core, slot, path } }

/-- ARBITRATION (R100): at a unit boundary of an engine, the READY instance with the earliest deadline is granted
and its unit is charged. -/
def execArbitration (cls inst : Nat) (s : State) : Host.Outcome State Fault Refusal :=
  match cls with
  | 0 => .next (s.grantIssue (inst / 4) (inst % 4))
  | 1 => if s.engineBusy 1 inst then .next s else .next (s.grantTile inst)
  | 2 => if s.engineBusy 2 inst then .next s else .next (s.grantChunk inst)
  | 3 => .next (s.grantBurst inst)
  | 4 => .next (s.grantFlit inst)
  | _ => .next s

/-- BREAKPOINT_MATCH (R253): a path about to issue the instruction at enabled breakpoint registers stops, with what the SCOPE
of each names. -/
def execBreakpointMatch (core slot path : Nat) (s : State) : Host.Outcome State Fault Refusal :=
  match s.group? core slot with
  | none => .next s
  | some g =>
    if (g.path path).ready then
      .next ((s.breaksAt g (g.path path)).foldl (fun s k =>
        s.debugStop core slot path (fld (s.reg (.dbp g.ctx k)) 1 2) 0 (BitVec.ofNat 64 k)) s)
    else .next s

/-! ## Stall reasons (R251) -/

/-- The reason for which a path that is not ready waits, by the order of the table's codes. -/
def Path.reason (p : Path) : Option Nat :=
  if !p.valid || p.ready then none
  else if p.entry then some 5
  else match p.wait, p.park with
  | .counter .., _ => some 5
  | .barrier _, _ => some 6
  | .mem .., _ => some 7
  | .sleep _, _ => some 7
  | .join, _ => none
  | .none, some a =>
    match a with
    | .slewGrant => some 1
    | .ctrRoom _ | .flagRoom _ | .copySlot => some 3
    | .pool | .place => some 4
    | .barPhase _ _ => some 6
    | .qData _ _ | .qRoom _ => some 8
    | .bankFree | .bankQueue => some 9
    | .busy _ | .msg _ => some 10
    | _ => some 5
  | .none, none => none

/-- Whether a step of an MML that the group issued waits for entries of its queues (R369). -/
def State.mmlWaits (s : State) (core : Nat) (g : Group) : Bool :=
  (s.core core).banks.any fun (_, b) => !b.started && !s.tileOperands core b &&
    match b.q with
    | m :: _ => m.kind == .mml && (s.opGroup core m.slot m.gen).any fun h => h.team == g.team && h.num == g.num
    | [] => false

/-- Whether a group is stalled for register allocation (R203, R207, R304): saved values, a returned result, or its extended block
have no place yet. -/
def State.allocWaits (s : State) (core : Nat) (g : Group) : Bool :=
  !g.unplaced.isEmpty || g.waitsPool || s.ops.any fun (_, o) => o.core == core && o.gen == g.gen && o.team == g.team && o.grp == g.num && o.left == 0 && !o.kind.vdests.isEmpty

/-- The rows of the table that apply to a path, or to its group whichever path waits (R251). -/
def State.stallRows (s : State) (core : Nat) (g : Group) (ready : Bool) : List Nat :=
  let on := match s.srv? 0 (4 * core + g.quarter) g.ctx 0 with | some v => v.st == .ready | none => false
  let row (b : Bool) (k : Nat) : List Nat := if b then [k] else []
  row (ready && !on) 0 ++ row (ready && !s.standing core g.quarter) 1 ++ row (s.allocWaits core g) 4

/-- The stall reason of a group (R251): the first row that applies. -/
def State.stallOf (s : State) (core : Nat) (g : Group) : Option Nat :=
  leastBy id (s.stallRows core g g.readyPath ++ (if s.mmlWaits core g then [8] else []) ++ g.paths.filterMap fun p => if p.dstop then none else p.reason)

/-- The stall reason of a path (R251, R258). -/
def State.stallOfPath (s : State) (core : Nat) (g : Group) (p : Path) : Option Nat :=
  leastBy id (s.stallRows core g (p.ready && g.readyPath) ++ p.reason.toList)

end Sys2Proof.Machine
end

