-- ==== Sys2Proof/Machine/Slew.lean ====
section
/-! DEFINITION. The slew controller, clock set-points and temperature (R12, R102 to R104, R141 to R150). -/

namespace Sys2Proof.Machine

/-! ## Admission sums (R103, R150) -/

/-- Utilisation of a budget (R103). -/
def utilisation (q p : Nat) : Nat := if p = 0 then 0 else (1024 * q + p - 1) / p

/-- The class bound (R115). -/
def State.bound (s : State) (cls : Nat) : Nat := s.rfld .svbound (10 * cls) 10

/-- The template that an instance comes from: Q, P, class, HCAP, EN. -/
def State.template (s : State) (cls ctx route : Nat) : W64 := if cls = 4 then s.reg (.svlink route) else s.reg (.svcfg ctx cls)

/-- The instances at an engine. -/
def State.srvsAt (s : State) (cls inst : Nat) : List Srv := s.srvs.filter fun v => v.cls == cls && v.inst == inst && v.ctx != mgmtCtx

/-- A budget at clock step k (R150). -/
def raisedQ (q p k : Nat) : Nat := min p ((17 * q + 16 - k) / (17 - k))

/-- Whether class-0 budgets can be raised at an engine (R150). -/
def State.canRaise (s : State) (cls inst k : Nat) : Bool :=
  (s.srvsAt cls inst).foldl (fun a v =>
    let q := fld (s.template cls v.ctx v.route) 0 24
    a + utilisation (if v.tcls = 0 then raisedQ q v.p k else q) v.p) 0 ≤ s.bound cls

/-- Give an instance a budget (R104). -/
def Srv.setQ (v : Srv) (q : Nat) : Srv := { v with q, c := min v.c (1024 * (q : Int)) }

/-- The engines of class ISSUE and MATRIX in a partition that hold an instance. -/
def State.coreEngines (s : State) (part : Nat) : List (Nat × Nat) :=
  (s.srvs.filterMap fun v =>
    let core := if v.cls = 0 then v.inst / 4 else v.inst
    if v.cls ≤ 1 && v.ctx != mgmtCtx && s.partHasUnit part (unitOfCore core) then some (v.cls, v.inst) else none).eraseDups

/-- Re-check every ISSUE and MATRIX engine of a partition at its present clock step (R150). -/
def State.recheck (s : State) (part : Nat) : State :=
  let k := s.keff part
  let es := s.coreEngines part
  let s := es.foldl (fun s (cls, inst) =>
    let up := s.canRaise cls inst k
    { s with srvs := s.srvs.map fun v =>
        if v.cls = cls ∧ v.inst = inst ∧ v.tcls = 0 ∧ v.ctx ≠ mgmtCtx then
          let q := fld (s.template cls v.ctx v.route) 0 24
          let q' := if up then raisedQ q v.p k else q
          if v.q = q' then v else v.setQ q'
        else v }) s
  s.setRfld (.pslst part) 21 1 (if es.any fun (cls, inst) => !s.canRaise cls inst k then 1 else 0)

/-! ## Step boundaries (R142, R143, R148) -/

/-- The order of units in R143's ties. -/
def SlewUnit.order : SlewUnit → Nat
  | .matrix => 0
  | .vector => 1
  | .copy => 2
  | .quarter => 3

/-- The server class of a unit's engine. -/
def SlewUnit.cls : SlewUnit → Nat
  | .matrix => 1
  | .copy => 2
  | _ => 0

/-- Whether a request comes from a context whose server is class 0 (R102, R143). -/
def State.firstClass (s : State) (r : Resv) : Bool := r.ctx == mgmtCtx || s.rfld (.svcfg r.ctx r.unit.cls) 48 3 == 0

/-- Grant order (R143). -/
def State.grantKey (s : State) (r : Resv) : Nat :=
  ((((if s.firstClass r then 0 else 1) * 2 ^ 64 + r.since) * 4 + r.unit.order) * 256 + r.core) * 4 + r.quarter

/-- Retirement order (R143). -/
def Resv.retireKey (r : Resv) : Nat := ((r.since * 256 + r.core) * 4 + r.unit.order) * 4 + r.quarter

/-- Retire free reservations in order while they fit; what stands, and the quanta retired. -/
def retireAll (down : Nat) : Nat → List Resv → Nat → List Resv × Nat
  | 0, held, n => (held, n)
  | k + 1, held, n =>
    match leastBy Resv.retireKey (held.filter fun r => r.free) with
    | none => (held, n)
    | some r => if n + r.size ≤ down then retireAll down k (held.erase r) (n + r.size) else (held, n)

/-- Add a granted request to what a unit holds. Until its macro-operation starts nothing uses it (R142); a standing quantum
is used by its quarter's groups (R141). -/
def addResv (clock : Nat) (held : List Resv) (r : Resv) : List Resv :=
  let same (h : Resv) : Bool := h.isOf r.unit r.core r.quarter
  if held.any same then mapIf same (fun (h : Resv) => { h with size := h.size + r.size, ctx := r.ctx }) held
  else held ++ [{ r with free := r.unit != .quarter, since := clock }]

/-- Grant pending requests in order while they fit. -/
def State.grantAll (s : State) (clock up ceil level retired : Nat) : Nat → List Resv → List Resv → Nat → List Resv × List Resv
  | 0, held, pending, _ => (held, pending)
  | k + 1, held, pending, g =>
    match leastBy s.grantKey pending with
    | none => (held, pending)
    | some r =>
      if g + r.size ≤ up + retired ∧ level + g + r.size ≤ ceil + retired then
        s.grantAll clock up ceil level retired k (addResv clock held r) (pending.erase r) (g + r.size)
      else (held, pending)

/-- Quanta held. -/
def levelOf (held : List Resv) : Nat := held.foldl (fun a r => a + r.size) 0

/-- The quadrants in which a partition holds a unit. -/
def State.partQuads (s : State) (part : Nat) : List Nat := ((s.partUnits part).map quadOfUnit).eraseDups

/-- The clock step that a partition asks for (R148). -/
def State.wantedStep (s : State) (part : Nat) : Nat :=
  (s.partQuads part).foldl (fun k q => max k (s.rfld (.therm q) 24 4)) (s.rfld (.pslew part) 16 4)

/-- The slowest clock step that a quadrant's partitions allow its voltage: the fastest that any of them runs at or asks for
(R12). -/
def State.neededVolt (s : State) (quadrant : Nat) : Option Nat :=
  leastBy id (((List.range 48).filter fun n => (s.partQuads n).contains quadrant).map fun n => min (s.keff n) (s.wantedStep n))

/-- The voltage of a quadrant falls to what its partitions ask for, once each of them has its new, lower frequency; a rise
that none of them asks for any more is dropped (R12). -/
def State.lowerVolt (s : State) (q : Nat) : State :=
  match s.neededVolt q with
  | none => s
  | some k =>
    let v := s.boot.volt.get 0 q
    { s with boot := { s.boot with volt := SMap.set 0 s.boot.volt q (max k v), rise := if v ≤ k then s.boot.rise.erase q else s.boot.rise } }

/-- A new clock step takes effect (R148): the ISSUE and MATRIX remainders of the partition clear. -/
def State.setStep (s : State) (part k : Nat) : State :=
  let s := s.setRfld (.pslst part) 17 4 k
  let es := s.coreEngines part
  let s := { s with srvs := s.srvs.map fun (v : Srv) => if es.contains (v.cls, v.inst) then { v with e := 0 } else v }
  ((s.partQuads part).foldl State.lowerVolt s).recheck part

/-- A clock step change at a boundary; a faster clock waits for the voltage of each quadrant (R12, R148). -/
def State.stepClock (s : State) (part : Nat) : State :=
  let k := s.wantedStep part
  let low := (s.partQuads part).filter fun q => k < s.boot.volt.get 0 q
  if k = s.keff part then (s.partQuads part).foldl State.lowerVolt s
  else if s.keff part < k ∨ low.isEmpty then s.setStep part k
  else { s with boot := { s.boot with rise := low.foldl (fun m q => m.put q ((s.neededVolt q).getD k)) s.boot.rise } }

/-- SLEW_STEP_BOUNDARY (R143): every 4 cycles of the partition's clock. -/
def execSlewStepBoundary (part : Nat) (s : State) : Host.Outcome State Fault Refusal :=
  let sl := s.slew.get {} part
  if sl.cycles < 4 then .next s
  else
    let level := levelOf sl.held
    let span := s.rfld (.pslew part) 8 8
    let row := if span = 0 then 7 else min 7 (level / span)
    let up := s.rfld (.pramp part row) 0 8
    let down := s.rfld (.pramp part row) 8 8
    let ceil := s.rfld (.pslew part) 0 8 * (s.partUnits part).length
    let (held, retired) := retireAll down sl.held.length sl.held 0
    let (held, pending) := s.grantAll sl.clock up ceil level retired sl.pending.length held sl.pending 0
    let s := { s with slew := s.slew.put part { sl with held, pending, cycles := sl.cycles - 4 } }
    let s := (s.setRfld (.pslst part) 0 14 (levelOf held)).setRfld (.pslst part) 14 3 row
    .next (s.stepClock part)

/-- DROOP_TRIP (R146): only the unit's partition skips cycles. -/
def execDroopTrip (unit : Nat) (s : State) : Host.Outcome State Fault Refusal :=
  match s.partOfUnit unit with
  | none => .next s
  | some n =>
    let sl := s.slew.get {} n
    .next (({ s with slew := s.slew.put n { sl with droop := some 0 } } : State).satFld (.pslcnt n) 32 16 1)

/-- DROOP_SKIP_END (R146): 64 cycles after the trip. -/
def execDroopSkipEnd (part : Nat) (s : State) : Host.Outcome State Fault Refusal :=
  let sl := s.slew.get {} part
  match sl.droop with
  | some n => if 64 ≤ n then .next { s with slew := s.slew.put part { sl with droop := none } } else .next s
  | none => .next s

/-- One cycle of a macro-operation of fixed length; with its last one the reservation is free (R142). -/
def Resv.cycle (clock : Nat) (r : Resv) : Resv :=
  if r.busy = 0 then r else if r.busy = 1 then { r with busy := 0, free := true, since := clock } else { r with busy := r.busy - 1 }

/-- Whether the coming cycle is one that droop skips (R146). -/
def Slew.skips (x : Slew) : Bool := match x.droop with | some n => decide (n < 64 ∧ n % 4 = 3) | none => false

/-- One cycle of a partition's clock reaches its step counter, unless droop skips it (R146); free reservations run
fillers (R142). -/
def Slew.cycle (x : Slew) : Slew :=
  let on (x : Slew) : Slew := { x with
    cycles := x.cycles + 1, clock := x.clock + 1, fill := x.fill + (x.held.filter Resv.free).length
    held := x.held.map (Resv.cycle (x.clock + 1)) }
  let y := { x with droop := x.droop.map (· + 1), todo := x.todo - 1 }
  if x.skips then y else on y

/-- Clock cycles that begin in one tick of the postmark at step k are to come, with the fraction carried over (R14, R148): a
postmark whose rate is raised by some ppm sees that many fewer cycles in a tick. -/
def Slew.advance (x : Slew) (k : Nat) (ppm : Int) : Slew :=
  let f := x.frac + (17 - k) * 10 ^ 12 / (1000000 + ppm).toNat
  { x with frac := f % 10 ^ 7, todo := x.todo + f / 10 ^ 7 }

/-! ## Temperature (R149) -/

/-- The cores of a quadrant, in increasing number. -/
def quadCores (q : Nat) : List Nat := (List.range 256).filter fun c => quadOfUnit (unitOfCore c) == q

/-- Since when a condition has held at every sample. -/
def sinceWhen (m : SMap Nat) (k now : Nat) (on : Bool) : SMap Nat :=
  if on then (if (m.find k).isSome then m else m.put k now) else m.erase k

/-- The sample of one core: its sensor and its hot mark. -/
def State.sampleCore (s : State) (core t limit back : Nat) : State :=
  let s := { s with mon := { s.mon with hotSince := sinceWhen s.mon.hotSince core s.now (limit ≤ t) } }
  let hot := match s.mon.hotSince.find core with | some t0 => decide (t0 + 100000 ≤ s.now) | none => false
  let was := s.rfld (.ctemp core) 8 1
  let now := if hot then 1 else if t < back then 0 else was
  let s := (s.setRfld (.ctemp core) 0 8 t).setRfld (.ctemp core) 8 1 now
  if was = 0 ∧ now = 1 then s.push [.hotSpotMigration core] else s

/-- The thermal step after a sample (R149): up at the limit, down after a calm millisecond. -/
def thermStep (lim top step : Nat) (waited calm : Bool) : Nat :=
  if lim ≤ top ∧ waited ∧ step < 8 then step + 1 else if calm ∧ 0 < step then step - 1 else step

/-- A sample of a quadrant (R149): the sensors of its cores. After a missed sample no condition has held at every one. -/
def State.sampleQuad (s : State) (quadrant : Nat) (temps : List Nat) : State :=
  let gap := (s.mon.sampledAt.get s.now quadrant) + 10000 < s.now
  let mon := { s.mon with sampledAt := s.mon.sampledAt.put quadrant s.now }
  let mon := if gap then { mon with belowSince := mon.belowSince.erase quadrant
                                    hotSince := mon.hotSince.filter fun (c, _) => quadOfUnit (unitOfCore c) != quadrant } else mon
  let s := { s with mon }
  let r := s.reg (.therm quadrant)
  let temps := temps.map fun t => min 255 t
  let top : Nat := temps.foldl max 0
  let lim : Nat := fld r 0 8
  let hyst : Nat := fld r 8 8
  let step : Nat := fld r 24 4
  let s := { s with mon := { s.mon with belowSince := sinceWhen s.mon.belowSince quadrant s.now (top + hyst < lim) } }
  let calm : Bool := match s.mon.belowSince.find quadrant with | some t0 => decide (t0 + 1000000 ≤ s.now) | none => false
  let waited : Bool := match s.mon.tstepAt.find quadrant with | some t0 => decide (t0 + 100000 ≤ s.now) | none => true
  let step' := thermStep lim top step waited calm
  let s := (s.setRfld (.therm quadrant) 28 8 top).setRfld (.therm quadrant) 24 4 step'
  let s := if step' = step then s else { s with mon := { s.mon with tstepAt := s.mon.tstepAt.put quadrant s.now } }
  ((quadCores quadrant).zip temps).foldl (fun s (c, t) => s.sampleCore c t (fld r 16 8) (fld r 16 8 - hyst)) s

/-- THERMAL_SAMPLE (R149): the sensors are sampled every 10 µs, so readings that come sooner are no sample. -/
def execThermalSample (quadrant : Nat) (temps : List Nat) (s : State) : Host.Outcome State Fault Refusal :=
  match s.mon.sampledAt.find quadrant with
  | some t => if s.now < t + 10000 then .next s else .next (s.sampleQuad quadrant temps)
  | none => .next (s.sampleQuad quadrant temps)

end Sys2Proof.Machine
end

