-- ==== Sys2Proof/Machine/Admission.lean ====
section
/-! DEFINITION. Server instances: where a template is instantiated, admission, and the creation and removal of
instances (R95, R103, R104, R115). -/

namespace Sys2Proof.Machine

/-- The engines of a class that lie in a unit (R27, R95). -/
def unitEngines (cls u : Nat) : List Nat :=
  if cls = 0 then (List.range 16).map fun i => 16 * u + i
  else if cls = 3 then [channelOfSlice u]
  else if cls < 3 then (List.range 4).map fun i => 4 * u + i
  else []

/-- Slots of an arbiter (R95). -/
def arbiterSlots (cls : Nat) : Nat := if cls < 3 then 8 else 64

/-- The units that a context names (R115). -/
def State.ctxUnits (s : State) (ctx : Nat) : List Nat := (List.range 64).filter fun u => (s.reg (.svumask ctx)).getLsbD u

/-- The engines at which a context's template of a class has an instance (R95). -/
def State.ctxEngines (s : State) (ctx cls : Nat) : List Nat :=
  if (s.reg (.svcfg ctx cls)).getLsbD 52 then (s.ctxUnits ctx).flatMap (unitEngines cls) else []

/-- Guest instances at an engine other than one template's. -/
def State.others (s : State) (cls inst ctx route : Nat) : List Srv :=
  (s.srvsAt cls inst).filter fun v => !(v.ctx == ctx && v.route == route)

/-- Whether a budget is admitted at an engine beside the instances that stand there (R103): the sum of utilisations
stays within the bound and a slot is free. -/
def State.admits (s : State) (cls inst ctx route q p : Nat) : Bool :=
  let os := s.others cls inst ctx route
  let sum := os.foldl (fun a v => a + utilisation (fld (s.template cls v.ctx v.route) 0 24) v.p) (utilisation q p)
  decide (sum ≤ s.bound cls) && decide (os.length < arbiterSlots cls)

/-- The lowest free slot of an arbiter. -/
def State.freeSlot (s : State) (cls inst : Nat) : Option Nat :=
  (List.range (arbiterSlots cls)).find? fun i => !((s.srvsAt cls inst).any fun v => v.slot == i)

/-- Create the instance of a template at an engine, in IDLE with nothing in its budget (R99). Admission has seen to a
free slot (R103). -/
def State.addSrv (s : State) (cls inst ctx route : Nat) : State :=
  if s.srvs.any fun v => v.is cls inst ctx route then s
  else match s.freeSlot cls inst with
  | none => s
  | some slot =>
    let t := s.template cls ctx route
    let q := fld t 0 24
    let v : Srv := { cls, inst, ctx, route, slot, q, tq := q, p := fld t 24 24, tcls := fld t 48 3, hcap := t.getLsbD 51 }
    { s with srvs := s.srvs ++ [v] }

/-- Remove the instances that `p` picks. -/
def State.dropSrvs (s : State) (p : Srv → Bool) : State := { s with srvs := s.srvs.filter fun v => !p v }

/-- A change of a live template reaches an instance (R104): its budget changes only with Q, P or the class. -/
def Srv.retune (v : Srv) (t : W64) : Srv :=
  let q := fld t 0 24
  let p := fld t 24 24
  let u := { v with tq := q, p, tcls := fld t 48 3, hcap := t.getLsbD 51 }
  if q = v.tq ∧ p = v.p ∧ fld t 48 3 = v.tcls then u else u.setQ q

end Sys2Proof.Machine
end

