-- ==== Sys2Proof/Machine/Records.lean ====
section
/-! DEFINITION. Command rings, doorbells and completions (R79, R81, R84 to R88, R163, R169). -/

namespace Sys2Proof.Machine

/-! ## What goes out at the host port (R21, R79) -/

/-- The clock servo keeps the postmark at which a Delay_Req leaves the port (R78). -/
def PtpClock.sent (c : PtpClock) (o : Out) (now : Nat) : PtpClock :=
  match o with
  | .delayReq m q => if c.master = m ∧ c.seq = q then { c with asked := some now } else c
  | _ => c

/-- Send something from the host port; while a pause or a lane's recalibration holds transmission it waits. -/
def State.emitOut (s : State) (o : Out) : State :=
  if s.now < s.host.pauseUntil ∨ s.boot.hostLane.isSome then { s with host := { s.host with waiting := s.host.waiting ++ [o] } }
  else { s.countDevice 20 with host := { s.host with out := s.host.out ++ [o], ptp := s.host.ptp.sent o s.now } }

/-- Transmission resumes: what waited is sent, in order. -/
def State.flushOut (s : State) : State :=
  if s.now < s.host.pauseUntil ∨ s.boot.hostLane.isSome then s
  else
    let os := s.host.waiting
    os.foldl State.emitOut { s with host := { s.host with waiting := [] } }

/-- The number of queue pair i of a context (R79). -/
def qpNum (ctx i : Nat) : Nat := (ctx + 1) * 16 + i

/-- Send a RoCE request on a queue pair with its next PSN; without the queue pair nothing is sent. -/
def State.roce (s : State) (qpn : Nat) (mk : BitVec 24 → Out) (cmd : Option Nat) : State :=
  match s.host.qps.find qpn with
  | none => s
  | some q =>
    let o := mk q.txPsn
    let q := { q with txPsn := q.txPsn + 1, unacked := q.unacked ++ [{ psn := q.txPsn, out := o, cmd }], sentAt := s.now }
    ({ s with host := { s.host with qps := s.host.qps.put qpn q } } : State).emitOut o

/-- A SEND to a context's host on queue pair 0 (R81, R86). -/
def State.sendHost (s : State) (ctx : Nat) (data : Bytes) : State :=
  s.roce (qpNum ctx 0) (fun psn => .send (qpNum ctx 0) psn data) none

/-! ## Commands and rings -/

/-- Bytes [byte, byte + n) of a command (R87). -/
def Cmd.fld (c : Cmd) (byte n : Nat) : Nat := c.bytes.toNat / 2 ^ (8 * byte) % 2 ^ (8 * n)
def Cmd.opc (c : Cmd) : Nat := c.fld 0 1
def Cmd.fence (c : Cmd) : Bool := c.bytes.getLsbD 8
def Cmd.notify (c : Cmd) : Bool := c.bytes.getLsbD 9
def Cmd.tag (c : Cmd) : Nat := c.fld 2 2

def State.ring (s : State) (q : Nat) : Ring := s.sched.rings.get {} q
def State.updRing (s : State) (q : Nat) (f : Ring → Ring) : State :=
  { s with sched := { s.sched with rings := SMap.set {} s.sched.rings q (f (s.ring q)) } }

def State.updCmd (s : State) (id : Nat) (f : Cmd → Cmd) : State :=
  { s with sched := { s.sched with cmds := s.sched.cmds.upd id f } }

/-- The context a hardware queue is bound to (R111, R114). -/
def State.queueCtx (s : State) (q : Nat) : Option Nat :=
  if q < 64 ∧ s.rfld (.hqcfg q) 20 1 = 1 then some (s.rfld (.hqcfg q) 0 9) else none

/-- A context's queues in increasing global order: its local numbers (R81). -/
def State.ctxQueues (s : State) (ctx : Nat) : List Nat := (List.range 64).filter fun q => s.queueCtx q == some ctx

/-- Whether a command stands in the submission buffer: taken, checked, not started. -/
def Cmd.pending (c : Cmd) : Bool := c.st == .taken && !(c.opc == 1 && c.grid.isNone)

/-- Commands of a queue that are submitted and not started. -/
def State.pendOf (s : State) (q : Nat) : Nat := (s.sched.cmds.filter fun (_, c) => c.queue == q && c.pending).length

/-- `HQSUBn.PEND` and `FULL` follow the submission buffer (R92). -/
def State.showPend (s : State) (q : Nat) : State :=
  (s.setRfld (.hqsub q) 8 9 (s.pendOf q)).setRfld (.hqsub q) 17 1 (if 256 ≤ s.pendOf q then 1 else 0)

/-- A command that passed its checks goes into the submission buffer (R84). -/
def State.submit (s : State) (q : Nat) : State := (s.setRfld (.hqsub q) 0 8 (s.rfld (.hqsub q) 0 8 + 1)).showPend q

/-! ## Completion (R86) -/

/-- The 16 bytes of a completion record. -/
def recordBytes (c : Cmd) (status value now : Nat) : Bytes :=
  bytesLE 2 c.tag ++ bytesLE 2 status ++ bytesLE 4 value ++ bytesLE 8 now

/-- Write a command's completion record while its lease is LIVE, advance the completion count, and notify (R81, R86). -/
def State.record (s : State) (c : Cmd) (status value : Nat) : State :=
  let bs := recordBytes c status value s.now
  let l := s.lease c.ctx c.leaseD
  let s := if c.leaseD ≠ 255 ∧ l.st = 2 ∧ l.covers c.recAt 16 then s.virtWrite c.ctx c.recAt bs else s
  let s := s.setRfld (.hqdone c.queue) 0 32 (s.rfld (.hqdone c.queue) 0 32 + 1)
  if c.notify then s.sendHost c.ctx bs else s

/-- A command completes (R85, R86): a status other than 0 is kept for the fenced commands after it. -/
def State.completeCmd (s : State) (id status value : Nat) : State :=
  match s.sched.cmds.find id with
  | none => s
  | some c =>
    let s := (match c.op with | some o => s.dropOp o | none => s).record c status value
    let s := if status = 0 then s
      else
        let mark (k : Nat) (x : Cmd) : Cmd := if x.queue = c.queue ∧ id < k then { x with fenceFail := true } else x
        let s : State := { s with sched := { s.sched with cmds := s.sched.cmds.map fun (k, x) => (k, mark k x) } }
        if (s.ring c.queue).isSet then s.updRing c.queue fun r => { r with failed := true } else s
    ({ s with sched := { s.sched with cmds := s.sched.cmds.erase id } } : State).showPend c.queue

/-! ## Semaphores (R87) -/

def State.sem (s : State) (ctx n : Nat) : W64 := s.sched.sems.get 0 (256 * ctx + n)

/-- Whether a WAITSEM in progress is satisfied by a value of semaphore n. -/
def Cmd.metBy (c : Cmd) (ctx n : Nat) (v : W64) : Bool :=
  c.st == .waiting && c.opc == 6 && c.ctx == ctx && c.fld 8 1 == n && decide (c.fld 16 8 ≤ v.toNat)

/-- A semaphore takes a value, and the WAITSEMs it satisfies complete. -/
def State.setSem (s : State) (ctx n : Nat) (v : W64) : State :=
  let s : State := { s with sched := { s.sched with sems := SMap.set 0 s.sched.sems (256 * ctx + n) v } }
  (s.sched.cmds.filter fun (_, c) => c.metBy ctx n v).foldl (fun s (id, _) => s.completeCmd id 0 0) s

/-- A LAUNCH or COPYH ends: its amount is added only on status 0 (R87). -/
def State.endWork (s : State) (id status value : Nat) : State :=
  match s.sched.cmds.find id with
  | none => s
  | some c =>
    let n := c.fld 36 2
    let s := s.completeCmd id status value
    if status = 0 ∧ n < 256 then s.setSem c.ctx n (s.sem c.ctx n + BitVec.ofNat 64 (c.fld 40 8)) else s

/-! ## Order of starts (R85) -/

/-- Whether a command may start now (R85). An unfenced RECALL starts at once, behind a WAITSEM that waits too (log 112). -/
def State.startable (s : State) (id : Nat) (c : Cmd) : Bool :=
  let before := s.sched.cmds.filter fun (k, x) => x.queue == c.queue && decide (k < id)
  c.pending &&
    (if c.fence then before.isEmpty
     else c.opc == 9 || before.all fun (_, x) => x.st == .started)

/-- A command of an opcode starts, or completes with status 6 where an earlier one of its ring failed and it is fenced.
`drop` undoes what its take did, and `f` is what it does. -/
def State.startCmd (s : State) (id opc : Nat) (ready : Cmd → Bool) (drop f : Cmd → State → State) : State :=
  match s.sched.cmds.find id with
  | none => s
  | some c =>
    if c.opc = opc ∧ s.startable id c then
      if c.fence ∧ c.fenceFail then (drop c s).completeCmd id 6 0
      else if ready c then f c ((s.updCmd id fun c => { c with st := .started, started := s.now }).showPend c.queue)
      else s
    else s

/-! ## Leases (R84, R163, R169) -/

/-- A lease of the context in MAKING or LIVE that covers a range with the rights (R84 check 3, R163). -/
def State.heldLease (s : State) (ctx va n need : Nat) : Option Nat :=
  (List.range 255).find? fun i =>
    let l := s.lease ctx i
    (l.st == 1 || l.st == 2) && l.covers va n && (l.rights &&& need) == need

/-- Where a context's trace buffer lies: its base and its bytes, header and ring (R246). -/
def State.traceBuf (s : State) (ctx : Nat) : Nat × Nat :=
  (s.rfld (.dtrbase ctx) 0 52, 64 + 64 * 2 ^ s.rfld (.dtrbase ctx) 52 5)

/-- A lease leaves LIVE: rings that stand in it take no further command (R81), and a trace buffer in it is unbound
(R246). -/
def State.killRings (s : State) (ctx n : Nat) : State :=
  let (a, k) := s.traceBuf ctx
  let s := if s.rfld (.dbgcfg ctx) 1 1 = 1 ∧ (s.lease ctx n).covers a k then s.setRfld (.dbgcfg ctx) 1 1 0 else s
  (s.ctxQueues ctx).foldl (fun s q =>
    let r := s.ring q
    if r.isSet ∧ (r.leaseC = n ∨ r.leaseD = n) then s.updRing q fun r => { r with dead := true } else s) s

/-- A lease is revoked (R88, R163, R169 steps 1 and 2): its grids end with class 4, and its COPYHs complete. -/
def State.revoke (s : State) (ctx n : Nat) : State :=
  let l := s.lease ctx n
  let s := (s.updLease ctx n fun l => { l with st := 4 }).killRings ctx n
  let s := l.grids.foldl (fun s g => s.strayFault g { cls := 4, ctx, time := s.now, core := s.gridCore g }) s
  (s.sched.cmds.filter fun (_, c) => c.ctx == ctx && c.opc == 2 && c.lease == some n).foldl (fun s (id, _) => s.completeCmd id 7 4) s

/-- Add frames to a partition's scrub queue (R169 step 4, R173). -/
def State.queueScrub (s : State) (part : Nat) (size : Nat) (frames : List Nat) : State :=
  let n := size / 4096
  let s := s.updMem fun m => { m with scrub := m.scrub.put part (m.scrub.get [] part ++ frames.map fun f => (f, n)) }
  let s := s.setRfld (.scrub part) 0 32 (s.rfld (.scrub part) 0 32 + n * frames.length)
  frames.foldl (fun s f => s.setRfld (.fpool (channelOf f)) 21 21 (s.rfld (.fpool (channelOf f)) 21 21 + n)) s

/-- Remove the cached translations of a context that `p` picks, by page and size. -/
def State.dropTlb (s : State) (ctx : Nat) (p : TlbEnt → Bool) : State :=
  let keep (t : TlbEnt) : Bool := !(t.ctx == ctx && p t)
  let s : State := { s with cores := s.cores.map fun (n, c) => (n, ({ c with tlb := c.tlb.filter keep } : Core)) }
  s.updMem fun m => { m with l2tlb := m.l2tlb.map fun (k, (ts : List TlbEnt)) => (k, ts.filter keep) }

/-- The walks in progress of a context's addresses that `p` picks are stale (R168, R170). -/
def State.staleWalks (s : State) (ctx : Nat) (p : Nat → Bool) : State :=
  s.updMem fun m => { m with walkers := m.walkers.map fun (u, (w : Walker)) =>
    (u, { w with walk := w.walk.map fun (k : Walk) => if k.ctx = ctx ∧ p k.va then { k with stale := true } else k }) }

/-- Write a table entry (R166): it overwrites a poisoned word (R158). -/
def MemSys.putEntry (m : MemSys) (pa : Nat) (e : W64) : MemSys :=
  { m with cells := writeBytes m.cells pa (bytesLE 8 e.toNat), poison := m.poison.filter (· != pa / 8) }

/-- The level whose entry maps a page of a size. -/
def leafLevel (size : Nat) : Nat := if size = 3 then 2 else if size = 2 then 1 else 0

/-- The table of a level that serves an address, below a table of a higher level. -/
def MemSys.tableAt (m : MemSys) (va low : Nat) : Nat → Nat → Option Nat
  | 0, t => if low = 0 then some t else none
  | n + 1, t =>
    if low = n + 1 then some t
    else match walkStep (n + 1) (m.entryAt (entryPa t (n + 1) va)) with
      | .next u => m.tableAt va low n u
      | _ => none

/-- The addresses of the leaf entries of page i of a lease: 16 for a page of 64 KiB (R166). -/
def State.leafEntries (s : State) (ctx base size i : Nat) : List Nat :=
  let va := base + pageBytes size * i
  let low := leafLevel size
  match (s.tableRoot ctx).bind (s.msys.tableAt va low 3) with
  | none => []
  | some t => (List.range (if size = 1 then 16 else 1)).map fun j => entryPa t low (va + 4096 * j)

/-- Whether nothing is on its way to a lease's frames: requests accepted on it have completed, its writes have performed, and what was
translated by its leaves has performed or been acknowledged, as for a TINV (R168, R169 steps 1 to 3, R170). -/
def State.leaseQuiet (s : State) (ctx : Nat) (l : Lease) : Bool :=
  let inFrames (a : Nat) : Bool := l.frames.any fun f => decide (f ≤ a) && decide (a < f + pageBytes l.psize)
  let inRange (p : Nat) : Bool := decide (l.base < 4096 * (p + 1)) && decide (4096 * p < l.base + l.len)
  (s.lodra.serving.all fun (k, _) => match s.pkts.find k with | some p => !inFrames p.addr | none => true) &&
    (s.ops.all fun (_, o) => o.ctx != ctx || !o.pages.any inRange) &&
    s.pkts.all fun (_, p) => p.sys.isSome || !inFrames p.addr || match p.stage with | .xlat | .dropped => true | _ => false

/-- A lease is gone: what stood in it does not stand in a later lease of its number (R81). -/
def State.forgetLease (s : State) (ctx n : Nat) : State :=
  let ring (r : Ring) : Ring := if r.ctx ≠ ctx then r else
    { r with leaseC := if r.leaseC = n then 255 else r.leaseC, leaseD := if r.leaseD = n then 255 else r.leaseD }
  let cmd (c : Cmd) : Cmd := if c.ctx = ctx ∧ c.leaseD = n then { c with leaseD := 255 } else c
  { s with sched := { s.sched with
    rings := s.sched.rings.map fun (q, r) => (q, ring r)
    cmds := s.sched.cmds.map fun (k, c) => (k, cmd c) } }

/-- A lease reaches FREE (R163, R169 steps 3 and 4): leaves and cached translations go, and its frames are queued for
scrubbing. -/
def State.freeLease (s : State) (ctx n : Nat) : State :=
  let l := s.lease ctx n
  let entries := (List.range l.frames.length).flatMap (s.leafEntries ctx l.base l.psize)
  let s := s.updMem fun m => { entries.foldl (fun m a => m.putEntry a 0) m with leases := m.leases.erase (leaseKey ctx n) }
  let s := s.staleWalks ctx fun va => decide (l.base ≤ va) && decide (va < l.base + l.len)
  let s := s.dropTlb ctx fun t => decide (t.page * pageBytes t.size < l.base + l.len) && decide (l.base < (t.page + 1) * pageBytes t.size)
  (s.forgetLease ctx n).queueScrub (s.ctxPart ctx) (pageBytes l.psize) l.frames

/-- A grid is bound to a lease, or no longer (R88). -/
def State.bindGrid (s : State) (ctx g n : Nat) : State := s.updLease ctx n fun l => { l with grids := l.grids ++ [g] }
def State.unbindGrid (s : State) (g : Nat) : State :=
  s.updMem fun m => { m with leases := m.leases.map fun (k, l) => (k, { l with grids := l.grids.filter fun x => x ≠ g }) }

/-! ## Doorbells (R81) -/

/-- The first 8 bytes of a doorbell. -/
def doorbellHead (d : Doorbell) : Bytes := [d.kind, d.lq, d.logn, d.resv] ++ bytesLE 4 d.tail.toNat

/-- A refused doorbell is answered with its first 8 bytes and a status. -/
def State.refuseBell (s : State) (d : Doorbell) (status : Nat) : State := s.sendHost d.ctx (doorbellHead d ++ bytesLE 1 status)

/-- The hardware queue a doorbell names. -/
def State.bellQueue (s : State) (d : Doorbell) : Option Nat := (s.ctxQueues d.ctx)[d.lq.toNat]?

/-- SET_RING: accepted on an empty queue whose rings lie in LIVE leases. A queue is empty here when no slot is exposed, no
taken command is still to complete, and no reset waits (log 99). Of several refusals a malformed field comes first, then the
queue, then the leases: the model's choice (log 112). -/
def execSetRing (d : Doorbell) (s : State) : Host.Outcome State Fault Refusal :=
  let n := 2 ^ d.logn.toNat
  let b := d.base.toNat
  match s.bellQueue d with
  | none => .next (s.refuseBell d 3)
  | some q =>
    let r := s.ring q
    if d.resv ≠ 0 ∨ 16 < d.logn.toNat ∨ b % 64 ≠ 0 then .next (s.refuseBell d 3)
    else if r.head ≠ r.tail ∨ r.reset.isSome ∨ (s.sched.cmds.any fun (_, c) => c.queue == q) then .next (s.refuseBell d 4)
    else match s.liveLease d.ctx b (64 * n) 1, s.liveLease d.ctx (b + 64 * n) (16 * n) 2 with
      | some c, some e =>
        .next ((s.updRing q fun _ => { isSet := true, ctx := d.ctx, base := d.base, logn := d.logn.toNat, leaseC := c, leaseD := e }).setRfld
          (.hqdone q) 0 32 0)
      | _, _ => .next (s.refuseBell d 2)

/-- An advance tail at its queue: the tail moves forward within the ring, or the doorbell is held or refused. -/
def State.advanceTail (s : State) (q : Nat) (d : Doorbell) : State :=
  let r := s.ring q
  if d.resv ≠ 0 then s.refuseBell d 3
  else if r.reset.isSome then s.updRing q fun r => { r with held := r.held ++ [d] }
  else if r.isSet ∧ (r.tail - r.head).toNat ≤ (d.tail - r.head).toNat ∧ (d.tail - r.head).toNat ≤ 2 ^ r.logn then
    s.updRing q fun r => { r with tail := d.tail }
  else s.refuseBell d 3

/-- ADVANCE_TAIL: at the queue that the doorbell names. -/
def execAdvanceTail (d : Doorbell) (s : State) : Host.Outcome State Fault Refusal :=
  match s.bellQueue d with
  | none => .next (s.refuseBell d 3)
  | some q => .next (s.advanceTail q d)

/-- RESET_RING: waits for the taken commands, with the tail as it stands. -/
def execResetRing (d : Doorbell) (s : State) : Host.Outcome State Fault Refusal :=
  match s.bellQueue d with
  | none => .next (s.refuseBell d 3)
  | some q =>
    if d.resv ≠ 0 then .next (s.refuseBell d 3)
    else .next (s.updRing q fun r => { r with reset := some r.tail })

/-- The command that stands in a ring's slot, with where its record goes. A slot whose lease is no longer LIVE, which only a
discard meets, reads as zero (log 100). -/
def State.slotCmd (s : State) (q ctx : Nat) (index : BitVec 32) : Cmd :=
  let r := s.ring q
  let n := 2 ^ r.logn
  let i := index.toNat % n
  let live := r.leaseC ≠ 255 ∧ (s.lease ctx r.leaseC).st = 2
  { queue := q, ctx, index := index.toNat, leaseD := r.leaseD, recAt := r.base.toNat + 64 * n + 16 * i
    bytes := if live then BitVec.ofNat 512 (s.virtRead ctx (r.base.toNat + 64 * i) 64) else 0 }

/-- Untaken commands complete with status 9, from an index on (R81). -/
def State.discard (s : State) (q ctx : Nat) (index : BitVec 32) : Nat → State
  | 0 => s
  | n + 1 => (s.record (s.slotCmd q ctx index) 9 0).discard q ctx (index + 1) n

/-- RESET_RING_COMPLETE (R81): the taken commands have completed; tails that were held are checked against the new head. -/
def execResetRingComplete (queue : Nat) (s : State) : Host.Outcome State Fault Refusal :=
  let r := s.ring queue
  match r.reset, s.queueCtx queue with
  | some t, some ctx =>
    if s.sched.cmds.any fun (_, c) => c.queue == queue then .next s
    else
      let s := s.discard queue ctx r.head (t - r.head).toNat
      let s := s.updRing queue fun r => { r with head := t, reset := none, held := [], failed := false, was := [] }
      .next (r.held.foldl (fun s d => s.advanceTail queue d) s)
  | _, _ => .next s

end Sys2Proof.Machine
end

