-- ==== Sys2Proof/Machine/Sched.lean ====
section
/-! DEFINITION. Teams on cores: the resource check, placement, lending and recall, the end of teams and grids
(R108 to R111, R118, R120 to R124, R137 to R141, R159, R162, R217, R287). -/

namespace Sys2Proof.Machine

/-! ## What a team needs (R117, R122) -/

/-- Groups that a team places on one core. -/
def Desc.perCore (d : Desc) : Nat := if d.pair then d.gpt / 2 else d.gpt

/-- Lanes of a group. -/
def Desc.lanes (d : Desc) : Nat := 16 * 2 ^ d.wcode

/-- Operand queues declared. -/
def Desc.queueCount (d : Desc) : Nat := ((List.range 4).filter fun i => d.qmask.testBit i).length

/-- The teams that hold resources on a core. -/
def State.teamsOn (s : State) (core : Nat) : List (Nat × Team) := s.sched.teams.filter fun (_, t) => t.cores.contains core

/-- Sum of a need over the groups resident on a core. -/
def State.sumGroups (s : State) (core : Nat) (f : Desc → Nat) : Nat :=
  (s.core core).groups.foldl (fun a (_, g) => a + f (s.descOf g)) 0

/-- The physical scratchpad pages in use on a core (R159). -/
def State.usedPages (s : State) (core : Nat) : List Nat :=
  (s.teamsOn core).flatMap fun (_, t) =>
    t.pages.filterMap fun (k, p) => if !t.pair || k / 64 == core % 2 then some p else none

/-- Whether a core has an instance of a context's ISSUE template, and of each other template that is enabled. -/
def State.serves (s : State) (ctx core : Nat) : Bool :=
  let has (cls inst : Nat) : Bool := s.srvs.any fun v => v.is cls inst ctx 0
  has 0 (4 * core) && [1, 2].all fun k => !(s.reg (.svcfg ctx k)).getLsbD 52 || has k core

/-! ## Lending (R107, R108, R114) -/

def State.clState (s : State) (c : Nat) : Nat := s.rfld (.clend c) 0 3
def State.clOwner (s : State) (c : Nat) : Option Nat :=
  let o := s.rfld (.clend c) 3 9
  if o = 0x1FF then none else some o
def State.setClState (s : State) (c st : Nat) : State := s.setRfld (.clend c) 0 3 st

/-- The home clusters of a context, in increasing number: local numbers (R87, R114). -/
def State.homes (s : State) (ctx : Nat) : List Nat :=
  (List.range 128).filter fun c => (s.reg (.chome ctx (c / 64))).getLsbD (c % 64)

/-- Teams other than a context's own on a cluster. -/
def State.borrowers (s : State) (c owner : Nat) : List Nat :=
  (s.sched.teams.filter fun (_, t) => t.ctx != owner && t.cores.any fun k => k / 2 == c).map Prod.fst

/-- Whether lending allows a team of a context on a core (R108, R110, R122). -/
def State.lendAllows (s : State) (ctx core : Nat) : Bool :=
  match s.clOwner (core / 2) with
  | none => true
  | some o =>
    let st := s.clState (core / 2)
    if o = ctx then st ≤ 1 else s.rfld (.ctxcfg ctx) 17 1 == 1 && (st == 1 || st == 2)

/-- The resource check of R122 on one core, but for lending. -/
def State.fits (s : State) (ctx : Nat) (d : Desc) (core : Nat) : Bool :=
  let k := s.core core
  let g := d.perCore
  let bytes (e : Desc) : Nat := e.vbase * e.lanes * 4
  let dirs (e : Desc) : Nat := e.dirs * e.lanes * 4
  let qs (e : Desc) : Nat := e.queueCount * e.qdepth * e.lanes * 4
  s.boot.remap != some (core / 2) && !s.boot.outOfService.contains (false, core / 2) && s.boot.updating != some (s.ctxPart ctx) && decide (k.groups.length + g ≤ 64) && decide ((s.teamsOn core).length < 16) &&
    ((k.ctxSlot ctx).isSome || decide (k.slots.length < 8)) &&
    decide (s.sumGroups core bytes + g * bytes d ≤ 512 * 1024) &&
    decide ((s.usedPages core).length + d.spages ≤ 64) &&
    decide (s.sumGroups core dirs + g * dirs d ≤ 64 * 1024) &&
    decide (s.sumGroups core qs + g * qs d ≤ 128 * 1024) && s.serves ctx core

/-- What a saved team needs of a core besides (R50, R218, R376): its queue numbers, copy slots and a bank. -/
def State.savedFits (s : State) (t : Team) (v : Saved) (core : Nat) : Bool :=
  let k := s.core core
  let half := if t.pair then core % 2 else 0
  let free (q : Nat) : Bool := let r := k.recv.get {} q; r.st == 0 || (r.st == 2 && r.ctx == t.ctx && v.recv.any fun (h, n, x) => h == half && n == q && x.team == r.team)
  (v.recv.all fun (h, q, _) => h != half || free q) &&
    decide (k.copies.length + (v.copies.filter fun (h, _) => h / 64 == half).length ≤ 48) &&
    (!(v.banks.any fun (h, _) => h == half) || [0, 1].any fun b => let x : Bank := k.banks.get {} b; x.team.isNone && x.q.isEmpty)

/-- Whether teams are being displaced on a core for a reclaimed team other than `t` (R136). -/
def State.kept (s : State) (t : Team) (core : Nat) : Bool :=
  s.sched.teams.any fun (_, u) => u.stamp != t.stamp && match u.holds with
    | some c => if u.pair then c / 2 == core / 2 else c == core
    | none => false

/-- Whether a team passes the resource check at a core, or at both cores of its cluster (R122, R123). -/
def State.passes (s : State) (t : Team) (d : Desc) (core : Nat) : Bool :=
  (if d.pair then [core - core % 2, core - core % 2 + 1] else [core]).all fun c =>
    !s.kept t c && s.fits t.ctx d c && s.lendAllows t.ctx c && (match t.saved with | some v => s.savedFits t v c | none => true)

/-- The cores where a context has instances: its region (R124). -/
def State.region (s : State) (ctx : Nat) : List Nat :=
  (s.partCores (s.ctxPart ctx)).filter fun c => s.srvs.any fun v => v.is 0 (4 * c) ctx 0

/-- The cores in the order in which a team is tried (R123): from after the core, or cluster, where the context last
placed one. A pair team is tried at the even core of each cluster. -/
def State.tryOrder (s : State) (ctx : Nat) (pair : Bool) : List Nat :=
  let cs := if pair then (s.region ctx).filter fun c => c % 2 == 0 else s.region ctx
  match s.sched.lastCore.find ctx with
  | none => cs
  | some l => (cs.filter fun c => decide (l < c)) ++ cs.filter fun c => decide (c ≤ l)

/-! ## Placement (R122, R123, R141, R159, R199, R284, R291) -/

/-- The quarter of a core that holds the fewest groups. -/
def State.leastQuarter (s : State) (core : Nat) : Nat :=
  (leastBy (fun q : Nat => ((s.core core).groups.filter fun (_, g) => g.quarter == q).length) [0, 1, 2, 3]).getD 0

/-- The lowest free group slot of a core. -/
def Core.freeGroup (c : Core) : Nat := ((List.range 64).find? fun i => (c.groups.find i).isNone).getD 0

/-- Give a context a slot of a core, with a fresh salt (R202). -/
def State.takeCtxSlot (s : State) (core ctx : Nat) : State :=
  if ((s.core core).ctxSlot ctx).isSome then s
  else
    let i := ((List.range 8).find? fun i => ((s.core core).slots.find i).isNone).getD 0
    (s.updCore core fun c => { c with slots := c.slots.put i { ctx, salt := Config.salt s.free } }).chose

/-- Put a group into a core: slot, quarter, generation tag and context slot; the quarter asks for its standing
quantum, unless it still holds a free one (R122, R132, R141). Its slot. -/
def State.seat (s : State) (core : Nat) (g : Group) : State × Nat :=
  let slot := (s.core core).freeGroup
  let quarter := s.leastQuarter core
  let held := (s.core core).groups.any fun (_, h) => h.quarter == quarter
  let s := s.takeCtxSlot core g.ctx
  let g := { g with quarter, placed := s.stamp, gen := (s.core core).gens.get 0 slot }
  let s := (s.updCore core fun c => { c with groups := c.groups.put slot g }).bump
  let kept : Bool := match s.partOfUnit (unitOfCore core) with
    | some n => (s.slew.get {} n).held.any fun r => r.unit == .quarter && r.core == core && r.quarter == quarter
    | none => false
  (if held then s else if kept then s.slewTake .quarter core quarter 0
   else s.slewRequest { unit := .quarter, core, quarter, ctx := g.ctx, size := 1 }, slot)

/-- A path table at group start (R284). -/
def startPaths (w : Nat) (entry : W64) (born : Nat) : List Path :=
  (List.range 8).map fun i => if i = 0 then { valid := true, mask := fullMask w, pc := entry, born } else {}

/-- A group at its start (R199, R200, R284, R357). -/
def State.newGroup (s : State) (gid : Nat) (gr : Grid) (team num : Nat) : Group :=
  let d := gr.desc
  let args := (List.range (d.arglen / 4)).map fun i => (i, BitVec.ofNat 32 (s.virtRead gr.ctx (d.args.toNat + 4 * i) 4))
  { ctx := gr.ctx, team, num, grid := gid, paths := startPaths d.lanes d.entry s.stamp
    gsr := BitVec.ofNat 32 (d.wcode + if d.noru then 4 else 0), s := args.filter fun (_, x) => x != 0
    watchdog := d.wdinit, acc := if d.aentry = 0 then none else some { pc := d.aentry } }

/-- The core of group `num` of a team placed at a core: a pair team's lower half goes to the even core. -/
def Desc.coreOf (d : Desc) (core num : Nat) : Nat :=
  if d.pair then core - core % 2 + (if num < d.perCore then 0 else 1) else core

/-- The scratchpad pages a team receives: the lowest free ones of each core. -/
def State.freshPages (s : State) (d : Desc) (core : Nat) : SMap Nat :=
  let of (c half : Nat) : SMap Nat :=
    let used := s.usedPages c
    (((List.range 64).filter fun p => !used.contains p).take d.spages).mapIdx fun i p => (64 * half + i, p)
  if d.pair then of (core - core % 2) 0 ++ of (core - core % 2 + 1) 1 else of core 0

/-- A team comes to a cluster: an owner's takes it back, a borrower's makes it LENT (R108). -/
def State.clusterGains (s : State) (ctx core : Nat) : State :=
  let c := core / 2
  match s.clOwner c with
  | none => s
  | some o =>
    if o = ctx then (if s.clState c = 1 then s.setClState c 0 else s)
    else (if s.clState c = 1 then s.setClState c 2 else s).setRfld (.clend c) 12 6 (s.borrowers c o).length

/-- Where the context last placed a team. -/
def State.noteCore (s : State) (ctx core : Nat) (pair : Bool) : State :=
  { s with sched := { s.sched with lastCore := s.sched.lastCore.put ctx (if pair then core - core % 2 + 1 else core) } }

/-- An acquire of a context at a core: its group's L1 lines go, and the epoch advances (R181). -/
def State.acquireAt (s : State) (core ctx : Nat) : State := (s.dropL1 core (s.ctxSg ctx)).updCore core Core.advance

/-- Place the next team of a grid at a core (R120, R122). What the host wrote before the doorbell of its command is visible to
it as by an acquire at SYSTEM scope (R82, R183). -/
def State.startTeam (s : State) (gid core : Nat) : State :=
  let gr := s.grid gid
  let d := gr.desc
  let tid := s.stamp
  let t : Team := { grid := gid, ctx := gr.ctx, idx := gr.next, pair := d.pair, core := some core, placedAt := s.now, stamp := tid
                    pages := s.freshPages d core }
  let s := { s.bump with sched := { s.sched with teams := s.sched.teams.put tid t } }
  let s := s.updGrid gid fun g => { g with next := g.next + 1, live := g.live + 1 }
  let s := (List.range d.gpt).foldl (fun s n => (s.seat (d.coreOf core n) (s.newGroup gid gr tid n)).1) s
  let s := (if d.pair then [core - core % 2, core - core % 2 + 1] else [core]).foldl (fun s c => s.acquireAt c gr.ctx) s
  (s.clusterGains gr.ctx core).noteCore gr.ctx core d.pair

/-! ## RECALL and pre-emption requests (R108 to R110, R129) -/

/-- Clusters that a RECALL still waits for, as a mask kept in the command. -/
def State.settleRecalls (s : State) (owner cluster : Nat) : State :=
  match findAt (· == cluster) (s.homes owner) with
  | none => s
  | some (i, _) =>
    (s.sched.cmds.filter fun (_, c) => c.opc == 9 && c.ctx == owner && c.st == .started && c.value.testBit i).foldl
      (fun s (id, c) =>
        let left := c.value - 2 ^ i
        let all := ((List.range 128).filter fun b => (c.fld 8 16).testBit b).length
        if left = 0 then s.completeCmd id 0 all else s.updCmd id fun c => { c with value := left }) s

/-- Ask for the pre-emption of teams (R129): those with one pending keep the stronger. -/
def State.requestStop (s : State) (teams : List Nat) (kind : Nat) (due : Option Nat) (cluster : Option Nat) : State :=
  let mark (t : Team) : Team := { t with stop := some (match t.stop with | some k => if k = 1 ∨ k = 2 then k else kind | none => kind)
                                         reclaimed := t.reclaimed || cluster.isSome }
  let s := teams.foldl (fun s t => s.updTeam t mark) s
  let s := match due with
    | some _ => { s.bump with sched := { s.sched with preempts := s.sched.preempts.put s.stamp { teams, kind, due, cluster } } }
    | none => s
  if kind = 1 ∨ kind = 2 then s.push (teams.map fun t => .forcedHalt t kind) else s

/-- A recall of one home cluster (R108): from LENDABLE at once, from LENT by pre-emption of the borrowers. -/
def State.recallCluster (s : State) (owner cluster : Nat) : State :=
  if s.clState cluster = 1 then (s.setClState cluster 0).settleRecalls owner cluster
  else if s.clState cluster = 2 then (s.setClState cluster 3).requestStop (s.borrowers cluster owner) 0 (some (s.now + 200000)) (some cluster)
  else if s.clState cluster = 0 then s.settleRecalls owner cluster
  else s

/-- A borrower has left a cluster (R108). -/
def State.clusterLoses (s : State) (cluster : Nat) : State :=
  match s.clOwner cluster with
  | none => s
  | some o =>
    let n := (s.borrowers cluster o).length
    let s := s.setRfld (.clend cluster) 12 6 n
    if n ≠ 0 then s
    else if s.clState cluster = 2 then s.setClState cluster 1
    else if s.clState cluster = 3 ∨ s.clState cluster = 4 then
      let s := { s with sched := { s.sched with preempts := s.sched.preempts.filter fun (_, p) => p.cluster ≠ some cluster } }
      (s.setClState cluster 0).settleRecalls o cluster
    else s

/-! ## The end of a team (R44, R159, R162, R217, R287) -/

/-- Whether a bank is a team's: it holds it, or instructions that it entered before an MFREE stand in its queue (R363). -/
def Bank.isOf (b : Bank) (team : Nat) : Bool := b.team == some team || b.q.any fun m => m.team == team

/-- A bank is freed and zeroed; a unit in progress ends, and the tile accesses that wait for their turn end with their instructions
(R147, R217). -/
def State.dropBank (s : State) (core h : Nat) : State :=
  match (s.core core).banks.find h with
  | none => s
  | some b =>
    let s := match b.q with | m :: _ => if b.started then (s.slewFree .matrix core 0).endTileUnit core m.ctx else s | [] => s
    let s := match b.team.bind s.team? with | some t => s.askRound (s.ctxPart t.ctx) | none => s
    let s := (b.q.filter fun m => !m.storing).foldl (fun s m => match m.op with | some id => s.closeOp id | none => s) s
    (s.updCore core fun c => { c.dropRefs (b.q.flatMap MOp.refs) with banks := c.banks.erase h }).slewForget .matrix core 0

/-- Free a team's receive queues, and those that it left closed on another core (R44, R50). -/
def State.freeQueues (s : State) (team : Nat) : State :=
  { s with cores := s.cores.map fun (n, (c : Core)) => (n, { c with recv := c.recv.filter fun (_, r) => r.team != team }) }

/-- A team gives back what it holds on its cores, a bank that its MFREE has not yet freed among it (R217, R363). -/
def State.releaseTeam (s : State) (team : Nat) (t : Team) : State :=
  t.cores.foldl (fun s core =>
    [0, 1].foldl (fun s h => if ((s.core core).banks.get {} h).isOf team then s.dropBank core h else s) s) (s.freeQueues team)

/-- Take a team out of the machine, and the lending state with it; a round follows (R121). -/
def State.endTeam (s : State) (team : Nat) : State :=
  match s.team? team with
  | none => s
  | some t =>
    let s := s.releaseTeam team t
    let s := { s with sched := { s.sched with
      teams := s.sched.teams.erase team
      resume := s.sched.resume.map fun (c, (l : List Nat)) => (c, l.erase team) } }
    let s := s.updGrid t.grid fun g => { g with live := g.live - 1 }
    let s := match t.cores with | c :: _ => s.clusterLoses (c / 2) | [] => s
    s.askRound (s.ctxPart t.ctx)

/-- Whether any group of a team stands on a core. -/
def State.resident (s : State) (team : Nat) : Bool := s.cores.any fun (_, c) => c.groups.any fun (_, g) => g.team == team

/-- TEAM_COMPLETE (R287): every group has exited and every slot is freed; a deferred write-back fault that no FWAIT
reported ends the grid (R140). -/
def execTeamComplete (team : Nat) (s : State) : Host.Outcome State Fault Refusal :=
  match s.team? team with
  | none => .next s
  | some t =>
    if t.core.isSome ∧ t.saved.isNone ∧ !s.resident team then
      let s := match t.orphan with | some r => s.strayFault t.grid r | none => s
      .next (s.endTeam team)
    else .next s

/-! ## The end of a grid (R118, R139, R169) -/

/-- Whether an operation has read the source of a chunk that has started: its data is kept until the chunk writes it. -/
def State.feedsChunk (s : State) (id : Nat) : Bool :=
  s.cores.any fun (_, c) => c.copies.any fun (_, y) => y.started && y.read == some id

/-- Stop a group of a grid that has faulted: its loads and its state are discarded, its stores are waited for. -/
def State.discardGroup (s : State) (core slot : Nat) : State :=
  match s.group? core slot with
  | none => s
  | some g =>
    if g.done then s.tryFree core slot
    else
      let dropped (id : Nat) (o : Op) : Bool := o.ofGroup core slot g &&
        (o.kind.isLoad || (match o.kind with | .fill | .mld | .stsp | .atsp _ _ | .descRead => true | .copyRead => !s.feedsChunk id | _ => false))
      let s := { s with ops := s.ops.filter fun (id, o) => !dropped id o }
      let cut (y : Copy) : Copy :=
        if y.slot ≠ slot ∨ y.gen ≠ g.gen then y
        else if y.started then { y with len := y.pos + y.chunk } else { y with len := y.pos, read := none }
      let gone (g : Group) : Group := { g with
        done := true, acc := none, paths := (List.range 8).map fun _ => {}, dpipe := [], late := [], tokens := [], mbs := [] }
      let s := s.updGroup core slot gone
      let s := s.updCore core fun c => { c.unwaitAll slot with copies := c.copies.map fun (i, y) => (i, cut y) }
      s.tryFree core slot

/-- The collectives of a team that wait for GO are withdrawn. -/
def State.discardColls (s : State) (team : Nat) : State :=
  (s.lodra.colls.filter fun (_, c) => c.team == team && c.st == .wait).foldl (fun s (k, c) =>
    let s := if c.coord = s.devId then s
      else match s.jobRoute c.ctx c.job c.coord with | some r => s.sendSystem r 0x34 c.job c.inst 0 | none => s
    { s with lodra := { s.lodra with colls := s.lodra.colls.erase k } }) s

/-- Drop the instructions of a faulted team's bank queues, but for a store that has started. -/
def State.discardQueues (s : State) (team : Nat) (t : Team) : State :=
  t.cores.foldl (fun s core =>
    [0, 1].foldl (fun s h =>
      match (s.core core).banks.find h with
      | none => s
      | some b =>
        if b.isOf team then
          match b.q with
          | m :: _ => if m.storing then s else s.dropBank core h
          | [] => s
        else s) s) s

/-- Edge counts at a grid's end (R118). -/
def State.edgeAdd (s : State) (edge : Option Nat) (lo : Nat) : State :=
  match edge with
  | some k => s.setRfld (.edgcnt k) lo 16 (s.rfld (.edgcnt k) lo 16 + 1)
  | none => s

/-- A grid is gone: unbound from its leases, out of its queue, its LAUNCH completed. -/
def State.closeGrid (s : State) (gid : Nat) (gr : Grid) (status value : Nat) : State :=
  let s := ((s.leaveHead gid).unbindGrid gid).endWork gr.cmd status value
  let s := { s with sched := { s.sched with
    grids := s.sched.grids.erase gid
    queues := s.sched.queues.map fun (q, (l : List Nat)) => (q, l.erase gid) } }
  s.askRound (s.ctxPart gr.ctx)

/-- Whether a grid has joined its queue: only then has it taken its edge counts. -/
def State.joined (s : State) (gid : Nat) (gr : Grid) : Bool := (s.sched.queues.get [] gr.queue).contains gid

/-- GRID_END (R118, R139): by completion once every team has completed; by a fault once its teams are stopped and their
stores have performed, with its record written. -/
def execGridEnd (grid : Nat) (s : State) : Host.Outcome State Fault Refusal :=
  match s.sched.grids.find grid with
  | none => .next s
  | some gr =>
    let joined := s.joined grid gr
    match gr.fault with
    | none =>
      if joined ∧ gr.next = gr.desc.teams ∧ gr.live = 0 then
        .next (((s.edgeAdd gr.outEdge 16).edgeAdd gr.inEdge 0).closeGrid grid gr 0 0)
      else .next s
    | some r =>
      let mine := s.sched.teams.filter fun (_, t) => t.grid == grid
      let s := mine.foldl (fun s (k, t) =>
        (((s.groupsOf k).foldl (fun s (c, sl) => s.discardGroup c sl) s).discardColls k).discardQueues k t) s
      if mine.any fun (k, _) => s.resident k then .next s
      else
        let s := mine.foldl (fun s (k, _) => s.endTeam k) s
        let s := if gr.desc.faultrec = 0 then s
          else s.virtWrite gr.ctx gr.desc.faultrec.toNat (bytesLE 64 r.image.toNat)
        let s := if joined then (s.edgeAdd gr.outEdge 0).edgeAdd gr.inEdge 0 else s
        .next (s.closeGrid grid gr 7 r.cls)

end Sys2Proof.Machine
end

