-- ==== Sys2Proof/Machine/Image.lean ====
section
/-! DEFINITION. The saved image of a team as bytes of the save area, and its traffic (R102, R130, R133, R154, R284, R376). -/

namespace Sys2Proof.Machine

/-! ## Numbers at byte offsets -/

/-- Numbers laid into one little-endian number, each at its byte offset and cut to its size. -/
def layOut : List (Nat × Nat × Nat) → Nat
  | [] => 0
  | (at_, size, v) :: fs => (v % 2 ^ (8 * size)) <<< (8 * at_) ||| layOut fs

/-- Items of one size, one after another from an offset. -/
def inRow (at_ size : Nat) (vs : List Nat) : List (Nat × Nat × Nat) := vs.mapIdx fun i v => (at_ + size * i, size, v)

/-- Items one after another, back to back, with their sizes. -/
def packed : Nat → List (Nat × Nat) → List (Nat × Nat × Nat)
  | _, [] => []
  | a, (size, v) :: vs => (a, size, v) :: packed (a + size) vs

/-- A part of an image: its length in bytes, and its contents. -/
abbrev Part := Nat × Nat

/-- Parts one after another. -/
def joinParts : List Part → Part
  | [] => (0, 0)
  | (n, x) :: ps => let (m, y) := joinParts ps; (n + m, x ||| y <<< (8 * n))

/-- The lines of a run of bytes; the last is filled up with zeros. -/
def partLines (p : Part) : List Line := (List.range (ceilDiv p.1 128)).map fun i => BitVec.ofNat 1024 (p.2 >>> (1024 * i))

/-! ## The group record (R133, R284) -/

/-- WAITK of a path (R284). -/
def Waiting.code : Waiting → Nat
  | .none | .counter .. => 0
  | .join => 1
  | .barrier _ => 2
  | .mem .. => 3
  | .sleep _ => 4

/-- The 16 bytes of a saved path entry (R284). -/
def Path.bits (p : Path) : BitVec 128 :=
  let flag (b : Bool) (i : Nat) : Nat := if b then 2 ^ i else 0
  p.mask.setWidth 128 ||| BitVec.ofNat 128 (((p.pc.toNat / 2) % 2 ^ 51 + flag p.valid 51 + p.link % 8 * 2 ^ 52 + flag p.linkv 55
    + p.wait.code * 2 ^ 56 + flag p.hndl 59 + flag p.dstop 60) * 2 ^ 64)

/-- A number for a kind of operation, in its envelope. -/
def OpKind.tag : OpKind → Nat × Nat × Nat
  | .load d f => (1, d, f)
  | .loadQ q f => (2, q, f)
  | .uload d => (3, d, 0)
  | .dload d => (4, d, 0)
  | .pref => (5, 0, 0)
  | .fill => (6, 0, 0)
  | .aldq q => (7, q, 0)
  | .ldsp d f => (8, d, f)
  | .stsp => (9, 0, 0)
  | .atsp d o => (10, d, o)
  | .mld => (11, 0, 0)
  | .mst => (12, 0, 0)
  | .atom d o => (13, d, o)
  | _ => (0, 0, 0)

/-- The 16 bytes of an envelope: the PC of its instruction, its path, kind, register, form, flag and counter (log 118). -/
def Op.envelope (o : Op) : Nat :=
  let (k, d, f) := o.kind.tag
  layOut (packed 0 [(8, o.pc.toNat), (1, o.path), (1, k), (1, d), (1, f), (1, o.flag.getD 255), (1, o.ctr.getD 255), (2, o.size)])

/-- The first 14 bytes of a fence token: its state, kind and scope, the FENCE's PC, its first covered envelope and how many it covers,
and the write-back fault mark; `envs` are the group's envelopes, in order. -/
def Token.record (t : Token) (envs : List Nat) : Nat :=
  let mine := envs.filter t.covers.contains
  layOut (packed 0 [(1, if t.out then 1 else 0), (1, t.kind.toNat + 4 * t.scope.toNat), (8, t.pc.toNat),
    (2, match mine with | [] => 0 | i :: _ => envs.idxOf i), (2, mine.length), (1, if t.wbFault.isSome then 1 else 0)])

/-- The bytes of a V register of a group. -/
def Group.cut (g : Group) (x : VReg) : Nat := x.toNat % 2 ^ (32 * g.w)

/-- The entries of an operand queue, oldest first (R215). -/
def OpQueue.entries (q : OpQueue) (depth : Nat) : List VReg :=
  if depth = 0 then [] else (List.range (q.tail - q.head)).map fun i => q.slots.get 0 ((q.head + i) % depth)

/-- The 16,384-byte record of a group: `pool` is the PVR pool, `envs` its envelopes, `qAt` where the entries of each of its queues stand
in the bulk, and their length (R133). -/
def Group.record (g : Group) (dirs : Nat) (pool : List Nat) (envs : SMap Op) (qAt : List (Nat × Nat)) : Nat :=
  let n8 := List.range 8
  let dreg (i : Nat) : DReg := g.d.get {} i
  layOut (
    inRow 0 16 (n8.map fun i => (g.path i).bits.toNat)
    ++ packed 128 ([(4, g.gsr.toNat)] ++ (List.range 12).map (fun i => (1, g.flag i)) ++ (List.range 6).map (fun i => (1, g.ctr i))
      ++ [(4, g.issued), (4, g.watchdog), (1, g.gen.toNat), (4, g.route % 2 ^ 16 + (if g.fm then 2 ^ 16 else 0) + if g.rOn then 2 ^ 17 else 0)]
      ++ (List.range 4).map (fun i => let b : MbSend := g.mbs.get {} i; (2, b.dcore.toNat + 256 * b.dq.toNat + if b.svalid then 4096 else 0))
      ++ [(1, if g.gsrBit 3 || g.redraw then 1 else 0), (4, match g.liveMask with | some m => m.toNat | none => 0), (2, envs.length)])
    ++ inRow 192 16 (n8.map fun i => (g.tokens.get {} i).record (envs.map Prod.fst))
    ++ inRow 320 2 ((List.range 64).map fun r => let x := g.cut (g.vreg r); if x = 0 then 0xFFFF else pool.idxOf x)
    ++ inRow 448 8 ((List.range 7).map fun i => (g.p.get 0 (i + 1)).toNat)
    ++ [(504, 1, g.k.toNat), (512, 32, g.cb.toNat)]
    ++ inRow 544 2 ((List.range 32).map fun i => (dreg i).norm.toNat)
    ++ packed 608 (qAt.flatMap fun e => [(4, e.1), (4, e.2)])
    ++ inRow 1024 4 ((List.range 192).map fun i => (g.sreg i).toNat)
    ++ inRow 2048 16 ((envs.take 128).map fun e => e.2.envelope)
    ++ inRow 4096 (4 * g.w) ((List.range dirs).map fun i => g.cut (dreg i).comps))

/-! ## The bulk (R133, R376) -/

/-- The scratchpad pages of a team, in order (R159). -/
def Team.pageParts (t : Team) (n : Nat) : Part :=
  (4096 * n, t.sp.foldl (fun a (k, b) => a ||| b.toNat <<< (8 * k)) 0)

/-- An accumulator bank: its four tiles, row by row, and its masks (R217). -/
def Bank.part (b : Bank) : Part :=
  (65536 + 24, b.tiles.foldl (fun a (k, v) => a ||| v.toNat <<< (32 * k)) 0 ||| layOut (inRow 65536 8 [b.rowM.toNat, b.colM.toNat, b.depM.toNat]))

/-- The values that a matrix instruction has captured (R366). -/
def MOp.captured (m : MOp) : List VReg := m.frags.flatMap fun (a, b) => a ++ b

/-- The opcode word of an instruction at a PC: what its code now reads. -/
def State.codeWord (s : State) (ctx : Nat) (pc : W64) : Nat := s.virtRead ctx pc.toNat 4

/-- A matrix envelope: the opcode word and the loop word, the PC and the mask, and its captured values by their places in the pool (R376). -/
def State.matrixEnvelope (s : State) (pool : List Nat) (w : Nat) (m : MOp) : Part :=
  let vs := m.captured.map fun x => let y := x.toNat % 2 ^ (32 * w); if y = 0 then 0xFFFF else pool.idxOf y
  (32 + 2 * vs.length, layOut (packed 0 [(4, s.codeWord m.ctx m.pc), (4, m.loop.toNat), (8, m.pc.toNat), (8, m.mask.toNat),
    (1, m.slot), (1, m.path), (2, vs.length), (4, 0)] ++ inRow 32 2 vs))

/-- An access thread: its PC, whether it has halted, its open loops and AX registers (R357). -/
def Acc.part (a : Acc) : Part :=
  (96 + 24 * a.loops.length, layOut (packed 0 ([(8, a.pc.toNat), (4, a.left), (1, if a.halted then 1 else 0), (3, a.loops.length), (16, 0)]
    ++ (List.range 8).map (fun i => (8, (a.ax.get 0 i).toNat)) ++ a.loops.flatMap fun l => [(8, l.body.toNat), (8, l.count), (8, l.left)])))

/-- A copy slot: its addresses, length and progress (R350). -/
def Copy.part (y : Copy) : Part :=
  (48, layOut (packed 0 [(8, y.dst.toNat), (8, y.src.toNat), (8, y.len), (8, y.pos), (8, y.pc.toNat), (1, y.slot), (1, y.path),
    (1, y.flag.getD 255), (1, (if y.ssp then 1 else 0) + (if y.dsp then 2 else 0) + (if y.remote then 4 else 0) + (if y.fm then 8 else 0)
      + (if y.rel then 16 else 0) + 32 * y.scope.toNat), (4, y.route)]))

/-- A collective of the team in WAIT or RUN (R72). -/
def Coll.part (c : Coll) : Part :=
  (64, layOut (packed 0 [(8, c.send.toNat), (8, c.recv.toNat), (8, c.peers.toNat), (8, c.count), (8, c.pc.toNat), (4, c.inst), (2, c.job),
    (1, c.op), (1, c.ty), (2, c.hto), (1, c.root), (1, match c.st with | .wait => 0 | .run => 1), (1, c.slot), (1, c.path), (1, c.flag.getD 255)]))

/-- A mailbox receive queue: its half of the pair, number and messages (R45). -/
def recvPart (half q : Nat) (r : RecvQ) : Part :=
  (8 + 264 * r.msgs.length, layOut (packed 0 ([(1, half), (1, q), (1, r.st), (5, r.msgs.length)]
    ++ r.msgs.flatMap fun (m : Msg) => [(8, m.width + if m.bad then 256 else 0), (256, m.img.toNat)])))

/-! ## The image (R133) -/

/-- The parts of a saved team's image: header, group records, PVR pool and bulk. -/
def State.imageParts (s : State) (team : Nat) (t : Team) (v : Saved) : List Part :=
  let gr := s.grid t.grid
  let d := gr.desc
  let gs := (List.range 64).flatMap fun n => v.groups.filter fun (_, g) => g.num == n
  let w := 16 * 2 ^ d.wcode
  let mops := v.banks.flatMap fun (_, b) => b.q
  let held : List Nat := (gs.flatMap fun ((_, g) : Nat × Group) => g.v.map fun (_, x) => g.cut x) ++
    mops.flatMap fun (m : MOp) => m.captured.map fun x => x.toNat % 2 ^ (32 * w)
  let pool := (held.filter (· != 0)).eraseDups
  let pages := t.pageParts (if t.pair then 2 * d.spages else d.spages)
  let depth := d.qdepth
  let qs := gs.map fun (_, g) => (List.range 4).map fun q => (g.queue q).entries depth
  let qPart := joinParts (qs.flatMap fun l => l.flatMap fun es => es.map fun e => (4 * w, e.toNat % 2 ^ (32 * w)))
  let banks := joinParts (v.banks.map fun (_, b) => b.part)
  let envs := joinParts (mops.map (s.matrixEnvelope pool w))
  let accs := joinParts (gs.filterMap fun (_, g) => g.acc.map Acc.part)
  let copies := joinParts (v.copies.map fun (_, y) => y.part)
  let colls := joinParts ((s.lodra.colls.filter fun (_, c) => c.team == team).map fun (_, c) => c.part)
  let recv := joinParts (v.recv.map fun (h, q, r) => recvPart h q r)
  let bulk := [pages, qPart, banks, envs, accs, copies, colls, recv]
  let starts := bulk.foldl (fun (l : List Nat) p => l ++ [l.getLastD 0 + p.1]) [0]
  let qAts := qs.foldl (fun ((l, a) : List (List (Nat × Nat)) × Nat) g =>
    let (m, a) := g.foldl (fun ((m, a) : List (Nat × Nat) × Nat) es => (m ++ [(a, 4 * w * es.length)], a + 4 * w * es.length)) ([], a)
    (l ++ [m], a)) ([], pages.1)
  let bar (i : Nat) : Nat := let b : Barrier := t.bars.get {} i; (if b.phase then 1 else 0) + 2 * (b.arrivals % 2 ^ 15) + 2 ^ 16 * b.expected
  let header := layOut (packed 0 ([(8, t.ctx), (8, gr.descAt.toNat), (8, t.idx), (1, v.kind), (1, v.core), (2, d.gpt), (4, pool.length)]
      ++ (List.range 16).map (fun i => (4, bar i)) ++ [(8, 2 ^ d.spages - 1)]
      ++ (bulk.zip starts).flatMap fun (p, a) => [(4, a), (4, p.1)]))
  [(256, header)]
    ++ (gs.zip qAts.1).map (fun ((old, g), qAt) =>
      (16384, g.record d.dirs pool (t.envs.filter fun (_, o) => 64 * o.core + o.slot == old) qAt))
    ++ [joinParts ((pool.map fun x => (4 * w, x)) ++ bulk)]

/-- The lines of a saved team's image. -/
def State.imageLines (s : State) (team : Nat) (t : Team) (v : Saved) : List Line := (s.imageParts team t v).flatMap partLines

/-! ## Its traffic (R102, R154) -/

/-- The lowest free save area of a partition, one for each of the 64 team slots of a unit: 2 MiB of the upper half of the management
memory of its channel, and two for a pair team, which has a slot on either core (R122, log 118). -/
def State.freeArea (s : State) (part : Nat) (pair : Bool) : Option Nat :=
  let areas (base : Nat) (two : Bool) : List Nat := if two then [base, base + 2097152] else [base]
  let used := s.sched.teams.flatMap fun (_, t) => match t.area with | some a => areas a.base t.pair | none => []
  let n := if pair then 2 else 1
  ((s.partUnits part).map channelOfSlice).findSome? fun c =>
    ((List.range (64 / n)).map fun k => c * 2 ^ 33 + 0x1F8000000 + 2097152 * n * k).find? fun a => (areas a pair).all fun b => !used.contains b

/-- Write the image of a team that has been put aside into a save area. -/
def State.writeImage (s : State) (team base router : Nat) : State :=
  match s.team? team with
  | none => s
  | some t =>
    match t.saved with
    | none => s
    | some v =>
      let ls := s.imageLines team t v
      let (s, id) := s.startMgmt (.image team) router (s.ctxPart t.ctx) (ls.mapIdx fun i d => (base + 128 * i, some d))
      s.updTeam team fun t => { t with area := some { base, lines := ls.length, op := some id } }

/-- Read the image of a resumed team back to its core: its groups do not issue before it has come. -/
def State.readImage (s : State) (team router : Nat) : State :=
  match s.team? team with
  | none => s
  | some t =>
    match t.area with
    | none => s
    | some a =>
      let (s, id) := s.startMgmt (.image team) router (s.ctxPart t.ctx) ((List.range a.lines).map fun i => (a.base + 128 * i, none))
      s.updTeam team fun t => { t with area := some { a with op := some id } }

/-- Whether a team's image is in its save area, or it has none. -/
def Team.imageWritten (t : Team) : Bool := match t.area with | some a => a.op.isNone | none => true

end Sys2Proof.Machine
end

