-- ==== Sys2Proof/Machine/Preempt.lean ====
section
/-! DEFINITION. Pre-emption, saved teams and their resumption, migration, displacement and the distributor's rounds
(R50, R74, R108, R109, R120 to R124, R129 to R136, R193, R207, R216, R360, R376, R392). -/

namespace Sys2Proof.Machine

/-! ## Stops (R131, R132) -/

/-- Whether a path stands in a parked position (R131, R254, R360), or waits at a JOIN for paths that do. -/
def Path.parkedPos (p : Path) : Bool :=
  p.dstop || match p.wait with
  | .barrier _ | .mem .. | .sleep _ | .join | .counter .. => true
  | .none => match p.park with | some (.barPhase _ _) | some (.busy _) | some (.token _) => true | _ => false

/-- Whether a group has a fence token outstanding. -/
def Group.tokenOut (g : Group) : Bool := g.tokens.any fun (_, t) => t.out

/-- Whether a group is at a position where a cooperative request stops it: its live-mask word, if it is a safe point. One all of
whose paths are debug-stopped is parked, wherever it stands (R254). -/
def Group.stopPoint (g : Group) : Option (Option W32) :=
  if g.tokenOut then none
  else if g.paths.all fun p => !p.valid || p.dstop then some none
  else match g.atSafe with
    | some m => some (some m)
    | none => if g.paths.all fun p => !p.valid || p.parkedPos then some none else none

/-- A path as a pre-emption leaves it: an instruction that has not retired, WAITMEM among them, issues again on resume
(R132, R294). -/
def Path.halt (p : Path) : Path := { p with park := none, desc := none, wait := match p.wait with | .mem .. => .none | w => w }

/-- The trace records of a group's unexited paths at a stop or a resumption (R245, log 97). -/
def State.traceGroup (s : State) (core slot kind det : Nat) (arg : W64) : State :=
  match s.group? core slot with
  | none => s
  | some g => ((List.range 8).filter fun i => (g.path i).valid).foldl (fun s i => s.tracePath core slot i kind det arg) s

/-- COOPERATIVE_STOP (R131, R136): a group of a team with a pending request stops at a safe point or parked; for a
displacement, parked only. -/
def execCooperativeStop (core slot : Nat) (s : State) : Host.Outcome State Fault Refusal :=
  match s.group? core slot with
  | none => .next s
  | some g =>
    match s.team? g.team with
    | none => .next s
    | some t =>
      if (t.stop ≠ some 0 ∧ t.stop ≠ some 3) ∨ g.stopped ∨ g.done then .next s
      else match g.stopPoint with
        | none => .next s
        | some m =>
          if (g.mbs.any fun (_, b) => b.busy) ∨ (t.stop = some 3 ∧ m.isSome) then .next s
          else .next ((s.updGroup core slot fun g => { g with stopped := true, liveMask := m, paths := g.paths.map Path.halt }).traceGroup core slot 9 0 0)

/-- The last instructions that a path has retired, as far as they are component writers that all stand in the pipe, the youngest
first. -/
def lastWrites (ws : List DWrite) (path pid : Nat) : Nat → Nat → List DWrite
  | 0, _ => []
  | n + 1, k =>
    match ws.find? fun w => w.path == path && w.pid == pid && w.op == 0 && w.nth + 1 == k with
    | some w => w :: lastWrites ws path pid n (k - 1)
    | none => []

/-- The component writers of a path's pipe that a forced halt discards: those after which the path has retired nothing else. One
that a younger instruction has followed cannot be named by the saved PC, and ends (R132, R214, log 115). -/
def Group.discards (g : Group) (i : Nat) : List DWrite :=
  let p := g.path i
  if p.valid && p.wait == .none then lastWrites g.dpipe i p.born g.dpipe.length p.done else []

/-- A path stands again where it stood before an instruction. -/
def Path.backTo (p b : Path) : Path :=
  { p with pc := b.pc, left := b.left, seta := b.seta, setb := b.setb, waitMask := b.waitMask, entry := b.entry, done := b.done, past := b.past }

/-- Discard component writers in a group's pipe: each path goes back to the oldest of its own. A DLD that stands in the pipe waits
for its words again (R132, R214, R392). -/
def Group.dropPipe (g : Group) : Group :=
  let lost := (List.range 8).flatMap g.discards
  { g with
    dpipe := (g.dpipe.filter fun w => !lost.any fun u => u.id == w.id).map fun w => if w.op = 0 then w else { w with ready := false }
    paths := g.paths.mapIdx fun i p => match (g.discards i).getLast? with | some w => p.backTo w.back | none => p }

/-- Stop a group in the cycle of a forced halt: an instruction that has not retired issues again on resume (R132). -/
def State.haltGroup (s : State) (core slot kind : Nat) : State :=
  let was : Bool := (s.group? core slot).any fun g => g.stopped || g.done
  let s := s.updGroup core slot fun g => let g := g.dropPipe
    { g with stopped := true, liveMask := none, paths := g.paths.map Path.halt }
  let s := s.updCore core fun c => c.unwaitAll slot
  if was then s else s.traceGroup core slot 9 kind 0

/-- Whether an MST that is storing makes an operation's requests. -/
def State.storing (s : State) (id : Nat) : Bool :=
  s.cores.any fun (_, c) => c.banks.any fun (_, b) => b.q.any fun m => m.op == some id && m.storing

/-- Whether a forced halt makes an envelope of an operation: a load or a fill, a scratchpad access that has not performed, or a tile's,
whose instruction replays whole, unless it is an MST in progress (R132, R376). Remote loads are waited for. -/
def State.enveloped (s : State) (id : Nat) (o : Op) : Bool :=
  !o.remote && (o.kind.isLoad || match o.kind with | .fill | .mld | .stsp => true | .atsp _ _ => o.left != 0 | .mst => !s.storing id | _ => false)

/-- Whether a forced halt drops an operation, whose engine begins it again (R132). -/
def Op.dropped (o : Op) : Bool := match o.kind with | .copyRead | .descRead => true | _ => false

/-- Entries that an instruction in progress has popped go back to their queue (R376). -/
def State.unpop (s : State) (core slot : Nat) (popped : List (Nat × VReg)) : State :=
  s.updGroup core slot fun g => popped.foldl (fun (g : Group) ((q, _) : Nat × VReg) =>
    let u := g.queue q
    g.setQueue q { u with head := u.head - 1, held := u.held - 1 }) g

/-- The instructions of a halted bank's queue go back to their start; a store in progress completes. Where an MMA or an MML is
discarded the engine's reservation is free at once, between the steps of an MML too (R132, R147, R376). -/
def State.haltBank (s : State) (core h : Nat) : State :=
  match (s.core core).banks.find h with
  | none => s
  | some b =>
    match b.q with
    | [] => s
    | m :: rest =>
      let again (m : MOp) : MOp := { m with step := 0, replay := true }
      if m.storing then s.updBank core h fun b => { b with q := m :: rest.map again }
      else
        let between := m.kind == .mml && 0 < m.step && (s.core core).lastBank == h
        let s := if b.started || between then s.slewFree .matrix core 0 else s
        let s := if b.started then s.endTileUnit core m.ctx else s
        let s := (s.slewForget .matrix core 0).unpop core m.slot b.popped
        s.updBank core h fun b => { b with
          tiles := b.shadow.getD b.tiles, shadow := none, started := false, popped := [], q := (m :: rest).map again }

/-- Collectives of a halted team that wait for GO: this peer is no longer hoisted (R74). -/
def State.haltColls (s : State) (team : Nat) : State :=
  (s.lodra.colls.filter fun (_, c) => c.team == team && c.st == .wait).foldl (fun s (k, c) =>
    if c.coord = s.devId then
      { s with lodra := { s.lodra with colls := s.lodra.colls.put k { c with hoisted := c.hoisted &&& ~~~(1#64 <<< s.devId) } } }
    else match s.jobRoute c.ctx c.job c.coord with
      | some r => s.sendSystem r 0x34 c.job c.inst 0
      | none => s) s

/-- FORCED_HALT (R132): every group of the team stops, and what is in flight is resolved. A migration's halt stays one, and
a second halt adds to the envelopes of the first. -/
def execForcedHalt (team kind : Nat) (s : State) : Host.Outcome State Fault Refusal :=
  match s.team? team with
  | none => .next s
  | some t =>
    if t.core.isNone ∨ t.saved.isSome then .next s
    else
      let kind := if kind = 2 ∨ t.stop = some 2 then 2 else 1
      let s := (s.groupsOf team).foldl (fun s (c, sl) => s.haltGroup c sl kind) s
      let s := t.cores.foldl (fun s c => [0, 1].foldl (fun s h =>
        if ((s.core c).banks.get {} h).isOf team then s.haltBank c h else s) s) s
      let mine (o : Op) : Bool := o.team == team && o.core < 256 && t.cores.contains o.core
      let envs := s.ops.filter fun (id, o) => mine o && s.enveloped id o
      let lost (id : Nat) (o : Op) : Bool := mine o && (s.enveloped id o || (o.dropped && !s.feedsChunk id))
      let gone (id : Nat) : Bool := s.ops.any fun (k, o) => k == id && lost k o
      let s := { s with
        ops := s.ops.filter fun (k, o) => !lost k o
        pkts := s.pkts.map fun (k, (p : Pkt)) => (k, if gone p.opId then { p with opId := 0 } else p) }
      let s := t.cores.foldl (fun s c => s.updCore c fun k => { k with
        copies := k.copies.map fun (i, (y : Copy)) => (i, if y.team = team ∧ !y.started then { y with read := none } else y) }) s
      .next ((s.updTeam team fun t => { t with stop := some kind, envs := t.envs ++ envs }).haltColls team)

/-- COOPERATIVE_WINDOW_EXPIRY (R129): teams still resident when the window ends are halted by force. -/
def execCooperativeWindowExpiry (req : Nat) (s : State) : Host.Outcome State Fault Refusal :=
  match s.sched.preempts.find req with
  | none => .next s
  | some p =>
    match p.due with
    | none => .next s
    | some d =>
      if s.now < d then .next s
      else
        let still := p.teams.filter fun t => match s.team? t with | some t => t.core.isSome && t.saved.isNone | none => false
        let s := { s with sched := { s.sched with preempts := s.sched.preempts.erase req } }
        let s := match p.cluster with
          | some c => if s.clState c = 3 ∧ !still.isEmpty then s.setClState c 4 else s
          | none => s
        .next (s.push (still.map fun t => .forcedHalt t 1))

/-! ## Saving (R50, R131, R133, R216, R376) -/

/-- Whether no request that bears a group's next tag is outstanding: the tag is not reused before (R132). -/
def State.tagFree (s : State) (core slot : Nat) (tag : BitVec 4) : Bool :=
  s.pkts.all fun (_, p) => !(p.core == core && p.slot == slot && p.gen == tag &&
    match s.ops.find p.opId with
    | some o => (match o.kind with | .scrub _ | .traceWrite => false | _ => true)
    | none => true)

/-- Whether everything in flight of a stopped team is resolved. -/
def State.drained (s : State) (team : Nat) (t : Team) (coop : Bool) : Bool :=
  (s.ops.all fun (_, o) => !(o.team == team && t.cores.contains o.core) || match o.kind with | .collRead | .collWrite _ => true | _ => false) &&
    t.cores.all fun c =>
      let k := s.core c
      (k.copies.all fun (_, y) => y.team != team || (!y.started && !coop)) &&
      (k.banks.all fun (_, b) => !b.isOf team || if coop then b.q.isEmpty else !b.q.any MOp.storing) &&
      k.groups.all fun (sl, g) => g.team != team ||
        (g.stopped && !g.done && (if coop then g.dpipe.isEmpty && (List.range 6).all fun i => g.ctr i == 0 else (firstWrite [] g.dpipe).isNone) &&
          (g.mbs.all fun (_, b) => !b.busy || b.retry.isSome) && s.tagFree c sl (g.gen + 1))

/-- Bits of a live-mask word (R130). -/
def liveBit (m : W32) (i : Nat) : Bool := m.getLsbD i

/-- What a cooperative stop at a safe point keeps of a group (R130, R131); `affine` keeps its access thread. -/
def Group.keepLive (g : Group) (d : Desc) (m : W32) (affine mail : Bool) : Group :=
  { g with
    v := g.v.filter fun (r, _) => liveBit m (r / 8)
    d := g.d.filter fun (r, _) => liveBit m (8 + r / 8)
    s := g.s.filter fun (r, _) => liveBit m (12 + r / 32)
    queues := g.queues.filter fun (q, _) => liveBit m (18 + q)
    p := if liveBit m 22 then g.p else []
    k := if liveBit m 22 then g.k else 0
    cb := if liveBit m 24 then g.cb else 0
    mbg := if mail then g.mbg else []
    acc := if affine || d.aentry = 0 then g.acc else some { pc := d.aentry } }

/-- A group as it is saved. -/
def Group.image (g : Group) (d : Desc) (affine mail : Bool) : Group :=
  let g := { (if g.redraw then g.setGsr 3 else g) with
    v := g.unplaced.foldl (fun m (r, x) => SMap.set 0 m r x) g.v, unplaced := [], snap := none, redraw := false, replays := 0, restoring := false }
  match g.liveMask with
  | some m => g.keepLive d m affine mail
  | none => g

/-- The half of a pair that a core is. -/
def Team.half (t : Team) (core : Nat) : Nat := if t.pair then core % 2 else 0

/-- Take a stopped team off its cores, with its image kept (R133). -/
def State.saveTeam (s : State) (team : Nat) (t : Team) (kind : Nat) : State :=
  let d := (s.grid t.grid).desc
  let mine := (s.groupsOf team).filterMap fun (c, sl) => (s.group? c sl).map fun g => (c, sl, g)
  let any (p : W32 → Bool) : Bool := mine.any fun (_, _, g) => match g.liveMask with | some m => p m | none => true
  let affine := any fun m => m.toNat / 2 ^ 18 % 16 != 0
  let mail := any fun m => liveBit m 25
  let keepBank := any fun m => liveBit m 23
  let recv := t.cores.flatMap fun c => ((s.core c).recv.filter fun (_, r) => r.team == team).map fun (q, r) => (t.half c, q, r)
  let v : Saved :=
    { kind, core := t.core.getD 0
      groups := mine.map fun (c, sl, g) => (64 * c + sl, g.image d affine mail)
      copies := t.cores.flatMap fun c => ((s.core c).copies.filter fun (_, y) => y.team == team).map fun (i, y) => (64 * t.half c + i, { y with read := none })
      banks := if !keepBank then [] else t.banksDue ++ t.cores.flatMap fun c => ((s.core c).banks.filter fun (_, b) => b.isOf team).map fun (_, b) =>
        (t.half c, { b with q := b.q.map fun m => { m with refs := [] } })
      recv := if mail then recv.map fun (h, q, (r : RecvQ)) => (h, q, { r with waiters := [] }) else [] }
  let s := t.cores.foldl (fun s c =>
    let s := [0, 1].foldl (fun s h => if ((s.core c).banks.get {} h).isOf team then s.dropBank c h else s) s
    s.updCore c fun k => { k with
      copies := k.copies.filter fun (_, y) => y.team != team
      recv := k.recv.filterMap fun (q, (r : RecvQ)) =>
        if r.team != team then some (q, r) else if mail then some (q, { r with st := 2, msgs := [], waiters := [] }) else none }) s
  let s := mine.foldl (fun s (c, sl, g) => (s.dropGroup c sl).updCore c fun k => { k with gens := SMap.set 0 k.gens sl (g.gen + 1) }) s
  s.updTeam team fun t => { t with core := none, stop := none, saved := some v, pages := [], banksDue := [] }

/-- Put a team into its context's resume list: a displaced one directly behind the first (R120, R136). -/
def State.listResume (s : State) (team : Nat) (t : Team) (place : Nat) : State :=
  let l := s.sched.resume.get [] t.ctx
  { s with sched := { s.sched with resume := s.sched.resume.put t.ctx (l.take place ++ [team] ++ l.drop place) } }

/-! ## Resumption (R50, R74, R132, R193, R207, R376) -/

/-- The name of a value that a group of the same team and width holds on its core: the image has each value once (R133, R207). -/
def State.sharedName (s : State) (core slot : Nat) (x : VReg) : Option (BitVec 14) :=
  match s.group? core slot with
  | none => none
  | some g => ((s.core core).groups.filter fun (_, h) => h.team == g.team && h.wc == g.wc).findSome? fun (_, h) =>
      h.v.findSome? fun (r, y) => if y = x ∧ (h.unplaced.find r).isNone then h.vname.find r else none

/-- Map V register r to a value that stands under a name (R206). -/
def State.mapName (s : State) (core slot r : Nat) (x : VReg) (name : BitVec 14) : State :=
  match s.group? core slot with
  | none => s
  | some g =>
    match mapKey g.wc name with
    | none => s
    | some k => (s.updCore core fun c => { c with pvrs := c.pvrs.upd k fun p => p.hold s.stamp }).bump.updGroup core slot fun g =>
        { g with v := SMap.set 0 g.v r x, vname := SMap.set 0 g.vname r name }

/-- Place the saved values of a group that are not placed yet, each distinct value once; the rest wait (R133, R207). -/
def State.placeValues (s : State) (core slot : Nat) : SMap VReg → State
  | [] => s.updGroup core slot fun g => { g with unplaced := [] }
  | (r, x) :: vs =>
    match s.sharedName core slot x with
    | some name => (s.mapName core slot r x name).placeValues core slot vs
    | none =>
      match s.writeV core slot r x with
      | some (s, _, _) => s.placeValues core slot vs
      | none => s.updGroup core slot fun g => { g with unplaced := (r, x) :: vs }

/-- Where each saved group now stands: old place, core, slot and tag. -/
abbrev Moves := List (Nat × Nat × Nat × BitVec 4)

def movedTo (ms : Moves) (core slot : Nat) : Option (Nat × Nat × BitVec 4) :=
  (ms.find? fun e => e.1 == 64 * core + slot).map Prod.snd

/-- Send an envelope again (R132), or a tile's at the turn of its instruction in the bank's queue (R376). Its result enters no table:
its sources' names are those of the core that it left (R192, R208). -/
def State.replayEnv (s : State) (ms : Moves) (team id : Nat) (o : Op) : State :=
  match movedTo ms o.core o.slot with
  | none => s
  | some (core, slot, gen) =>
    let o := { o with core, slot, gen, got := [], key := none }
    let s := { s with ops := s.ops.put id o }
    let lns := match o.kind, s.team? team with
      | .fill, some t => o.lines.filterMap fun ln => (t.regionOf ln).map fun (_, r) => r.globalLine ln
      | _, _ => touchedLines o.lanes o.size
    match o.kind with
    | .ldsp _ _ | .stsp | .atsp _ _ => { s with ops := s.ops.put id { o with left := 2 }, turns := s.turns ++ [.spad id] }
    | .mld | .mst => { s with ops := s.ops.put id { o with left := 0 } }
    | .pref => s.sendFor id (lns.map fun ln => s.request id o 6 (128 * ln))
    | _ => s.sendFor id (s.reads id o lns)

/-- Place a saved team at a core (R193): its groups, copies, bank and queues come back, its core's L1 and epoch move on,
and its envelopes are sent before it issues. -/
def State.resumeTeam (s : State) (team core : Nat) : State :=
  match s.team? team with
  | none => s
  | some t =>
    match t.saved with
    | none => s
    | some v =>
      let d := (s.grid t.grid).desc
      let pages := s.freshPages d core
      let s := { s with
        cores := s.cores.map fun (n, (c : Core)) => (n, { c with recv := c.recv.filter fun (_, r) => r.team != team })
        sched := { s.sched with resume := s.sched.resume.map fun (c, (l : List Nat)) => (c, l.erase team) } }
      let s := s.updTeam team fun t => { t with core := some core, saved := none, envs := [], pages, placedAt := s.now, reclaimed := false, dest := none, holds := none }
      let old0 (half : Nat) : Nat := if t.pair then v.core - v.core % 2 + half else v.core
      let sorted := (List.range 64).flatMap fun n => v.groups.filter fun (_, g) => g.num == n
      let (s, ms) := sorted.foldl (fun ((s, ms) : State × Moves) (old, g) =>
        let c := d.coreOf core g.num
        let redraw := g.gsrBit 3 && d.vext != 0
        let due := (v.banks.filter fun e => !t.pair || e.1 == c % 2).foldl (fun n e => n + 1 + (e.2.q.filter fun m => 64 * old0 e.1 + m.slot == old).length) 0
        let (s, slot) := s.seat c { (if redraw then g.clrGsr 3 else g) with
          v := [], vname := [], stopped := false, liveMask := none, atSafe := none, redraw, replays := due, restoring := t.area.isSome }
        let gen := match s.group? c slot with | some g => g.gen | none => 0
        let s := s.traceGroup c slot 10 0 (BitVec.ofNat 64 (old / 64))
        (s.placeValues c slot g.v, ms ++ [(old, c, slot, gen)])) (s, [])
      let coreAt (half : Nat) : Nat := if t.pair then core - core % 2 + half else core
      let s := v.copies.foldl (fun s (k, y) =>
        match (s.core (coreAt (k / 64))).freeCopySlot, movedTo ms (old0 (k / 64)) y.slot with
        | some i, some (c, slot, gen) => s.updCore c fun k => { k with copies := k.copies.put i { y with slot, gen } }
        | _, _ => s) s
      let mapped := v.banks.map fun (half, b) => (half, { b with
        q := b.q.map fun m => match movedTo ms (old0 half) m.slot with | some (_, slot, gen) => { m with slot, gen } | none => m })
      let s := s.updTeam team fun t => { t with banksDue := mapped }
      let s := mapped.foldl (fun s (half, _) => s.installBank (coreAt half)) s
      let s := v.recv.foldl (fun s (half, q, r) => s.updCore (coreAt half) fun k => { k with recv := k.recv.put q r }) s
      let s := (if t.pair then [coreAt 0, coreAt 1] else [core]).foldl (fun s c =>
        (s.dropL1 c (s.ctxSg t.ctx)).updCore c Core.advance) s
      let s := (s.lodra.colls.filter fun (_, c) => c.team == team).foldl (fun s (k, c) =>
        match movedTo ms c.core c.slot with
        | none => s
        | some (core, slot, gen) =>
          let c := { c with core, slot, gen }
          if c.st = .wait ∧ c.coord = s.devId then
            ({ s with lodra := { s.lodra with colls := s.lodra.colls.put k { c with hoisted := c.hoisted ||| 1#64 <<< s.devId } } } : State).tryGo k
          else
            let s := { s with lodra := { s.lodra with colls := s.lodra.colls.put k c } }
            if c.st = .wait then match s.jobRoute c.ctx c.job c.coord with | some r => s.sendSystem r 0x31 c.job c.inst 0 | none => s
            else s) s
      let s := s.readImage team (coreRouter core)
      let s := t.envs.foldl (fun s (id, o) => s.replayEnv ms team id o) s
      (s.clusterGains t.ctx core).noteCore t.ctx core t.pair

/-- TEAM_OFF_CORE (R131 to R133): the unexited groups have stopped and everything in flight is resolved; the team is saved
and leaves; the requests that named it no longer do (R129). A migrating team goes to its destination (R135). -/
def execTeamOffCore (team : Nat) (s : State) : Host.Outcome State Fault Refusal :=
  match s.team? team with
  | none => .next s
  | some t =>
    match t.stop with
    | none => .next s
    | some kind =>
      if t.core.isNone ∨ t.saved.isSome ∨ t.area.isSome ∨ !s.resident team ∨ !s.drained team t (kind = 0 ∨ kind = 3) then .next s
      else match s.freeArea (s.ctxPart t.ctx) t.pair with
      | none => .next s
      | some base =>
        let core := t.core.getD 0
        let s := (s.saveTeam team t (if kind = 3 then 0 else kind)).clusterLoses (core / 2)
        let s := { s with sched := { s.sched with preempts := s.sched.preempts.map fun (k, (p : Preempt)) => (k, { p with teams := p.teams.erase team }) } }
        let s := (s.askRound (s.ctxPart t.ctx)).writeImage team base (coreRouter core)
        .next (if kind = 2 then s else s.listResume team t (if kind = 3 then 1 else (s.sched.resume.get [] t.ctx).length))

/-- The image of a team has been written, and the team may resume, a migrating one at its destination (R135); or it has been read
back, and its groups issue. -/
def State.imageGoes (s : State) (id team : Nat) : State :=
  let s := s.dropOp id
  match s.team? team with
  | none => s
  | some t =>
    match t.area, t.saved with
    | none, _ => s
    | some a, none =>
      if a.op ≠ some id then s
      else
        let s := s.updTeam team fun t => { t with area := none }
        (s.groupsOf team).foldl (fun s (c, sl) => s.updGroup c sl fun g => { g with restoring := false }) s
    | some a, some v =>
      if a.op ≠ some id then s
      else
        let s := (s.updTeam team fun t => { t with area := some { a with op := none } }).askRound (s.ctxPart t.ctx)
        if v.kind = 2 then
          match s.team? team, t.dest with
          | some u, some c => if s.passes u (s.grid t.grid).desc c then s.resumeTeam team c else s.listResume team t 0
          | _, _ => s.listResume team t 0
        else s

/-- Whether an operation's data has returned and waits for a place in its core's register file (R203). -/
def Op.awaitsPlace (o : Op) (core : Nat) : Bool :=
  o.core == core && o.left == 0 && match o.kind with | .load _ _ | .atom _ _ | .ldsp _ _ | .atsp _ _ => true | _ => false

/-- REGISTER_ALLOCATION_RETRY (R203, R207): saved values that found no place, and results that wait for one, are tried
again. -/
def execRegisterAllocationRetry (core : Nat) (s : State) : Host.Outcome State Fault Refusal :=
  let s := (s.ops.filter fun (_, o) => o.awaitsPlace core).foldl (fun s (id, _) => s.finishOp id) s
  let s := (s.core core).groups.foldl (fun s (sl, g) => if g.unplaced.isEmpty then s else s.placeValues core sl g.unplaced) s
  .next ((s.core core).groups.foldl (fun s (sl, g) =>
    (s.wakeable core sl g).foldl (fun s i => s.updPath core sl i fun p => if p.park = some .place then { p with park := none } else p) s) s)

/-! ## Hot spots (R135) -/

/-- The team of a list that was placed last. -/
def youngest (ts : List (Nat × Team)) : Option (Nat × Team) :=
  ts.foldl (fun m e => match m with
    | none => some e
    | some b => if b.2.placedAt < e.2.placedAt ∨ (b.2.placedAt = e.2.placedAt ∧ b.2.stamp < e.2.stamp) then some e else m) none

/-- Teams, the one placed last first. -/
def youngestFirst : Nat → List (Nat × Team) → List Nat
  | 0, _ => []
  | n + 1, ts => match youngest ts with
    | some e => e.1 :: youngestFirst n (ts.filter fun x => x.1 != e.1)
    | none => []

/-- Whether a team may be migrated (R135). -/
def State.mayMigrate (s : State) (id : Nat) (t : Team) : Bool :=
  !t.pair && t.saved.isNone && (t.cores.all fun c => (s.core c).copies.all fun (_, y) => y.team != id) &&
    (s.lodra.colls.all fun (_, c) => c.team != id) &&
    match t.migrated with | some m => decide (m + 1000000 ≤ s.now) | none => true

/-- HOT_SPOT_MIGRATION (R135): the youngest eligible team of a hot core goes to the coolest core of its region that
passes. -/
def execHotSpotMigration (core : Nat) (s : State) : Host.Outcome State Fault Refusal :=
  match s.partOfUnit (unitOfCore core) with
  | none => .next s
  | some part =>
    if s.rfld (.psched part) 16 1 = 0 ∨ s.rfld (.ctemp core) 8 1 = 0 then .next s
    else
      let ok := (s.teamsOn core).filter fun (k, t) => s.mayMigrate k t && s.resident k
      match youngest ok with
      | none => .next s
      | some (k, t) =>
        let d := (s.grid t.grid).desc
        let dests := (s.region t.ctx).filter fun c => c != core && s.rfld (.ctemp c) 8 1 == 0 && s.passes t d c
        match leastBy (fun c : Nat => s.rfld (.ctemp c) 0 8 * 256 + c) dests with
        | none => .next s
        | some c => .next ((s.updTeam k fun t => { t with dest := some c, migrated := some s.now }).requestStop [k] 2 none none)

/-! ## Lending (R108, R110) -/

/-- The team that a grid would place next, before it is placed. -/
def Grid.nextTeam (g : Grid) (gid : Nat) : Team := { grid := gid, ctx := g.ctx, idx := g.next, pair := g.desc.pair }

/-- The cores at which a team is tried on a cluster. -/
def clusterTries (d : Desc) (c : Nat) : List Nat := if d.pair then [2 * c] else [2 * c, 2 * c + 1]

/-- The queues of a context, and those that still hold grids of it. -/
def State.workQueues (s : State) (ctx : Nat) : List Nat :=
  (List.range 64).filter fun q => s.queueCtx q == some ctx || ((s.headGrid q).any fun (_, g) => g.ctx == ctx)

/-- Whether an owner's home cluster is idle for it (R108): no team of it there, and none that could be placed there. -/
def State.ownerIdle (s : State) (owner cluster : Nat) : Bool :=
  !(s.sched.teams.any fun (_, t) => t.ctx == owner && t.cores.any fun k => k / 2 == cluster) &&
    ((s.workQueues owner).all fun q => match s.headGrid q with
      | some (gid, g) => g.ctx != owner || (clusterTries g.desc cluster).all fun c => !s.passes (g.nextTeam gid) g.desc c
      | none => true) &&
    (s.sched.resume.get [] owner).all fun k => match s.team? k with
      | some t => (clusterTries (s.grid t.grid).desc cluster).all fun c => !s.passes t (s.grid t.grid).desc c
      | none => true

/-- Since when each home cluster has been idle for its owner, whether or not it lends yet (R108). -/
def State.trackIdle (s : State) : State :=
  let idle := (List.range 128).foldl (fun m c =>
    match s.clOwner c with
    | none => SMap.erase m c
    | some o => sinceWhen m c s.now (s.clState c == 0 && s.ownerIdle o c)) s.sched.idle
  { s with sched := { s.sched with idle } }

/-- LEND_DELAY_EXPIRY (R108): the owner has left its cluster idle for LENDDLY µs. -/
def execLendDelayExpiry (cluster : Nat) (s : State) : Host.Outcome State Fault Refusal :=
  let s := s.trackIdle
  match s.clOwner cluster, s.sched.idle.find cluster with
  | some o, some t0 =>
    if s.clState cluster = 0 ∧ s.rfld (.ctxcfg o) 15 1 = 1 ∧ t0 + 1000 * s.rfld (.ctxcfg o) 18 16 ≤ s.now then
      .next ((s.setClState cluster 1).askRound (s.ctxPart o))
    else .next s
  | _, _ => .next s

/-! ## Rounds (R111, R120 to R124, R136) -/

/-- The machine as it would be without some teams on their cores: to ask whether another team would pass. -/
def State.without (s : State) (teams : List Nat) : State :=
  let cut (c : Core) : Core :=
    let groups := c.groups.filter fun (_, g) => !teams.contains g.team
    { c with
      groups
      slots := c.slots.filter fun (_, x) => groups.any fun (_, g) => g.ctx == x.ctx
      recv := c.recv.filter fun (_, r) => !teams.contains r.team
      copies := c.copies.filter fun (_, y) => !teams.contains y.team
      banks := c.banks.filter fun (_, b) => !teams.any fun t => b.team == some t }
  { s with
    cores := s.cores.map fun (n, c) => (n, cut c)
    sched := { s.sched with teams := s.sched.teams.filter fun (k, _) => !teams.contains k } }

/-- Whether every unexited group of a team is in WAITMEM or at a barrier (R136). -/
def State.idleTeam (s : State) (team : Nat) : Bool :=
  (s.groupsOf team).all fun (c, sl) => match s.group? c sl with
    | some g => g.done || g.paths.all fun p => !p.valid || match p.wait with | .barrier _ | .mem .. | .join => true | _ => false
    | none => true

/-- Candidates on some cores for displacement, youngest first (R136). -/
def State.candidates (s : State) (ctx : Nat) (cores : List Nat) : List Nat :=
  let cs := s.sched.teams.filter fun (k, t) => (t.cores.any cores.contains) && t.ctx == ctx && t.stop.isNone && t.saved.isNone && s.resident k && s.idleTeam k
  youngestFirst cs.length cs

/-- Which candidates of a core, or of a pair team's cluster, must go for a team to pass there (R136). -/
def State.removals (s : State) (t : Team) (d : Desc) (core : Nat) : Option (List Nat) :=
  let cs := s.candidates t.ctx (if d.pair then [core - core % 2, core - core % 2 + 1] else [core])
  ((List.range (cs.length + 1)).map fun n => cs.take n).find? fun l => (s.without l).passes t d core

/-- DISPLACEMENT (R136): the fewest parked teams of the context make room for its reclaimed team, and the core that they
leave is kept for it. -/
def State.displace (s : State) (team : Nat) (t : Team) (d : Desc) : State :=
  if s.sched.teams.any fun (_, u) => u.ctx == t.ctx && u.stop == some 3 then s
  else
    let cores := if d.pair then (s.region t.ctx).filter fun c => c % 2 == 0 else s.region t.ctx
    let opts := cores.filterMap fun c => (s.removals t d c).map fun l => (c, l)
    match leastBy (fun e : Nat × List Nat => e.2.length * 256 + e.1) opts with
    | some (c, l) => (s.updTeam team fun t => { t with holds := some c }).requestStop l 3 none none
    | none => s

/-- Try the resume list of a context, oldest stop first (R120); whether any team came back. -/
def State.tryResume (s : State) (ctx : Nat) : State × Bool :=
  let l := s.sched.resume.get [] ctx
  l.foldl (fun ((s, did) : State × Bool) k =>
    match s.team? k with
    | none => (s, did)
    | some t =>
      let d := (s.grid t.grid).desc
      let first := match t.saved with | some v => (s.region ctx).filter (· == v.core) | none => []
      match if t.imageWritten then (first ++ s.tryOrder ctx d.pair).find? fun c => s.passes t d c else none with
      | some c => (s.resumeTeam k c, true)
      | none => if t.imageWritten ∧ t.reclaimed ∧ (s.sched.resume.get [] ctx).head? = some k then (s.displace k t d, did) else (s, did)) (s, false)

/-- Whether an aged head of another queue bars a core for a queue (R124). -/
def State.barred (s : State) (q core : Nat) : Bool :=
  s.sched.aged.any fun (q', t') =>
    q' != q && ((s.headGrid q').any fun (_, g) => (s.region g.ctx).contains core) &&
      match s.sched.aged.find q with
      | some t => decide (t' < t ∨ (t' = t ∧ q' < q))
      | none => true

/-- A queue's wait clock clears when its head is placed. -/
def State.clearClock (s : State) (q : Nat) : State :=
  { s with sched := { s.sched with clocks := s.sched.clocks.erase q, aged := s.sched.aged.erase q } }

/-- OWNER_DEMAND_RECALL (R108): the lowest LENT home cluster that the head would fit if its borrowers were gone; one at
a time. -/
def State.demand (s : State) (gid : Nat) (g : Grid) : State :=
  let hs := s.homes g.ctx
  if s.rfld (.ctxcfg g.ctx) 16 1 = 0 ∨ hs.any (fun c => s.clState c == 3 || s.clState c == 4) then s
  else
    let would (c : Nat) : Bool :=
      s.clState c == 2 && (clusterTries g.desc c).any fun k => ((s.without (s.borrowers c g.ctx)).setClState c 0).passes (g.nextTeam gid) g.desc k
    match hs.find? would with
    | some c => s.recallCluster g.ctx c
    | none => s

/-- Try the head of a queue (R123, R124); whether it was placed. -/
def State.tryHead (s : State) (q : Nat) : State × Bool :=
  match s.headGrid q with
  | none => (s, false)
  | some (gid, g) =>
    let t := g.nextTeam gid
    let free (c : Nat) : Bool := if g.desc.pair then !s.barred q (c - c % 2) && !s.barred q (c - c % 2 + 1) else !s.barred q c
    match (s.tryOrder g.ctx g.desc.pair).find? fun c => free c && s.passes t g.desc c with
    | some c => ((s.startTeam gid c).clearClock q, true)
    | none =>
      let s := if (s.sched.clocks.find q).isSome then s else { s with sched := { s.sched with clocks := s.sched.clocks.put q s.now } }
      (s, false)

/-- Owner demand of a queue's head (R108): it fails the resource check on every core of its region. -/
def State.headDemand (s : State) (q : Nat) : State :=
  match s.headGrid q with
  | none => s
  | some (gid, g) =>
    if (s.tryOrder g.ctx g.desc.pair).any fun c => s.passes (g.nextTeam gid) g.desc c then s else s.demand gid g

/-- Try the head of a queue up to `n` times; it moves on early when the head cannot be placed (R111). -/
def State.tryHeads (s : State) (q : Nat) : Nat → State × Bool
  | 0 => (s, false)
  | n + 1 =>
    match s.tryHead q with
    | (s, true) => ((s.tryHeads q n).1, true)
    | (s, false) => (s, false)

/-- The queues a round of a partition visits, in increasing number, with their contexts (R111). -/
def State.roundQueues (s : State) (part : Nat) : List (Nat × Nat) :=
  (List.range 64).filterMap fun q =>
    let ctx := match s.headGrid q with | some (_, g) => some g.ctx | none => s.queueCtx q
    match ctx with
    | some c => if s.ctxValid c && s.ctxPart c == part then some (q, c) else none
    | none => none

/-- DISTRIBUTOR_ROUND (R121): resume lists before heads, each queue by its weight; a round that placed a team is
followed by another. -/
def execDistributorRound (part : Nat) (s : State) : Host.Outcome State Fault Refusal :=
  let s := { s with sched := { s.sched with round := s.sched.round.filter fun p => p ≠ part } }
  let (s, did) := (s.roundQueues part).foldl (fun ((s, did) : State × Bool) (q, ctx) =>
    let (s, a) := s.tryResume ctx
    if (s.sched.resume.get [] ctx).isEmpty then
      let (s, b) := s.tryHeads q (s.rfld (.hqcfg q) 9 8)
      (s.headDemand q, did || a || b)
    else (s.headDemand q, did || a)) (s, false)
  .next (if did then s.askRound part else s)

/-- AGE_LIMIT_REACHED (R124): the head's wait has reached AGE µs. -/
def execAgeLimitReached (queue : Nat) (s : State) : Host.Outcome State Fault Refusal :=
  match s.sched.clocks.find queue, s.headGrid queue with
  | some t0, some (_, g) =>
    if (s.sched.aged.find queue).isNone ∧ t0 + 1000 * s.rfld (.psched (s.ctxPart g.ctx)) 0 16 ≤ s.now then
      .next { s with sched := { s.sched with aged := s.sched.aged.put queue s.now } }
    else .next s
  | _, _ => .next s

/-- WATCHDOG_EXPIRY (R134): the path whose issue brings its group's count to 0 raises class 12 before any effect. -/
def execWatchdogExpiry (s : State) : Host.Outcome State Fault Refusal :=
  match s.cur with
  | none => .next s
  | some c =>
    match s.group? c.core c.slot with
    | none => .next s
    | some g =>
      if (s.descOf g).wdog ∧ g.watchdog ≤ 1 ∧ !c.access then
        .next (({ s with cur := none } : State).takeFault c.core c.slot c.path (g.path c.path).pc 12 0 0)
      else .next s

end Sys2Proof.Machine
end

