-- ==== Sys2Proof/Machine/Commands.lean ====
section
/-! DEFINITION. The sorting office: taking and checking commands, and the ten guest commands (R69 to R71, R80 to R88,
R110, R113, R117 to R119, R155, R163 to R166). -/

namespace Sys2Proof.Machine

/-! ## Checks (R84, R87) -/

/-- The operand bytes of a command that are not reserved, as (first, count) runs (R87). -/
def operandBytes (opc : Nat) : List (Nat × Nat) :=
  match opc with
  | 1 => [(8, 30), (40, 8)]
  | 2 => [(8, 22), (32, 6), (40, 8)]
  | 3 => [(8, 19)]
  | 4 => [(8, 2)]
  | 5 => [(8, 2), (16, 8)]
  | 6 => [(8, 1), (16, 12)]
  | 7 => [(8, 3), (12, 4)]
  | 8 => [(8, 7), (16, 13)]
  | 9 => [(8, 16)]
  | 10 => [(8, 8)]
  | _ => []

/-- Whether a command's reserved bits are zero (R5, R87). -/
def Cmd.reservedZero (c : Cmd) : Bool :=
  c.fld 1 1 < 4 && c.fld 4 4 == 0 &&
    (List.range 56).all fun i => (operandBytes c.opc).any (fun (b, n) => decide (b ≤ i + 8 ∧ i + 8 < b + n)) || c.fld (i + 8) 1 == 0

/-- A semaphore field of LAUNCH or COPYH (R87). -/
def semOk (n : Nat) : Bool := n < 256 || n == 0xFFFF

/-- The edge of a context with a number (R118, R119). -/
def State.findEdge (s : State) (ctx num : Nat) : Option Nat :=
  (List.range 4096).find? fun k => s.rfld (.edgst k) 0 1 == 1 && s.rfld (.edgst k) 1 9 == ctx && s.rfld (.edgst k) 10 10 == num

/-- The first check that a command other than LAUNCH fails, after checks 1 and 2 on its reserved bits. What an unbinding
ROUTE says of ROBN, Q and P, and a destroying EDGE of slots, is not looked at (log 101). A LEASE may not name or overlap any lease
that is not FREE, whatever its state: the model's choice (log 112). -/
def State.fieldCheck (s : State) (c : Cmd) : Option Nat :=
  let u := c.fld
  let first (l : List (Bool × Nat)) : Option Nat := (l.find? fun e => e.1).map Prod.snd
  match c.opc with
  | 1 => first [(u 8 8 % 256 != 0 || 2 ^ 52 ≤ u 8 8 || !semOk (u 36 2) || [u 32 2, u 34 2].any fun e => 1023 < e && e != 0xFFFF, 3)]
  | 2 =>
    let dir := u 29 1
    first [(15 < u 28 1 || 1 < dir || u 32 4 == 0 || 2 ^ 30 < u 32 4 || !semOk (u 36 2) || 2 ^ 52 ≤ u 8 8, 3),
      ((s.heldLease c.ctx (u 8 8) (u 32 4) (if dir = 0 then 1 else 2)).isNone, 2),
      ((s.host.qps.find (qpNum c.ctx (u 28 1))).isNone, 3)]
  | 3 =>
    let size := pageBytes (u 26 1)
    let overlap := (List.range 255).any fun i =>
      let l := s.lease c.ctx i
      l.st != 0 && decide (l.base < u 8 8 + u 16 8) && decide (u 8 8 < l.base + l.len)
    first [(2 ^ 52 ≤ u 8 8 || 2 ^ 52 < u 8 8 + u 16 8 || u 8 8 % 4096 != 0 || u 16 8 % 4096 != 0 || u 24 1 == 255 || 7 < u 25 1 || 3 < u 26 1, 3),
      (u 8 8 % size != 0 || u 16 8 % size != 0 || (s.lease c.ctx (u 24 1)).st != 0 || overlap, 3),
      (16384 ≤ s.msys.leases.length, 4)]
  | 4 =>
    let st := (s.lease c.ctx (u 8 1)).st
    first [(1 < u 9 1, 3), (st == 3 || st == 4, 2), (u 8 1 == 255 || st == 0, 3)]
  | 5 => first [(1 < u 9 1, 3)]
  | 6 => none
  | 7 =>
    let there := (s.findEdge c.ctx (u 8 2)).isSome
    first [(1023 < u 8 2 || 1 < u 10 1 || (u 10 1 == 0 && (u 12 4 == 0 || 65535 < u 12 4)), 3), (there == (u 10 1 == 0), 3)]
  | 8 => first [(63 < u 8 1 || 255 < u 9 2 || 7 < u 11 1 || 3 < u 12 1 || 1 < u 28 1 ||
      (u 28 1 == 0 && (u 18 2 == 0 || 8192 < u 18 2 || u 20 4 == 0 || u 24 4 < u 20 4 || u 24 4 < 1000 || 2 ^ 24 ≤ u 24 4)), 3)]
  | 9 =>
    let n := (s.homes c.ctx).length
    first [(n == 0, 1), (u 8 16 / 2 ^ n != 0, 3)]
  | 10 => first [(u 8 8 % 8 != 0 || 2 ^ 52 ≤ u 8 8, 3), ((s.heldLease c.ctx (u 8 8) 56 2).isNone, 2)]
  | _ => some 3

/-- The status of the first check that a command fails when it is taken (R84). -/
def State.takeCheck (s : State) (c : Cmd) : Option Nat :=
  if !(s.sched.allow.get (BitVec.allOnes 256) c.ctx).getLsbD c.opc then some 1
  else if c.opc = 9 ∧ (s.homes c.ctx).isEmpty then some 1
  else if !c.reservedZero then some 3
  else s.fieldCheck c

/-- What the taking of a command that passed does at once (R84, R163). -/
def State.takeEffect (s : State) (id : Nat) (c : Cmd) : State :=
  match c.opc with
  | 2 => s.updCmd id fun c => { c with lease := s.heldLease c.ctx (c.fld 8 8) (c.fld 32 4) (if c.fld 29 1 = 0 then 1 else 2) }
  | 3 =>
    let l : Lease := { st := 1, base := c.fld 8 8, len := c.fld 16 8, rights := c.fld 25 1, psize := c.fld 26 1, makeCmd := some id }
    s.updMem fun m => { m with leases := m.leases.put (leaseKey c.ctx (c.fld 24 1)) l }
  | 4 =>
    let n := c.fld 8 1
    let s := s.updLease c.ctx n fun l => { l with st := 3, freeCmd := some id }
    if c.fld 9 1 = 1 then s.revoke c.ctx n else s.killRings c.ctx n
  | 10 => s.updCmd id fun c => { c with lease := s.heldLease c.ctx (c.fld 8 8) 56 2 }
  | _ => s

/-- A slot as it is read while writes to it come: each 8-byte word is one that it held since it was exposed (R83). -/
def mixWords (free : Nat) (was : List (BitVec 512)) (now : BitVec 512) : BitVec 512 :=
  if was.isEmpty then now
  else
    let word (i : Nat) : Nat := ((was ++ [now])[Config.choice ((free + 1) * 2 ^ 64 + i) % (was.length + 1)]?.getD now).toNat / 2 ^ (64 * i) % 2 ^ 64
    BitVec.ofNat 512 (leOf ((List.range 8).flatMap fun i => bytesLE 8 (word i)))

/-- COMMAND_TAKE (R82 to R84): the next exposed slot is copied, and the copy is checked. -/
def execCommandTake (queue : Nat) (s : State) : Host.Outcome State Fault Refusal :=
  match s.queueCtx queue with
  | none => .next s
  | some ctx =>
    let r := s.ring queue
    if !r.isSet ∨ r.dead ∨ r.reset.isSome ∨ r.head = r.tail ∨ 256 ≤ s.pendOf queue ∨
        (s.sched.cmds.any fun (_, c) => c.queue == queue && c.opc == 1 && c.grid.isNone) then .next s
    else
      let id := s.stamp
      let c := s.slotCmd queue ctx r.head
      let c := { c with fenceFail := r.failed, bytes := mixWords s.free r.was c.bytes }
      let s := if r.was.isEmpty then s else s.chose
      let s := ({ s.bump with sched := { s.sched with cmds := s.sched.cmds.put id c } } : State).updRing queue fun r => { r with head := r.head + 1, was := [] }
      match s.takeCheck c with
      | some st => .next (s.completeCmd id st 0)
      | none => if c.opc = 1 then .next (s.push [.launch id]) else .next ((s.submit queue).takeEffect id c)

/-! ## LAUNCH (R117, R118) -/

/-- The descriptor that 256 bytes hold. -/
def descFrom (img : Nat) : Desc :=
  let u (b n : Nat) : Nat := img / 2 ^ (8 * b) % 2 ^ (8 * n)
  let w (b : Nat) : W64 := BitVec.ofNat 64 (u b 8)
  let flags := u 45 1
  { entry := w 0, aentry := w 8, handler := w 16, args := w 24, arglen := u 32 2, gx := u 36 4, gy := u 40 2, gz := u 42 2
    gpt := u 44 1, wcode := flags % 4, pair := flags.testBit 2, noru := flags.testBit 3, wdog := flags.testBit 4, vbase := u 46 1
    vext := u 47 1, spages := u 48 1, dirs := u 49 1, qmask := u 50 1, qdepth := u 52 2, wdinit := u 56 4
    lright := (List.range 16).map fun i => u (64 + i) 1, faultrec := w 80 }

/-- Whether the bytes of a descriptor that are not listed are zero (R5, R117). -/
def descReserved (img : Nat) : Bool :=
  [(34, 2), (51, 1), (54, 2), (60, 4), (88, 168)].all (fun (b, n) => img / 2 ^ (8 * b) % 2 ^ (8 * n) == 0) &&
    img / 2 ^ (8 * 45) % 256 < 32

/-- Whether the fields of a descriptor lie within their limits (R117, R309). -/
def Desc.ok (d : Desc) (leases : List Nat) : Bool :=
  let at64 (a : W64) : Bool := a.toNat % 64 == 0 && decide (a.toNat < 2 ^ 52)
  at64 d.entry && at64 d.aentry && at64 d.handler && at64 d.faultrec && d.args.toNat % 4 == 0 && decide (d.args.toNat < 2 ^ 52) &&
    decide (d.arglen ≤ 512) && d.arglen % 4 == 0 && d.gx != 0 && d.gy != 0 && d.gz != 0 && d.wcode != 3 &&
    (if d.pair then d.gpt % 2 == 0 && decide (2 ≤ d.gpt ∧ d.gpt ≤ 64) else decide (1 ≤ d.gpt ∧ d.gpt ≤ 32)) &&
    d.vbase % 8 == 0 && decide (8 ≤ d.vbase ∧ d.vbase ≤ 64) && d.vext % 8 == 0 && decide (d.vbase + d.vext ≤ 64) &&
    decide (d.spages ≤ 64) && decide (d.dirs ≤ 32) && decide (d.qmask < 16) && (d.qmask == 0 || decide (d.vbase + d.vext ≤ 56)) &&
    (if d.qmask = 0 then d.qdepth == 0 else decide (1 ≤ d.qdepth ∧ d.qdepth ≤ 1024)) &&
    (if d.wdog then d.wdinit != 0 else d.wdinit == 0) &&
    (List.zipWith (fun r l => decide (r < 4) && (l != 255 || r == 0)) d.lright leases).all id

/-- Check 3 on a descriptor's ranges and rights (R84, R88, R117). -/
def State.descRanges (s : State) (ctx : Nat) (d : Desc) (leases : List Nat) : Bool :=
  let held (a : W64) (n need : Nat) : Bool := (s.heldLease ctx a.toNat n need).isSome
  held d.entry 1 1 && (d.aentry == 0 || held d.aentry 1 1) && (d.handler == 0 || held d.handler 1 1) &&
    (d.arglen == 0 || held d.args d.arglen 1) && (d.faultrec == 0 || held d.faultrec 64 2) &&
    (List.zipWith (fun r n =>
      let l := s.lease ctx n
      n == 255 || l.st == 0 || (decide (l.st ≤ 2) && (l.rights &&& r) == r)) d.lright leases).all id

/-- The lease numbers that a LAUNCH names. -/
def Cmd.launchLeases (c : Cmd) : List Nat := (List.range 16).map fun i => c.fld (16 + i) 1

/-- The edge that a two-byte field names (R87). -/
def State.namedEdge (s : State) (ctx num : Nat) : Option Nat := if num = 0xFFFF then none else s.findEdge ctx num

/-- The status of the first check that a LAUNCH's descriptor fails, or the descriptor. -/
def State.launchCheck (s : State) (c : Cmd) : Except Nat Desc :=
  let leases := c.launchLeases
  let a := c.fld 8 8
  let there := leases.any fun n =>
    let l := s.lease c.ctx n
    n != 255 && (l.st == 1 || l.st == 2) && l.covers a 256 && l.rights % 2 == 1
  if !there then .error 2
  else
    let img := s.virtRead c.ctx a 256
    let d := descFrom img
    if !(descReserved img && d.ok leases) then .error 3
    else if !s.descRanges c.ctx d leases then .error 2
    else if leases.any (fun n => n != 255 && (s.lease c.ctx n).st == 0) ∨
        [c.fld 32 2, c.fld 34 2].any (fun e => e != 0xFFFF && (s.findEdge c.ctx e).isNone) then .error 3
    else .ok d

/-- LAUNCH (R84, R117): the descriptor is read and checked, and its leases are bound to the grid. -/
def execLaunch (cmd : Nat) (s : State) : Host.Outcome State Fault Refusal :=
  match s.sched.cmds.find cmd with
  | none => .next s
  | some c =>
    if c.opc ≠ 1 ∨ c.grid.isSome ∨ c.st ≠ .taken then .next s
    else match s.launchCheck c with
      | .error st => .next (s.completeCmd cmd st 0)
      | .ok d =>
        let gid := s.stamp
        let recLease := if d.faultrec = 0 then none else s.heldLease c.ctx d.faultrec.toNat 64 2
        let g : Grid := { ctx := c.ctx, queue := c.queue, cmd, launch := s.sched.launches % 2 ^ 16, desc := d, descAt := BitVec.ofNat 64 (c.fld 8 8), leases := c.launchLeases
                          recLease, inEdge := s.namedEdge c.ctx (c.fld 32 2), outEdge := s.namedEdge c.ctx (c.fld 34 2) }
        let s := { s.bump with sched := { s.sched with grids := s.sched.grids.put gid g, launches := s.sched.launches + 1 } }
        let s := (s.updCmd cmd fun c => { c with grid := some gid }).submit c.queue
        let bound := ((g.leases.filter fun n => n != 255) ++ recLease.toList).eraseDups
        .next (bound.foldl (fun s n => s.bindGrid c.ctx gid n) s)

/-- A grid that never joins its queue is dropped. -/
def State.dropGrid (s : State) (c : Cmd) : State :=
  match c.grid with
  | none => s
  | some g =>
    let s := s.unbindGrid g
    { s with sched := { s.sched with grids := s.sched.grids.erase g } }

/-- The leases of a grid (R88). -/
def Grid.boundLeases (g : Grid) : List Nat := ((g.leases.filter fun n => n != 255) ++ g.recLease.toList).eraseDups

/-- LAUNCH_START (R118, R164): once its leases have left MAKING, their frames placed, and its edges have room and data, the grid takes the edge
counts and joins its queue. -/
def execLaunchStart (cmd : Nat) (s : State) : Host.Outcome State Fault Refusal :=
  match s.sched.cmds.find cmd with
  | none => .next s
  | some c =>
    match c.grid with
    | none => .next s
    | some gid =>
      let g := s.grid gid
      let edgeOk (k : Option Nat) (lo : Nat) : Bool := match k with | some k => 1 ≤ s.rfld (.edgcnt k) lo 16 | none => true
      let gone := g.boundLeases.any fun n => !(s.lease c.ctx n).grids.contains gid
      if gone ∧ s.startable cmd c ∧ !(c.fence && c.fenceFail) then .next ((s.dropGrid c).completeCmd cmd 7 4)
      else
        let ready (_ : Cmd) : Bool :=
          g.fault.isNone && (g.boundLeases.all fun n => (s.lease c.ctx n).st != 1 && (s.lease c.ctx n).makeCmd.isNone) && edgeOk g.outEdge 0 && edgeOk g.inEdge 16
        let take (k : Option Nat) (lo : Nat) (s : State) : State :=
          match k with | some k => s.setRfld (.edgcnt k) lo 16 (s.rfld (.edgcnt k) lo 16 - 1) | none => s
        .next (s.startCmd cmd 1 ready (fun c s => s.dropGrid c) fun c s =>
          let s := take g.inEdge 16 (take g.outEdge 0 s)
          let q := s.sched.queues.get [] c.queue
          ({ s with sched := { s.sched with queues := s.sched.queues.put c.queue (q ++ [gid]) } } : State).askRound (s.ctxPart c.ctx))

/-! ## LEASE and RELEASE (R155, R163, R166, R169) -/

/-- The channels over which a context's leases are placed, in increasing number (R155). -/
def State.leaseChannels (s : State) (ctx : Nat) : List Nat :=
  let cs := s.ctxEngines ctx 3
  (List.range 64).filter cs.contains

/-- Frames of a channel that are not free: start and bytes (R154, R173). -/
def State.takenFrames (s : State) (chan : Nat) : List (Nat × Nat) :=
  (s.msys.leases.flatMap fun (_, l) => (l.frames.filter fun f => channelOf f == chan).map fun f => (f, pageBytes l.psize)) ++
    (s.msys.scrub.flatMap fun (_, q) => (q.filter fun e => channelOf e.1 == chan).map fun (f, n) => (f, 4096 * n)) ++
    (s.msys.scrubbing.filter fun (_, e) => channelOf e.1 == chan).map fun (_, e) => (e.1, 4096)

/-- The lowest free frame of a channel aligned to its size, beside frames just taken (R154, R155). -/
def lowestFrame (chan size : Nat) (taken : List (Nat × Nat)) : Option Nat :=
  let base := chan * 2 ^ 33
  let top := base + 0x1F0000000
  let up (a : Nat) : Nat := (a + size - 1) / size * size
  let free (f : Nat) : Bool := decide (f + size ≤ top) && taken.all fun (b, n) => decide (f + size ≤ b ∨ b + n ≤ f)
  leastBy id ((base :: taken.map fun (b, n) => up (b + n)).filter free)

/-- Place pages i, i + 1, … of a lease; nothing where a page finds no frame (R155). -/
def State.placeFrames (s : State) (chans : List Nat) (num size : Nat) : Nat → Nat → List Nat → Option (List Nat)
  | _, 0, acc => some acc
  | i, n + 1, acc =>
    let nc := chans.length
    let tries := (List.range nc).map fun k => chans[(i + num + k) % nc]?.getD 0
    let here (c : Nat) : Option Nat :=
      lowestFrame c size (s.takenFrames c ++ (acc.filter fun f => channelOf f == c).map fun f => (f, size))
    match tries.findSome? here with
    | some f => s.placeFrames chans num size (i + 1) n (acc ++ [f])
    | none => none

/-- The leaf of a page (R166). -/
def leafWord (rights size frame : Nat) : W64 :=
  BitVec.ofNat 64 (1 + rights % 4 * 2 + 8 + (if size = 1 then 16 else 0) + frame / 4096 * 4096)

/-- Where LEASE puts a new table of a partition: the lowest frame of the lower half of its channels' management memory that holds no
table and no root (R154, R166, log 109). -/
def State.tableRoom (s : State) (part : Nat) : Option Nat :=
  let roots := ((List.range 256).filterMap s.tableRoot).map (· / 65536)
  let free (f : Nat) : Bool := !s.msys.tables.contains f && !roots.contains (f / 65536)
  ((s.partUnits part).map channelOfSlice).findSome? fun c =>
    ((List.range 32768).map fun k => c * 2 ^ 33 + 0x1F0000000 + 4096 * k).find? free

/-- The table of a level that serves an address, with the tables above it that LEASE makes where an entry is not valid. -/
def State.makeTable (s : State) (part va low : Nat) : Nat → Nat → Option (State × Nat)
  | 0, t => if low = 0 then some (s, t) else none
  | n + 1, t =>
    if low = n + 1 then some (s, t)
    else
      let a := entryPa t (n + 1) va
      let e := s.msys.entryAt a
      match walkStep (n + 1) e with
      | .next u => s.makeTable part va low n u
      | _ =>
        if e.getLsbD 0 then none
        else match s.tableRoom part with
          | none => none
          | some f =>
            let fresh (m : MemSys) : MemSys := { m with cells := m.cells.filter fun (a, _) => a / 4096 ≠ f / 4096, tables := m.tables ++ [f] }
            (s.updMem fun m => (fresh m).putEntry a (BitVec.ofNat 64 (f + 1))).makeTable part va low n f

/-- Write the leaf of page i of a lease (R166); nothing where the context has no root, or its tables have no place for it. -/
def State.putLeaf (s : State) (ctx : Nat) (l : Lease) (i frame : Nat) : Option State :=
  let va := l.base + pageBytes l.psize * i
  match (s.tableRoot ctx).bind (s.makeTable (s.ctxPart ctx) va (leafLevel l.psize) 3) with
  | none => none
  | some (s, _) => some (s.updMem fun m => (s.leafEntries ctx l.base l.psize i).foldl (fun m a => m.putEntry a (leafWord l.rights l.psize frame)) m)

/-- Write the leaves of pages i, i + 1, … -/
def State.putLeaves (s : State) (ctx : Nat) (l : Lease) : Nat → List Nat → Option State
  | _, [] => some s
  | i, f :: fs => (s.putLeaf ctx l i f).bind fun s => s.putLeaves ctx l (i + 1) fs

/-- Give a lease its frames; nothing where its leaves cannot be written. -/
def State.giveFrames (s : State) (ctx num : Nat) (frames : List Nat) : Option State :=
  let l := s.lease ctx num
  let n := pageBytes l.psize / 4096
  (s.putLeaves ctx l 0 frames).map fun s =>
    let s := s.updLease ctx num fun l => { l with frames }
    frames.foldl (fun s f => s.setRfld (.fpool (channelOf f)) 0 21 (s.rfld (.fpool (channelOf f)) 0 21 - n)) s

/-- LEASE (R155, R163): the frames are placed and the leaves written, or the command completes with status 4. -/
def execLease (cmd : Nat) (s : State) : Host.Outcome State Fault Refusal :=
  let forget (c : Cmd) (s : State) : State := s.updMem fun m => { m with leases := m.leases.erase (leaseKey c.ctx (c.fld 24 1)) }
  .next (s.startCmd cmd 3 (fun _ => true) forget fun c s =>
    let num := c.fld 24 1
    let l := s.lease c.ctx num
    let chans := s.leaseChannels c.ctx
    let size := pageBytes l.psize
    match (if chans.isEmpty then none else s.placeFrames chans num size 0 (l.len / size) []).bind (s.giveFrames c.ctx num) with
    | some s => s
    | none => (forget c s).completeCmd cmd 4 0)

/-- LEASE_LIVE (R80, R163): the lease becomes LIVE and LEASE completes with its R_Key. -/
def execLeaseLive (ctx num : Nat) (s : State) : Host.Outcome State Fault Refusal :=
  let l := s.lease ctx num
  match l.makeCmd with
  | none => .next s
  | some id =>
    if (s.sched.cmds.find id).any fun c => c.st == .started then
      let rkey : BitVec 32 := Config.freeKey s.free ++ BitVec.ofNat 8 num
      let s := s.chose.updLease ctx num fun l => { l with st := if l.st = 1 then 2 else l.st, rkey, makeCmd := none }
      .next (s.completeCmd id 0 rkey.toNat)
    else .next s

/-- A started RELEASE completes once its lease is FREE (R88, R163, R169): one whose LEASE has failed, or that a later RELEASE or the
end of its context has freed, is so at once. -/
def State.settleRelease (s : State) (id : Nat) : State :=
  match s.sched.cmds.find id with
  | none => s
  | some c =>
    let n := c.fld 8 1
    let l := s.lease c.ctx n
    if c.opc ≠ 4 ∨ c.st ≠ .started then s
    else if l.freeCmd ≠ some id then s.completeCmd id 0 0
    else if 3 ≤ l.st ∧ l.grids.isEmpty ∧ l.makeCmd.isNone ∧ s.leaseQuiet c.ctx l then (s.freeLease c.ctx n).completeCmd id 0 0
    else s

/-- RELEASE (R88): it starts, and completes when the lease's grids have ended and its frames are queued for scrub. -/
def execRelease (cmd : Nat) (s : State) : Host.Outcome State Fault Refusal :=
  let keep (c : Cmd) (s : State) : State := s.updLease c.ctx (c.fld 8 1) fun l => { l with st := if l.makeCmd.isSome then 1 else 2, freeCmd := none }
  .next ((s.startCmd cmd 4 (fun _ => true) keep fun _ s => s).settleRelease cmd)

/-! ## COPYH (R88) -/

/-- A COPYH's chunk is over. -/
def State.endCopyh (s : State) (id n : Nat) : State :=
  s.updCmd id fun c => { c with progress := c.progress + n, phase := .idle, chunk := 0, buf := [], op := none }

/-- The chunk of a COPYH is read or written at the home slices, by their gateways (R37, R88). -/
def State.moveCopyh (s : State) (id : Nat) (o : Op) (rs : List GateReq) : State :=
  (s.updCmd id fun c => { c with phase := .moving, op := some s.stamp }).startGate o rs

/-- The next step of a COPYH's chunk, or of the whole (R37, R79, R88, R95, R350). Device to host: its reads, the copy servers, an
RDMA WRITE. Host to device: an RDMA READ, the copy servers, its writes. A context without a COPY template has no server to
charge. A chunk that fails at the home slices ends the command with status 7 and the fault's class (log 113). -/
def State.copyhStep (s : State) (id : Nat) : State :=
  match s.sched.cmds.find id with
  | none => s
  | some c =>
    let len := c.fld 32 4
    let p := c.progress
    let dev := c.fld 8 8 + p
    let host := BitVec.ofNat 64 (c.fld 16 8 + p)
    let key := BitVec.ofNat 32 (c.fld 24 4)
    let qpn := qpNum c.ctx (c.fld 28 1)
    let out : Bool := c.fld 29 1 == 0
    let toPhase (s : State) (ph : CopyhSt) : State := s.updCmd id fun c => { c with phase := ph }
    if c.phase = .idle ∧ len ≤ p then s.endWork id 0 len
    else if (s.lease c.ctx (c.lease.getD 255)).st < 2 ∨ (s.host.qps.find qpn).isNone then s.endWork id 2 p
    else match c.phase with
    | .idle =>
      let n := min 4096 (len - p)
      let s := s.updCmd id fun c => { c with chunk := n }
      if out then s.moveCopyh id (portOp c.ctx dev n (.portRead none)) (s.gateReads c.ctx dev n)
      else (toPhase s .sent).roce qpn (fun psn => .rdmaRead qpn psn key host n) (some id)
    | .moving =>
      match c.op.bind s.ops.find with
      | none => s.endWork id 7 5
      | some o =>
        if o.left ≠ 0 then s
        else match o.fail with
        | some (cls, _, _) => s.endWork id 7 cls
        | none =>
          let s := match c.op with | some i => s.dropOp i | none => s
          if out then s.updCmd id fun d => { d with phase := .ready, buf := o.bytes dev c.chunk, op := none }
          else s.endCopyh id c.chunk
    | .ready => if (s.copyhCore c.ctx).isNone then toPhase s .granted else s
    | .granted =>
      if out then (toPhase s .sent).roce qpn (fun psn => .rdmaWrite qpn psn key host c.buf) (some id)
      else s.moveCopyh id (portOp c.ctx dev c.chunk (.portWrite none)) (gateWrites dev c.buf)
    | .sent => s

/-- COPYH (R88): it starts once its lease is resident, and moves chunk by chunk. -/
def execCopyh (cmd : Nat) (s : State) : Host.Outcome State Fault Refusal :=
  let s := s.startCmd cmd 2 (fun c => (s.lease c.ctx (c.lease.getD 255)).st != 1) (fun _ s => s) fun _ s => s
  .next (if (s.sched.cmds.find cmd).any fun c => c.opc == 2 && c.st == .started then s.copyhStep cmd else s)

/-! ## SIGNAL and WAITSEM (R87) -/

/-- SIGNAL: set or add. -/
def execSignal (cmd : Nat) (s : State) : Host.Outcome State Fault Refusal :=
  .next (s.startCmd cmd 5 (fun _ => true) (fun _ s => s) fun c s =>
    let n := c.fld 8 1
    let v := BitVec.ofNat 64 (c.fld 16 8)
    (s.completeCmd cmd 0 0).setSem c.ctx n (if c.fld 9 1 = 0 then v else s.sem c.ctx n + v))

/-- WAITSEM: complete if the semaphore has reached the value, else hold the ring. -/
def execWaitsem (cmd : Nat) (s : State) : Host.Outcome State Fault Refusal :=
  .next (s.startCmd cmd 6 (fun _ => true) (fun _ s => s) fun c s =>
    if c.fld 16 8 ≤ (s.sem c.ctx (c.fld 8 1)).toNat then s.completeCmd cmd 0 0
    else s.updCmd cmd fun c => { c with st := .waiting })

/-- WAITSEM_TIMEOUT: status 5. -/
def execWaitsemTimeout (cmd : Nat) (s : State) : Host.Outcome State Fault Refusal :=
  match s.sched.cmds.find cmd with
  | none => .next s
  | some c =>
    if c.opc = 6 ∧ c.st = .waiting ∧ c.fld 24 4 ≠ 0 ∧ c.started + 1000 * c.fld 24 4 ≤ s.now then .next (s.completeCmd cmd 5 0)
    else .next s

/-! ## EDGE (R118, R119) -/

/-- EDGE: create an edge of S slots, or start to destroy one. -/
def execEdge (cmd : Nat) (s : State) : Host.Outcome State Fault Refusal :=
  .next (s.startCmd cmd 7 (fun _ => true) (fun _ s => s) fun c s =>
    let num := c.fld 8 2
    if c.fld 10 1 = 1 then s
    else if (s.findEdge c.ctx num).isSome then s.completeCmd cmd 3 0
    else match (List.range 4096).find? fun k => s.rfld (.edgst k) 0 1 == 0 with
      | none => s.completeCmd cmd 4 0
      | some k =>
        let n := c.fld 12 4
        ((s.setReg (.edgst k) (BitVec.ofNat 64 (1 + c.ctx * 2 + num * 2 ^ 10 + n * 2 ^ 20))).setReg (.edgcnt k) (BitVec.ofNat 64 n)).completeCmd cmd 0 0)

/-- EDGE_DESTROY_COMPLETE: no started or waiting LAUNCH names the edge. -/
def execEdgeDestroyComplete (cmd : Nat) (s : State) : Host.Outcome State Fault Refusal :=
  match s.sched.cmds.find cmd with
  | none => .next s
  | some c =>
    if c.opc ≠ 7 ∨ c.fld 10 1 ≠ 1 ∨ c.st ≠ .started then .next s
    else match s.findEdge c.ctx (c.fld 8 2) with
      | none => .next (s.completeCmd cmd 3 0)
      | some k =>
        if s.sched.grids.any fun (_, g) => g.inEdge == some k || g.outEdge == some k then .next s
        else .next (((s.setReg (.edgst k) 0).setReg (.edgcnt k) 0).completeCmd cmd 0 0)

/-! ## ROUTE (R60, R64, R68 to R71, R115) -/

/-- The links of a ROUTE's strands. -/
def Cmd.strandLinks (c : Cmd) : List Nat :=
  ([c.fld 13 1 % 16, c.fld 13 1 / 16, c.fld 14 1 % 16, c.fld 14 1 / 16].take (c.fld 12 1 + 1))

/-- Whether a ROUTE names a peer and strands that the domain has (R60, R68). In a switched domain too, one that names this device as
its peer or a link twice is malformed: the model's choice (log 50). -/
def State.routeShape (s : State) (c : Cmd) : Bool :=
  let own := s.devId
  let peer := c.fld 8 1
  peer != own &&
    if s.rfld .lcfg 6 2 = 1 then decide (peer < s.rfld .lcfg 8 7) && c.strandLinks == [(peer + 17 * 64 - own - 1) % 17] && decide ((peer + 17 * 64 - own - 1) % 17 < 16)
    else c.strandLinks.eraseDups.length == c.strandLinks.length

/-- Reorder-buffer entries reserved at this device (R64, R69). -/
def State.robUsed (s : State) : Nat := (List.range 1024).foldl (fun n i => if s.rteValid i then n + s.rteRobn i else n) 0

/-- Bind a route at entry i: its table entry, template and instances (R68, R69, R115). -/
def State.bindRoute (s : State) (c : Cmd) (i : Nat) (p : PeerRoute) : State :=
  let u := c.fld
  let w0 := 1 + u 8 1 * 2 + c.ctx * 2 ^ 7 + u 9 2 * 2 ^ 16 + p.index * 2 ^ 25 + u 11 1 * 2 ^ 35 + u 12 1 * 2 ^ 38 +
    (c.strandLinks.mapIdx fun k l => l * 2 ^ (40 + 4 * k)).foldl (· + ·) 0
  let s := (s.setReg (.rte i 0) (BitVec.ofNat 64 w0)).setReg (.rte i 1) (BitVec.ofNat 64 (u 18 2 + u 16 2 * 2 ^ 14))
  let s := s.setReg (.svlink i) (BitVec.ofNat 64 (u 20 4 + u 24 4 * 2 ^ 24 + u 11 1 * 2 ^ 48 + 2 ^ 52))
  let s : State := { s with lodra := { s.lodra with far := s.lodra.far.put i p.robn } }
  c.strandLinks.foldl (fun s l => s.addSrv 4 l c.ctx i) s

/-- Whether a far ROUTE matches one that waits (R69): each names the other's device and context, and both the job tag and the
class; and it has come within 10 ms. -/
def State.matches (s : State) (c : Cmd) (p : PeerRoute) : Bool :=
  p.device == c.fld 8 1 && p.ctx == c.fld 9 2 && p.toDevice == s.devId && p.toCtx == c.ctx && p.job == c.fld 16 2 && p.cls == c.fld 11 1 &&
    decide (s.now < c.started + 10000000)

/-- ROUTE_BIND (R69): both ends ask and every hop admits, or both are refused with the first hop that does not. VALUE is 0, as for hop
0, where no hop refuses but an entry or reorder-buffer entries are wanting: the model's choice (log 112). -/
def State.tryBind (s : State) (id : Nat) (c : Cmd) (p : PeerRoute) : State :=
  if !s.matches c p then s else
  let s := { s with lodra := { s.lodra with binding := s.lodra.binding.erase id } }
  match (List.range 1024).find? fun i => !s.rteValid i with
  | none => s.completeCmd id 4 0
  | some i =>
    if 8192 < s.robUsed + c.fld 18 2 then s.completeCmd id 4 0
    else match c.strandLinks.find? fun l => !s.admits 4 l c.ctx i (c.fld 20 4) (c.fld 24 4), p.refusedHop with
      | some l, _ => s.completeCmd id 4 l
      | none, some h => s.completeCmd id 4 h
      | none, none => (s.bindRoute c i p).completeCmd id 0 i

/-- The bound route that an unbinding ROUTE names (R71). -/
def State.namedRoute (s : State) (c : Cmd) : Option Nat :=
  (List.range 1024).find? fun i => s.rteValid i && s.rteLctx i == c.ctx && s.rtePeer i == c.fld 8 1 && s.rteRctx i == c.fld 9 2 && s.rteJob i == c.fld 16 2

/-- ROUTE (R69, R71): it asks to bind and waits for its match, which `peer` brings, or unbinds a route. -/
def execRoute (cmd : Nat) (peer : Option PeerRoute) (s : State) : Host.Outcome State Fault Refusal :=
  let s := s.startCmd cmd 8 (fun _ => true) (fun _ s => s) fun c s =>
    if c.fld 28 1 = 1 then
      match s.namedRoute c with
      | none => s.completeCmd cmd 3 0
      | some i => (s.unbind i).updCmd cmd fun c => { c with value := i }
    else if s.rfld .lcfg 6 2 = 0 then s.completeCmd cmd 4 0
    else if !s.routeShape c then s.completeCmd cmd 3 0
    else { s with lodra := { s.lodra with binding := s.lodra.binding ++ [cmd] } }
  match peer, s.sched.cmds.find cmd with
  | some p, some c => if s.lodra.binding.contains cmd then .next (s.tryBind cmd c p) else .next s
  | _, _ => .next s

/-- ROUTE_MATCH_TIMEOUT (R69): no matching ROUTE within 10 ms. -/
def execRouteMatchTimeout (cmd : Nat) (s : State) : Host.Outcome State Fault Refusal :=
  match s.sched.cmds.find cmd with
  | none => .next s
  | some c =>
    if s.lodra.binding.contains cmd ∧ c.started + 10000000 ≤ s.now then
      .next (({ s with lodra := { s.lodra with binding := s.lodra.binding.erase cmd } } : State).completeCmd cmd 5 0)
    else .next s

/-- Whether requests of a route are still in flight (R71): its own, unfinished copies to it, the far end's that this device
serves, holds or has not acknowledged, and what a link has sent in part. -/
def State.routeBusy (s : State) (i : Nat) : Bool :=
  (s.cores.any fun (_, c) => c.copies.any fun (_, y) => y.remote && y.route == i) ||
    (s.lodra.serving.any fun (_, k, _) => (s.lodra.rx.find k).any fun f => f.route == i) ||
    (s.pkts.any fun (_, p) => p.sys.any fun (r, _) => r == i) ||
    (s.lodra.tx.any fun (_, f) => f.route == i && f.reqs.any fun r => !r.over) ||
    (s.lodra.rx.any fun (_, f) => f.route == i && (!f.held.isEmpty || !f.performed.isEmpty || f.acked != f.told)) ||
    s.lodra.links.any fun (_, l) => (l.wait.any fun (r, _) => r == i) || (!l.txPart.isEmpty && l.txRoute == i)

/-- ROUTE_DRAIN_COMPLETE (R71): the route's servers, entries and reservations are freed. -/
def execRouteDrainComplete (route : Nat) (s : State) : Host.Outcome State Fault Refusal :=
  if !(s.rteValid route && s.rteDrain route) ∨ s.routeBusy route then .next s
  else
    let ctx := s.rteLctx route
    let s := s.dropSrvs fun v => v.cls == 4 && v.ctx == ctx && v.route == route
    let s := ((s.setReg (.rte route 0) 0).setReg (.rte route 1) 0).setReg (.svlink route) (RegName.svlink route).resetVal
    let s := { s with lodra := { s.lodra with
      far := s.lodra.far.erase route
      tx := s.lodra.tx.filter fun (_, f) => f.route != route
      rx := s.lodra.rx.filter fun (_, f) => f.route != route } }
    .next ((s.sched.cmds.filter fun (_, c) => c.opc == 8 && c.ctx == ctx && c.st == .started && c.fld 28 1 == 1 && c.value == route).foldl
      (fun s (id, _) => s.completeCmd id 0 route) s)

/-! ## RECALL and READMETER (R88, R110, R113) -/

/-- RECALL (R110): it waits for each named cluster that is not OWNED or LENDABLE. -/
def execRecall (cmd : Nat) (s : State) : Host.Outcome State Fault Refusal :=
  .next (s.startCmd cmd 9 (fun _ => true) (fun _ s => s) fun c s =>
    let named := (s.homes c.ctx).mapIdx fun i k => (i, k)
    let named := named.filter fun (i, _) => (c.fld 8 16).testBit i
    let busy := named.filter fun (_, k) => 2 ≤ s.clState k
    let mask := busy.foldl (fun m (i, _) => m + 2 ^ i) 0
    let s := s.updCmd cmd fun c => { c with value := mask }
    let s := named.foldl (fun s (_, k) => s.recallCluster c.ctx k) s
    if mask = 0 then s.completeCmd cmd 0 named.length else s)

/-- READMETER (R88, R113): the six meters and the postmark. -/
def execReadmeter (cmd : Nat) (s : State) : Host.Outcome State Fault Refusal :=
  .next (s.startCmd cmd 10 (fun c => (s.lease c.ctx (c.lease.getD 255)).st != 1) (fun _ s => s) fun c s =>
    let ws := ((List.range 6).map fun m => (s.reg (.fmeter c.ctx m)).toNat) ++ [s.now]
    (s.virtWrite c.ctx (c.fld 8 8) (ws.flatMap (bytesLE 8))).completeCmd cmd 0 0)

end Sys2Proof.Machine
end

