-- ==== Sys2Proof/Machine/Control.lean ====
section
/-! DEFINITION. Clause headers, branches, calls, barriers, waits and traps: majors 16, 17 and 31 (R261,
R262, R284 to R297). -/

namespace Sys2Proof.Machine

/-- An instruction of the BR format: one beat. -/
def brIssue (s : State) (code : Option Nat) (last : Bool) (body : IssueCtx → Act) : Host.Outcome State Fault Refusal :=
  issue s code (fun _ => { last }) body

/-- PC + 2 × SInt(OFF) (R288). -/
def IssueCtx.relative (x : IssueCtx) (o : BitVec 19) : W64 := x.p.pc + BitVec.ofInt 64 (2 * o.toInt)

/-- The lanes of the path on which a branch condition holds (R288). -/
def IssueCtx.holds (x : IssueCtx) (n : BitVec 3) (neg : BitVec 1) : W64 :=
  let q := x.g.preg x.p n.toNat
  x.p.mask &&& if neg = 1 then ~~~q else q

/-- CLAUSE_HEADER (R261, R262): the path enters the clause; it uses no issue slot and charges nothing. A
header that comes as a body parcel is a reserved major (R275 code 1). A header of the access slice waits for
no flag and selects none (R270). -/
def execClauseHeader (f : Hdr) (s : State) : Host.Outcome State Fault Refusal :=
  match s.cur with
  | none => .fault .noIssuingPath
  | some c =>
    let s := { s with cur := none }
    match s.group? c.core c.slot with
    | none => .next s
    | some g =>
      if c.access then
        let a := g.acc.getD {}
        if a.left ≠ 0 then .next (s.accessFault c.core c.slot a.pc 1 0 1)
        else if f.len = 0 then .next (s.accessFault c.core c.slot a.pc 1 0 6)
        else if f.wait ≠ 0 ∨ f.seta ≠ 15 ∨ f.setb ≠ 15 then .next (s.accessFault c.core c.slot a.pc 1 0 4)
        else .next (s.updGroup c.core c.slot fun g => { g with acc := some { a with pc := a.pc + 4, left := f.len.toNat } })
      else
        let p := g.path c.path
        if (g.lateOf c.path).isSome then .next (s.raiseLate c.core c.slot c.path)
        else if p.left ≠ 0 then .next (s.takeFault c.core c.slot c.path p.pc 1 0 1)
        else if f.len = 0 then .next (s.takeFault c.core c.slot c.path p.pc 1 0 6)
        else .next (s.updPath c.core c.slot c.path fun p =>
          { p with pc := p.pc + 4, left := f.len.toNat, seta := f.seta, setb := f.setb, waitMask := f.wait
                   entry := decide (f.wait ≠ 0) })

/-- BRA (R288): to the target if the condition holds on every lane of the path. -/
def execBra (f : BraF) (s : State) : Host.Outcome State Fault Refusal :=
  brIssue s (illegalBra f) true fun x =>
    if x.holds f.n f.g = x.p.mask then x.transfer x.s (x.relative f.o) else .done x.s

/-- BRAK (R288): to the target if Kk, or if NOT Kk. -/
def execBrak (f : BrakF) (s : State) : Host.Outcome State Fault Refusal :=
  brIssue s none true fun x =>
    if x.g.kreg f.k.toNat != (f.g == 1) then x.transfer x.s (x.relative f.o) else .done x.s

/-- BRX (R285): split the path; the part on which the condition holds takes a new entry. -/
def execBrx (f : BraF) (s : State) : Host.Outcome State Fault Refusal :=
  brIssue s (illegalBrx f) true fun x =>
    let t := x.holds f.n f.g
    let dest := x.relative f.o
    if t = 0 then .done x.s
    else
      match x.targetFault dest with
      | some (cls, va, det) => .trap cls va det
      | none =>
        if t = x.p.mask then .jump x.s dest
        else
          match (List.range 8).find? fun i => !(x.g.path i).valid with
          | none => .trap 15 0 0
          | some i =>
            let new : Path := { valid := true, mask := t, pc := dest, link := x.c.path, linkv := true, hndl := x.p.hndl
                                frec := x.p.frec, born := x.s.stamp, past := x.p.past }
            let s := x.s.bump.updGroup x.c.core x.c.slot fun g =>
              ({ g with paths := (List.range 8).map fun q => if q = i then new else g.path q }.updPath x.c.path
                fun p => { p with mask := p.mask &&& ~~~t })
            let s := s.updTeam x.g.team fun tm => { tm with bars := tm.bars.map fun (b, y) =>
              (b, { y with paths := y.paths.filter fun e => e ≠ (x.g.num, i) }) }
            .done (s.tracePath x.c.core x.c.slot x.c.path 1 i dest)

/-- JOIN (R286): retire, then wait for children, merge, pass or go on. A path that merges may have been the only one of its group that
a barrier waited for (R292). -/
def execJoin (s : State) : Host.Outcome State Fault Refusal :=
  brIssue s none true fun x =>
    .stay (((x.s.updPath x.c.core x.c.slot x.c.path fun p => { p with wait := .join }).settleJoins x.c.core x.c.slot 16).settleBarriers
      x.c.core x.c.slot)

/-- CALL (R288): pair c := the address of the next clause header; dest the target. -/
def execCall (f : CallF) (s : State) : Host.Outcome State Fault Refusal :=
  brIssue s none true fun x =>
    let c := 2 * f.c.toNat
    match x.sWait [c, c + 1] with
    | some w => .park w
    | none =>
      let ret := x.p.pc + 4
      x.transfer (x.s.updGroup x.c.core x.c.slot fun g =>
        (g.setS c (ret.extractLsb' 0 32)).setS (c + 1) (ret.extractLsb' 32 32)) (x.relative f.o)

/-- The transfer of JMPI and RET: to the address in pair c; in the handler it is the return (R289, R290). -/
def jumpPair (f : JmpF) (s : State) : Host.Outcome State Fault Refusal :=
  brIssue s none true fun x =>
    let c := 2 * f.c.toNat
    match x.sWait [c, c + 1] with
    | some w => .park w
    | none => x.transfer (x.s.updPath x.c.core x.c.slot x.c.path Path.leaveHandler) (x.g.spair c)

/-- JMPI (R289): to the address in a pair of S registers. -/
def execJmpi (f : JmpF) (s : State) : Host.Outcome State Fault Refusal := jumpPair f s
/-- RET (R288, R289): as JMPI. -/
def execRet (f : JmpF) (s : State) : Host.Outcome State Fault Refusal := jumpPair f s

/-- EXIT (R287): the lanes on which Pn is set leave the path; with COND 0, all of them. -/
def execExit (f : ExitF) (s : State) : Host.Outcome State Fault Refusal :=
  brIssue s none true fun x =>
    let lanes := x.p.mask &&& x.g.preg x.p f.n.toNat
    if lanes = 0 then .done x.s
    else if lanes = x.p.mask then .stay (x.s.exitLanes x.c.core x.c.slot x.c.path lanes)
    else .done (x.s.exitLanes x.c.core x.c.slot x.c.path lanes)

/-! ## Waiting, yielding and time (R294 to R297) -/

/-- NOP (R297): no effect. -/
def execNop (s : State) : Host.Outcome State Fault Refusal := brIssue s none false fun x => .done x.s

/-- TRAP (R297): fault class 16 at this PC, with n as its detail. -/
def execTrap (f : TrapF) (s : State) : Host.Outcome State Fault Refusal :=
  brIssue s none false fun _ => .trap 16 0 f.n.toNat

/-- BKPT (R253, R297): with DBGEN set it retires and then stops under BKSCOPE; otherwise it has no effect. -/
def execBkpt (s : State) : Host.Outcome State Fault Refusal :=
  brIssue s none false fun x =>
    let cfg := x.s.reg (.dbgcfg x.g.ctx)
    if cfg.getLsbD 0 then .done (x.s.debugStop x.c.core x.c.slot x.c.path (fld cfg 13 2) 1 0) else .done x.s

/-- End the path's instruction run: the next issue goes to the oldest ready sibling (R127, R295, R296). -/
def State.endRun (s : State) (c : Cur) : State := s.updPath c.core c.slot c.path fun p => { p with run := 256 }

/-- YIELDD (R134, R296): set the watchdog count and yield. -/
def execYieldd (f : DelayF) (s : State) : Host.Outcome State Fault Refusal :=
  issue s (firstCode [(f.o = 0 ∨ 13 < f.e.toNat, 4)]) (fun _ => { yieldd := true }) fun x =>
    let n := f.o.toNat * 2 ^ f.e.toNat
    let s := if x.d.wdog then x.s.updGroup x.c.core x.c.slot fun g => { g with watchdog := n } else x.s
    .done (s.endRun x.c)

/-- SLEEP (R295): park until the postmark reaches t0 + OFF × 2^COND; with OFF = 0, yield. -/
def execSleep (f : DelayF) (s : State) : Host.Outcome State Fault Refusal :=
  brIssue s none false fun x =>
    if f.o = 0 then .done (x.s.endRun x.c)
    else .stay (x.s.updPath x.c.core x.c.slot x.c.path fun p =>
      { p with wait := .sleep (x.s.now + f.o.toNat * 2 ^ f.e.toNat) })

/-- Whether a word satisfies a WAITMEM (R294). -/
def memHolds (x v : W32) (eq : Bool) : Bool := if eq then x == v else x != v

/-- The word a WAITMEM reads at its home slice, unless its address does not translate, or the slice is lost or the word poisoned. -/
def State.homeWord (s : State) (ctx a : Nat) : Except (Nat × Nat) W32 :=
  match s.translate ctx a with
  | none => .error (3, 1)
  | some pa =>
    if s.lost pa then .error (5, 0)
    else if (s.msys.homePoison (s.ctxSg ctx) (pa / 128)).getLsbD (pa % 128 / 8) then .error (6, 0)
    else .ok (BitVec.ofNat 32 (readLE (s.msys.homeByte (s.ctxSg ctx)) pa 4))

/-- The slice that holds the watch of an address. -/
def State.watchSlice (s : State) (ctx a : Nat) : Option Nat := (s.translate ctx a).map fun pa => sliceOfChannel (channelOf pa)

/-- The watches in use at a slice (R294). -/
def State.watches (s : State) (slice : Nat) : Nat :=
  s.cores.foldl (fun n (_, k) => k.groups.foldl (fun n (_, g) => g.paths.foldl (fun n p =>
    match p.wait with
    | .mem a _ _ true _ => if s.watchSlice g.ctx a = some slice then n + 1 else n
    | _ => n) n) n) 0

/-- WAITMEM (R294): retire if the word differs from (or equals) Sv, else park with a watch. -/
def execWaitmem (f : WaitmemF) (s : State) : Host.Outcome State Fault Refusal :=
  brIssue s none false fun x =>
    let c := 2 * f.c.toNat
    match x.sWait [c, c + 1, f.v.toNat] with
    | some w => .park w
    | none =>
      let a := x.g.spair c &&& ~~~3
      let v := x.g.sreg f.v.toNat
      let eq := f.e == 1
      if !x.s.mayAccess x.gr 1 a.toNat 4 then .trap 3 a 0
      else
        match x.s.homeWord x.g.ctx a.toNat with
        | .error (cls, det) => .trap cls a det
        | .ok w =>
          if memHolds w v eq then .done x.s
          else
            let watch := match x.s.watchSlice x.g.ctx a.toNat with
              | some sl => decide (x.s.watches sl < 64)
              | none => false
            .stay (x.s.updPath x.c.core x.c.slot x.c.path fun p =>
              { p with wait := .mem a.toNat v eq watch (x.s.now + if watch then 64000 else 1000) })

/-! ## Barriers (R292, R293) -/

/-- BAR and BARA: record the path's arrival; BAR then parks until the release. -/
def barOp (f : BarF) (s : State) (wait : Bool) : Host.Outcome State Fault Refusal :=
  brIssue s (illegalBar f) false fun x =>
    let b := f.b.toNat
    match x.s.team? x.g.team with
    | none => .done x.s
    | some t =>
      let y := t.bar b
      match firstWait [if f.x = 1 then x.sWait [f.v.toNat] else none,
          if y.groups.contains x.g.num then some (.barPhase b y.phase) else none] with
      | some w => .park w
      | none =>
        let y := { y with paths := if y.paths.contains (x.g.num, x.c.path) then y.paths else y.paths ++ [(x.g.num, x.c.path)] }
        let all := x.g.allArrived y
        let count := (x.g.sreg f.v.toNat).toInt
        if all && f.x = 1 && (count ≤ 0 || (x.d.gpt : Int) < count) then .trap 1 0 4
        else
          let y := if all then y.arrive x.g.num (if f.x = 1 then count.toNat else 0) else y
          let s := x.s.updTeam x.g.team fun t => t.setBar b y
          if wait then .stay (s.updPath x.c.core x.c.slot x.c.path fun p => { p with wait := .barrier b }) else .done s

/-- BAR (R292): arrive and wait for the release. -/
def execBar (f : BarF) (s : State) : Host.Outcome State Fault Refusal := barOp f s true
/-- BARA (R292): arrive without waiting. -/
def execBara (f : BarF) (s : State) : Host.Outcome State Fault Refusal := barOp f s false

/-- BARW (R292): wait if the group has arrived in a phase that is not released; otherwise retire. -/
def execBarw (f : BarwF) (s : State) : Host.Outcome State Fault Refusal :=
  brIssue s none false fun x =>
    match x.s.team? x.g.team with
    | none => .done x.s
    | some t =>
      if (t.bar f.b.toNat).groups.contains x.g.num then
        .stay (x.s.updPath x.c.core x.c.slot x.c.path fun p => { p with wait := .barrier f.b.toNat })
      else .done x.s

end Sys2Proof.Machine
end

