-- ==== Sys2Proof/Machine/CoreEvents.lean ====
section
/-! DEFINITION. What a core does between issues: late faults and illegal parcels, the ends of WAITMEM and SLEEP,
barrier release, fences, copies and the grant of a register block (R139, R181, R212, R275, R292, R294, R295,
R304, R337, R344, R350 to R352). -/

namespace Sys2Proof.Machine

/-! ## Faults (R139, R275, R337) -/

/-- LATE_FAULT (R337): the first path of a group that is ready to issue and owes a late fault raises it. A breakpoint at its
instruction stops it first (R255). -/
def execLateFault (core slot : Nat) (s : State) : Host.Outcome State Fault Refusal :=
  match s.group? core slot with
  | none => .next s
  | some g =>
    if g.done ∨ g.stopped then .next s
    else match (List.range 8).find? fun i => (g.path i).ready && (g.lateOf i).isSome && (s.breakAt g (g.path i)).isNone with
      | some i => .next (s.raiseLate core slot i)
      | none => .next s

/-- ILLEGAL_INSTRUCTION (R275): the path that is issuing meets no instruction; class 1 with its trap code. An
access thread's fault is never trapped (R359). -/
def execIllegalInstruction (code : Nat) (s : State) : Host.Outcome State Fault Refusal :=
  match s.cur with
  | none => .next s
  | some c =>
    if c.access then
      match s.group? c.core c.slot with
      | none => .next { s with cur := none }
      | some g => .next (({ s with cur := none } : State).accessFault c.core c.slot ((g.acc.getD {}).pc) 1 0 code)
    else .next (issueAt s c (some code) (fun _ => {}) fun x => .done x.s)

/-! ## WAITMEM and SLEEP (R186, R294, R295) -/

/-- Read the word of a parked WAITMEM again: the path wakes, and the core's acquire epoch advances, when its
condition holds; a word that can no longer be read is a fault of the instruction. -/
def State.rereadMem (s : State) (core slot path : Nat) (g : Group) (a : Nat) (v : W32) (eq : Bool) : State :=
  match s.homeWord g.ctx a with
  | .error (cls, det) => s.takeFault core slot path (g.path path).pc cls (BitVec.ofNat 64 a) det
  | .ok w =>
    if memHolds w v eq then (s.updPath core slot path Path.wake).updCore core Core.advance else s

/-- WAITMEM_WAKE (R294): a write has performed at a watched line. -/
def execWaitmemWake (core slot path : Nat) (s : State) : Host.Outcome State Fault Refusal :=
  match s.group? core slot with
  | none => .next s
  | some g =>
    match (g.path path).wait with
    | .mem a v eq true _ => if g.stopped then .next s else .next (s.rereadMem core slot path g a v eq)
    | _ => .next s

/-- WAITMEM_RECHECK (R294): every 64 µs, or every 1 µs without a watch. -/
def execWaitmemRecheck (core slot path : Nat) (s : State) : Host.Outcome State Fault Refusal :=
  match s.group? core slot with
  | none => .next s
  | some g =>
    match (g.path path).wait with
    | .mem a v eq watch due =>
      if g.stopped ∨ s.now < due then .next s
      else
        let s := s.updPath core slot path fun p => { p with wait := .mem a v eq watch (s.now + if watch then 64000 else 1000) }
        .next (s.rereadMem core slot path g a v eq)
    | _ => .next s

/-- SLEEP_EXPIRY (R295): the postmark has reached the deadline. -/
def execSleepExpiry (core slot path : Nat) (s : State) : Host.Outcome State Fault Refusal :=
  match s.group? core slot with
  | none => .next s
  | some g =>
    match (g.path path).wait with
    | .sleep d => if g.stopped ∨ s.now < d then .next s else .next (s.updPath core slot path Path.wake)
    | _ => .next s

/-! ## Barriers (R183, R291, R292) -/

/-- Whether a barrier's count is met (R292), by as many as arrive before it releases; a phase in which nobody has arrived is not
released. -/
def Team.barMet (t : Team) (gpt b : Nat) : Bool :=
  let x := t.bar b
  0 < x.arrivals &&
    if x.expected ≠ 0 then decide (x.expected ≤ x.arrivals)
    else x.arrivals + (t.exits.filter fun n => !x.groups.contains n).length == gpt

/-- Whether every write of the groups that have arrived, their engines' among them, has performed (R183, R292). -/
def State.arrivedQuiet (s : State) (team : Nat) (groups : List Nat) : Bool :=
  s.ops.all fun (_, o) => !(o.team == team && groups.contains o.grp && (o.kind.writes || o.kind.spWrites || (o.kind.engine && o.kind != .traceWrite)))

/-- Whether a barrier can release now. -/
def State.barReady (s : State) (team bar : Nat) : Bool :=
  match s.team? team with
  | none => false
  | some t => t.core.isSome && t.saved.isNone && t.barMet (s.grid t.grid).desc.gpt bar && s.arrivedQuiet team (t.bar bar).groups

/-- The paths of a group that wait at a barrier. -/
def Group.waitingAt (g : Group) (bar : Nat) : List Nat := (List.range 8).filter fun i => (g.path i).wait == .barrier bar

/-- What a released barrier does to one group of its team (R126, R292). -/
def Group.released (g : Group) (bar : Nat) (arrived : Bool) : Group :=
  let g := if arrived then { g with issued := 0 } else g
  { g with paths := mapIf (fun p => p.wait == .barrier bar) Path.wake g.paths }

/-- The release of a barrier (R292): its one trace record names the first path that it lets go, or else the last
group to arrive. -/
def State.releaseBar (s : State) (team bar : Nat) (t : Team) : State :=
  let x := t.bar bar
  let all := s.groupsOf team
  let s := (s.teamCores team).foldl (fun s c =>
    (if t.pair then s.dropL1 c (s.ctxSg t.ctx) else s).updCore c Core.advance) s
  let waiters := all.flatMap fun (c, sl) => match s.group? c sl with | some g => (g.waitingAt bar).map fun i => (c, sl, i) | none => []
  let last := all.filterMap fun (c, sl) => match s.group? c sl with
    | some g => if x.groups.getLast? = some g.num then some (c, sl, ((List.range 8).find? fun i => (g.path i).valid).getD 0) else none
    | none => none
  let s := match (waiters ++ last).head? with
    | some (c, sl, i) => s.tracePath c sl i 4 bar 0
    | none => s
  let s := all.foldl (fun s (c, sl) => s.updGroup c sl fun g => g.released bar (x.groups.contains g.num)) s
  s.updTeam team fun t => t.setBar bar { phase := !x.phase }

/-- BARRIER_RELEASE (R292): the count is met and the arrived groups' writes have performed. -/
def execBarrierRelease (team bar : Nat) (s : State) : Host.Outcome State Fault Refusal :=
  match s.team? team with
  | none => .next s
  | some t => if s.barReady team bar then .next (s.releaseBar team bar t) else .next s

/-! ## Fences (R156, R181, R190, R345) -/

/-- FENCE_TAKES_EFFECT (R181): L1 is invalidated for an acquire at DEVICE or SYSTEM scope, or at TEAM in a pair
team; an acquire advances the core's epoch; the token is complete. A halted team's token goes on when the team does (R132). -/
def execFenceTakesEffect (core slot token : Nat) (s : State) : Host.Outcome State Fault Refusal :=
  match s.group? core slot with
  | none => .next s
  | some g =>
    let t := g.tokens.get {} token
    if !t.out ∨ g.stopped ∨ !s.performed t.covers then .next s
    else
      let pair : Bool := match s.team? g.team with | some m => m.pair | none => false
      let acq := t.kind == 1 || t.kind == 3
      let wide := t.scope == 2 || t.scope == 3 || (t.scope == 1 && pair)
      let s := if acq && wide then s.dropL1 core (s.ctxSg g.ctx) else s
      let s := if acq then s.updCore core Core.advance else s
      .next (s.updGroup core slot fun g => { g with tokens := g.tokens.put token { t with out := false, covers := [] } })

/-! ## Copies (R142, R188, R218, R350 to R352) -/

def Copy.dstSize (y : Copy) : Nat := match y.chain with | some c => chainSize c.dstTy | none => 1
def Copy.srcSize (y : Copy) : Nat := match y.chain with | some c => chainSize c.srcTy | none => 1

/-- The elements that destination bytes [pos, pos + n) of a copy belong to: the first, and how many. -/
def Copy.elems (y : Copy) (n : Nat) : Nat × Nat :=
  let a := y.pos / y.dstSize
  (a, (y.pos + n + y.dstSize - 1) / y.dstSize - a)

/-- The source range of a chunk of n destination bytes: address and length. -/
def Copy.srcRange (y : Copy) (n : Nat) : Nat × Nat :=
  let (a, k) := y.elems n
  (y.src.toNat + a * y.srcSize, k * y.srcSize)

/-- The destination bytes of a chunk, from its source (R350, R352). -/
def Copy.bytes (y : Copy) (n : Nat) (o : Op) : Bytes :=
  let (a, k) := y.elems n
  let raw (i : Nat) : Nat := o.readN (y.src.toNat + (a + i) * y.srcSize) y.srcSize
  match y.chain with
  | none => (List.range n).map fun i => o.byte (y.src.toNat + y.pos + i)
  | some c => (((List.range k).flatMap fun i => bytesLE y.dstSize (c.elem (raw i))).drop (y.pos % y.dstSize)).take n

/-- An operation of a copy. -/
def Copy.op (y : Copy) (core grp : Nat) (kind : OpKind) : Op :=
  { core, slot := y.slot, gen := y.gen, path := y.path, pid := y.pid, grp, pc := y.pc, ctx := y.ctx, team := y.team, kind }

def State.updCopy (s : State) (core i : Nat) (f : Copy → Copy) : State :=
  s.updCore core fun c => { c with copies := c.copies.upd i f }

/-- Read the source of the next chunk: at the home slices, or in the scratchpad (R188, R350). -/
def State.copyRead (s : State) (core i : Nat) (y : Copy) : State :=
  let (a, n) := y.srcRange y.chunk
  let id := s.stamp
  let o := y.op core (match s.group? core y.slot with | some g => g.num | none => 0) .copyRead
  let s := s.updCopy core i fun y => { y with read := some id }
  if y.ssp then
    let sp := match s.team? y.team with | some t => t.sp | none => []
    let got : SMap Line := (linesOf a n).map fun ln => (ln, BitVec.ofNat 1024 (readLE (SMap.get 0 sp) (128 * ln) 128))
    { s.bump with ops := s.ops.put id { o with got } }
  else s.startOp o fun id s => s.reads id o (linesOf a n)

/-- Write bytes into a team's scratchpad. -/
def State.copyToSp (s : State) (team a : Nat) (bs : Bytes) : State :=
  let s := s.updTeam team fun t => (linesOf a bs.length).foldl (fun t ln => let (m, d) := lineOf a bs ln; t.spWrite ln m d) t
  s.touchSp team (pagesOf a bs.length)

/-- Write the bytes of a chunk: whole lines as 0x02, partial lines as masked writes 0x03; over the route for a
remote destination (R350), whose draining or lack of a live strand is a route fault (R71). -/
def State.copyOut (s : State) (core grp : Nat) (y : Copy) (bs : Bytes) : State :=
  let a := y.dst.toNat + y.pos
  let o := y.op core grp (.copyWrite y.id)
  let lns := linesOf a bs.length
  if y.dsp then s.copyToSp y.team a bs
  else if y.remote ∧ !s.routeOpen y.ctx y.route then (s.addLate o 8 y.dst 0).updCore core fun c => c.cutCopy y.id
  else if y.remote then
    s.startRemote o y.route y.fm (lns.map fun ln =>
      let (m, d) := lineOf a bs ln
      if m = wholeMask then { op := 2, addr := 128 * ln, data := bytesLE 128 d.toNat }
      else { op := 3, addr := 128 * ln, data := bytesLE 128 d.toNat ++ bytesLE 16 m.toNat })
  else s.startOp { o with pages := pagesOf a bs.length } fun id s => lns.map fun ln =>
    let (m, d) := lineOf a bs ln
    s.lineWrite id o ln m d

/-- The unit of a chunk ends (R99, R142). -/
def State.endChunk (s : State) (core ctx : Nat) : State :=
  let s := s.slewFree .copy core 0
  match s.srv? 2 core ctx 0 with
  | some v => s.putSrv (v.endUnit s.now (s.backlogged v))
  | none => s

/-- A chunk that has been granted writes its bytes, and the copy goes on. -/
def State.runChunk (s : State) (core i : Nat) (y : Copy) : State :=
  let n := y.chunk
  let o := match y.read with | some id => (s.ops.find id).getD (y.op core 0 .copyRead) | none => y.op core 0 .copyRead
  let bs := y.bytes n o
  let s := match y.read with | some id => { s with ops := s.ops.erase id } | none => s
  let s := s.copyOut core o.grp y bs
  let s := s.updCopy core i fun y => { y with pos := y.pos + n, read := none, started := false, turn := s.stamp }
  (s.bump).endChunk core y.ctx

/-- Whether a copy's team is being halted by force: chunks not started are not read (R132). -/
def State.copyHalted (s : State) (y : Copy) : Bool := (s.team? y.team).any fun t => t.stop == some 1 || t.stop == some 2

/-- COPY_CHUNK (R350): the next step of a copy's chunk: its reads, its reservation, or, once it has won its
arbitration, its writes. A chunk whose source fails is a late fault, and the chunks after it are dropped. -/
def execCopyChunk (core slot : Nat) (s : State) : Host.Outcome State Fault Refusal :=
  match (s.core core).copies.find slot with
  | none => .next s
  | some y =>
    if y.started then .next (s.runChunk core slot y)
    else if y.len ≤ y.pos then .next s
    else match y.read with
      | none => if s.performed y.acqOps && !s.copyHalted y then .next (s.copyRead core slot y) else .next s
      | some id =>
        match s.ops.find id with
        | none => .next (s.updCopy core slot fun y => { y with read := none })
        | some o =>
          if o.left ≠ 0 then .next s
          else if o.fail.isSome then .next ((s.updCopy core slot fun y => { y with len := y.pos, read := none }).closeOp id)
          else if s.copyHeld core then .next s
          else .next (s.slewRequest { unit := .copy, core, ctx := y.ctx, size := 4 - s.heldQuanta .copy core })

/-- Whether a copy is complete: its last write has performed if its release bit is set, and has been sent
otherwise (R188, R350). -/
def State.copyDone (s : State) (y : Copy) : Bool :=
  y.len ≤ y.pos && !y.started && (!y.rel || s.ops.all fun (_, o) => match o.kind with | .copyWrite c => c != y.id | _ => true)

/-- COPY_COMPLETE (R350): CPY falls, its flag counts down, and its slot is free. -/
def execCopyComplete (core slot : Nat) (s : State) : Host.Outcome State Fault Refusal :=
  match (s.core core).copies.find slot with
  | none => .next s
  | some y =>
    if !s.copyDone y then .next s
    else
      let s := (s.updCore core fun c => { c with copies := c.copies.erase slot }).askRound (s.ctxPart y.ctx)
      match s.group? core y.slot with
      | none => .next s
      | some g =>
        if g.gen ≠ y.gen then .next s
        else .next ((s.updGroup core y.slot fun g =>
          let g := g.lower 4 y.id
          match y.flag with | some f => g.subFlag f | none => g).tryFree core y.slot)

/-! ## The extended block (R212, R304) -/

/-- REGISTER_BLOCK_GRANT (R304): E registers fit for a group parked on RACQ; they map to the zero register and
`GSR.EXT` is set. The RACQ then issues. A group resumed with an extended block draws it again, with what it saved. -/
def execRegisterBlockGrant (core slot : Nat) (s : State) : Host.Outcome State Fault Refusal :=
  match s.group? core slot with
  | none => .next s
  | some g =>
    let d := s.descOf g
    if g.done ∨ g.stopped ∨ g.gsrBit 3 ∨ !g.waitsPool ∨ !s.poolFits core g.wc d.vext then .next s
    else
      let s := if g.redraw then s else (List.range d.vext).foldl (fun s i => s.zeroV core slot (d.vbase + i)) s
      .next (s.updGroup core slot fun g => { g.setGsr 3 with
        redraw := false
        paths := mapIf (fun p => p.park == some .pool) (fun p => { p with park := none }) g.paths })

end Sys2Proof.Machine
end

