-- ==== Sys2Proof/Machine/Debug.lean ====
section
/-! DEFINITION. Trace writes, samples, counter snapshots, and the debug block's readback, resume and clear (R244 to
R249, R255, R257 to R259). -/

namespace Sys2Proof.Machine

/-! ## Trace writes (R246 to R248) -/

/-- The 64 bytes of a trace record, as one little-endian number (R244). -/
def TraceRec.image (r : TraceRec) : BitVec 512 :=
  BitVec.ofNat 512 (r.kind % 256 + r.pidx % 8 * 2 ^ 8 + r.grp % 64 * 2 ^ 16 + r.det % 256 * 2 ^ 24 + r.ctx % 512 * 2 ^ 32
    + (r.core % 256 + r.quarter % 4 * 256) * 2 ^ 48 + r.pc.toNat * 2 ^ 64 + r.mask.toNat * 2 ^ 128 + r.time % 2 ^ 64 * 2 ^ 192
    + r.team % 2 ^ 64 * 2 ^ 256 + r.arg.toNat * 2 ^ 320)

/-- Whether a context's trace writes are on. -/
def State.tracing (s : State) (ctx : Nat) : Bool := s.rfld (.dbgcfg ctx) 1 1 == 1

/-- The core whose queue holds the oldest record of a context: a path's records keep the order of its events when its team
moves (R248). -/
def State.traceCore (s : State) (ctx : Nat) : Option Nat :=
  let heads := s.cores.filterMap fun (n, c) => (c.trace.find? fun r => r.ctx == ctx).map fun r => (n, r.seq)
  (leastBy Prod.snd heads).map Prod.fst

/-- Remove the first record of a context from a queue. -/
def dropRecord (ctx : Nat) : List TraceRec → List TraceRec
  | [] => []
  | r :: rs => if r.ctx = ctx then rs else r :: dropRecord ctx rs

/-- Start the write of a context's next record, from its core, to its slot in the ring. -/
def State.writeRecord (s : State) (ctx core : Nat) (r : TraceRec) : State :=
  let i := s.mon.performed.get 0 ctx
  let a := s.rfld (.dtrbase ctx) 0 52 + 64 + 64 * (i % 2 ^ s.rfld (.dtrbase ctx) 52 5)
  let s := s.updCore core fun c => { c with trace := dropRecord ctx c.trace }
  let o : Op := { core, slot := 64, ctx, kind := .traceWrite, pages := [a / 4096] }
  s.startOp o fun id s => [s.lineWrite id o (a / 128) (byteMask (a % 128) 64) (BitVec.ofNat 1024 (r.image.toNat * 2 ^ (8 * (a % 128))))]

/-- Write the counts of a context's trace buffer header (R246). -/
def State.writeHeader (s : State) (ctx : Nat) : State :=
  let s := { s with mon := { s.mon with lostShown := SMap.set 0 s.mon.lostShown ctx (s.mon.lost.get 0 ctx) } }
  s.virtWrite ctx (s.rfld (.dtrbase ctx) 0 52) (bytesLE 8 (s.mon.written.get 0 ctx) ++ bytesLE 8 (s.mon.lost.get 0 ctx))

/-- TRACE_WRITTEN_UPDATE (R247, R248): a record whose write has been acknowledged is counted in the header, which
shows the records lost as well; then the context's next record starts its write. Records of a context that does not trace are dropped. -/
def execTraceWrittenUpdate (ctx : Nat) (s : State) : Host.Outcome State Fault Refusal :=
  let busy := s.ops.any fun (_, o) => o.ctx == ctx && match o.kind with | .traceWrite => true | _ => false
  if !s.tracing ctx then
    .next { s with cores := s.cores.map fun (n, (c : Core)) => (n, { c with trace := c.trace.filter fun r => r.ctx != ctx }) }
  else if busy then .next s
  else
    let n := s.mon.performed.get 0 ctx
    let s := if n = s.mon.written.get 0 ctx ∧ s.mon.lost.get 0 ctx = s.mon.lostShown.get 0 ctx then s else
      { s with mon := { s.mon with written := s.mon.written.put ctx n } }.writeHeader ctx
    match s.traceCore ctx with
    | none => .next s
    | some core =>
      match (s.core core).trace.find? fun r => r.ctx == ctx with
      | none => .next s
      | some r => .next (s.writeRecord ctx core r)

/-- TRACE_ENABLE (R246, R259): WRITTEN and LOST clear, and trace writes start. -/
def execTraceEnable (ctx : Nat) (s : State) : Host.Outcome State Fault Refusal :=
  if !s.tracing ctx then .next s
  else .next ({ s with mon := { s.mon with
    written := s.mon.written.erase ctx, lost := s.mon.lost.erase ctx, performed := s.mon.performed.erase ctx } }.writeHeader ctx)

/-! ## Samples and snapshots (R249, R257) -/

/-- Whether every unexited path of a group is debug-stopped (R250, R254). -/
def Group.allStopped (g : Group) : Bool := g.paths.all fun p => !p.valid || p.dstop

/-- The oldest resident group on a quarter that `p` accepts and that is not debug-stopped throughout (R250). -/
def State.oldestGroup (s : State) (core quarter : Nat) (p : Group → Bool) : Option (Nat × Group) :=
  leastBy (fun e => e.2.placed * 64 + e.2.num)
    ((s.core core).groups.filter fun (_, g) => g.quarter == quarter && !g.done && !g.allStopped && p g)

/-- The sample of a context on a quarter (R249). A group to which no stall reason applies, as another context's instruction
issues in that cycle, leaves DET open (log 94). -/
def State.sampleOf (s : State) (core quarter ctx : Nat) : State :=
  let rest : State :=
    match s.oldestGroup core quarter fun g => g.ctx == ctx with
    | none => s
    | some (sl, g) =>
      let i := (leastBy (fun i : Nat => (g.path i).born) ((List.range 8).filter fun i => (g.path i).valid)).getD 0
      match s.stallOf core g with
      | some r => s.tracePath core sl i 5 r 0
      | none => s.chose.tracePath core sl i 5 (s.choose 256) 0
  match s.issueChoice core quarter with
  | some (sl, i) =>
    (match s.group? core sl with
     | some g => if g.ctx = ctx ∧ (s.breakAt g (g.path i)).isNone then s.tracePath core sl i 5 0xFF 0 else rest
     | none => rest)
  | none => rest

/-- The key under which the cycles since a context's last sample on a quarter are counted. -/
def sampleKey (core quarter ctx : Nat) : Nat := (core * 4 + quarter) * 256 + ctx

/-- Whether a context's sample on a quarter is due (R249). -/
def State.sampleDue (s : State) (core quarter ctx : Nat) : Bool :=
  let j := s.rfld (.dbgcfg ctx) 8 5
  j != 0 && 2 ^ j ≤ s.mon.sampleFrom.get 0 (sampleKey core quarter ctx)

/-- SAMPLE (R249): every context whose period has passed on the quarter. -/
def execSample (core quarter : Nat) (s : State) : Host.Outcome State Fault Refusal :=
  .next ((((s.core core).groups.map fun (_, g) => g.ctx).eraseDups.filter (s.sampleDue core quarter)).foldl (fun s ctx =>
    let k := sampleKey core quarter ctx
    ({ s with mon := { s.mon with sampleFrom := s.mon.sampleFrom.put k (s.mon.sampleFrom.get 0 k - 2 ^ s.rfld (.dbgcfg ctx) 8 5) } } : State).sampleOf
      core quarter ctx) s)

/-- COUNTER_SNAPSHOT (R257): at each postmark multiple of 1000 ns. -/
def execCounterSnapshot (s : State) : Host.Outcome State Fault Refusal :=
  let have_ : Bool := match s.mon.snaps with | (t, _) :: _ => t == s.now | [] => false
  if s.now % 1000 = 0 ∧ !have_ then
    .next { s with mon := { s.mon with snaps := (s.now, s.mon.shared) :: s.mon.snaps.take 65536 } }
  else .next s

/-! ## Readback, resume and clear (R255, R258, R259) -/

/-- A group by core and slot: resident, or in the image of a team that left them (R255, R258). -/
def State.anyGroup (s : State) (core slot : Nat) : Option Group :=
  match s.group? core slot with
  | some g => some g
  | none => s.sched.teams.findSome? fun (_, t) =>
      match t.saved with
      | some v => (v.groups.find? fun (k, _) => k == 64 * core + slot).map Prod.snd
      | none => none

/-- The tag words of a physical register (R258). -/
def pvrTag (p : Option Pvr) : Nat × Nat :=
  match p with
  | none => (0, 0)
  | some p => (p.ctx % 512 + p.count % 256 * 2 ^ 9 + (if p.pinned then 2 ^ 17 else 0) + (if p.collided then 2 ^ 18 else 0)
      + (if p.shared then 2 ^ 19 else 0) + 2 ^ 20, p.fp.toNat)

/-- A number as the eight words of a snapshot. -/
def words8 (x : Nat) : List Nat := (List.range 8).map fun i => x / 2 ^ (64 * i) % 2 ^ 64

/-- A result-table entry as a bit string from its valid bit on (R208, R258). -/
def RtEntry.image (t : RtEntry) : Nat :=
  let pages := (t.pages.take 4).foldl (fun (acc : Nat × Nat) p => (acc.1 + (1 + p % 2 ^ 40 * 2) * 2 ^ (41 * acc.2), acc.2 + 1)) (0, 0)
  let key := leOf t.keyBytes
  1 + 2 * (key + t.val.toNat * 2 ^ 243 + (if t.xr then 2 ^ 257 else 0) + (if t.mm then 2 ^ 258 else 0) + t.epoch.toNat * 2 ^ 259
    + pages.1 * 2 ^ 291)

/-- The words of the item that DSEL selects (R258). -/
def State.readback (s : State) (v : W64) : List Nat :=
  let core := fld v 0 8
  let idx := fld v 11 14
  let wc := fld v 25 2
  let c := s.core core
  let beat (p : Option Pvr) : List Nat := match p with | some p => words8 (p.val.toNat / 2 ^ (512 * fld v 27 2)) | none => []
  let tag (p : Option Pvr) : List Nat := [(pvrTag p).1, (pvrTag p).2]
  let grp (slot : Nat) : Option Group := s.anyGroup core slot
  match fld v 8 3 with
  | 0 => if idx = 0 ∨ inPositionZero wc idx then [0x1FF + 2 ^ 17 + 2 ^ 20] else tag (c.pvrs.find (8192 * wc + idx))
  | 1 => if inPositionZero wc idx then [] else beat (c.pvrs.find (8192 * wc + idx))
  | 2 => if v.getLsbD 29 then beat (c.pvrs.find (32768 + idx)) else tag (c.pvrs.find (32768 + idx))
  | 3 => match grp (idx / 64) with | some g => [(g.vname.get 0 (idx % 64)).toNat] | none => []
  | 4 => match c.rt.find? fun t => t.set == idx / 8 && t.way == idx % 8 with | some t => words8 t.image | none => []
  | 5 => match grp (idx / 8) with
    | some g =>
      let p := g.path (idx % 8)
      [p.pc.toNat, p.mask.toNat, (if p.valid then 1 else 0) + (if p.ready && g.readyPath then 2 else 0) + (if p.dstop then 4 else 0)
        + (s.stallOfPath core g p).getD 0 * 8]
    | none => []
  | 6 => match grp idx with
    | some g => [g.ctx % 512 + g.quarter % 4 * 2 ^ 9 + (match s.team? g.team with | some t => t.idx | none => 0) % 2 ^ 32 * 2 ^ 11
        + g.num % 64 * 2 ^ 43, g.gsr.toNat]
    | none => []
  | _ => match grp (idx / 192) with | some g => [(g.sreg (idx % 192)).toNat] | none => []

/-- DSEL (R258): a write to it takes a snapshot of the selected item into DRD0 to DRD7. -/
def execDsel (value : BitVec 64) (s : State) : Host.Outcome State Fault Refusal :=
  let v := RegName.written .dsel (s.reg .dsel) value (BitVec.allOnes 64)
  let ws := s.readback v
  .next ((List.range 8).foldl (fun s i => s.setReg (.drd i) (BitVec.ofNat 64 (ws[i]?.getD 0))) (s.setReg .dsel v))

/-- Resume the named paths of a group. -/
def Group.resumePaths (g : Group) (ps : List Nat) : Group :=
  ps.foldl (fun g i => g.updPath i fun p => { p with dstop := false, bpSkip := some p.pc }) g

/-- DRESUME (R255): the named debug-stopped paths go on, on their core or in the image of a team that left it; a
context other than the slot's makes the write do nothing. -/
def execDresume (value : BitVec 64) (s : State) : Host.Outcome State Fault Refusal :=
  let core := fld value 0 8
  let slot := fld value 8 6
  let ctx := fld value 22 9
  let named (g : Group) : List Nat := (List.range 8).filter fun i => value.getLsbD (14 + i) && (g.path i).valid && (g.path i).dstop
  match s.group? core slot with
  | some g =>
    if g.ctx ≠ ctx then .next s
    else
      let ps := named g
      .next (ps.foldl (fun s i => s.tracePath core slot i 7 0 0) (s.updGroup core slot fun g => g.resumePaths ps))
  | none =>
    let k := 64 * core + slot
    match s.sched.teams.find? fun (_, t) => t.ctx == ctx && t.saved.any fun v => v.groups.any fun (j, _) => j == k with
    | none => .next s
    | some (id, t) =>
      match t.saved with
      | none => .next s
      | some v =>
        match v.groups.find? fun (j, _) => j == k with
        | none => .next s
        | some (_, g) =>
          let ps := named g
          let v := { v with groups := mapIf (fun e => e.1 == k) (fun (e : Nat × Group) => (e.1, e.2.resumePaths ps)) v.groups }
          let s := s.updTeam id fun t => { t with saved := some v }
          .next (ps.foldl (fun s i =>
            let p := g.path i
            s.trace { kind := 7, pidx := i, grp := g.num, det := 0, ctx, core, quarter := g.quarter, pc := p.pc, mask := p.mask
                      time := s.now, arg := 0, team := t.idx }) s)

/-- DCLR (R259): the histogram and reason counters of one quarter clear. -/
def execDclr (value : BitVec 64) (s : State) : Host.Outcome State Fault Refusal :=
  let x := fld value 0 10
  let s := (List.range 17).foldl (fun s b => s.setReg (.hist x b) 0) s
  .next ((List.range 11).foldl (fun s r => s.setReg (.reason x r) 0) s)

end Sys2Proof.Machine
end

