-- ==== Sys2Proof/Machine/Mgmt.lean ====
section
/-! DEFINITION. Management: messages and their checks, CONFIG and METERSET, and what a register write set starts (R18
to R20, R23, R25, R41, R42, R79, R89 to R94, R103, R104, R106 to R108, R110, R111, R144, R145, R168, R171, R417). -/

namespace Sys2Proof.Machine

/-! ## Messages (R89) -/

/-- Bytes [b, b + n) of a message's command. -/
def cmdField (m : MgmtMsg) (b n : Nat) : Nat := leOf ((m.command.drop b).take n)

/-- What a message's signature covers. -/
def signedBytes (m : MgmtMsg) : Bytes :=
  bytesLE 8 m.mseq.toNat ++ bytesLE 2 m.payload.length ++ bytesLE 6 m.resv.toNat ++ m.command ++ m.payload

/-- The key that signs management messages: the management key, or the provisioning key while none is enrolled (R91). -/
def State.mgmtKey (s : State) : BitVec 256 :=
  let k : BitVec 256 := s.reg (.mkey 3) ++ s.reg (.mkey 2) ++ s.reg (.mkey 1) ++ s.reg (.mkey 0)
  if k = 0 then Config.provisioningKey else k

/-- Whether a message is accepted: its sequence is current and, if it must be signed, its signature verifies. -/
def State.authentic (s : State) (m : MgmtMsg) (signed : Bool) : Bool :=
  decide ((s.reg .mseqlast).toNat < m.mseq.toNat) && (!signed || Config.ed25519Verify s.mgmtKey (Config.sha512 (signedBytes m)) m.signature)

/-- The status of a command that the device's state does not allow (R18, R90). -/
def notReady : Nat := 10

/-- Answer a message. -/
def State.mgmtAnswer (s : State) (m : MgmtMsg) (status : Nat) (data : Bytes) : State := s.emitOut (.mgmtReply m.mseq status data)

/-- Whether the bytes of a command outside its operands are zero (R5, R87). -/
def reservedOk (m : MgmtMsg) (ops : List (Nat × Nat)) : Bool :=
  m.resv == 0 && cmdField m 1 1 < 4 && cmdField m 4 4 == 0 &&
    (List.range 56).all fun i => ops.any (fun (b, n) => decide (b ≤ i + 8 ∧ i + 8 < b + n)) || cmdField m (i + 8) 1 == 0

/-- Whether the host port can be reached: a port with no trained lane carries nothing (R15). -/
def State.portUp (s : State) : Bool := s.rfld .hpstat 0 4 != 0

/-- What every management command shares: its checks, and then its own action, which answers for itself. The reserved bits are
looked at before the device's state: the model's choice (log 110). -/
def State.manage (s : State) (m : MgmtMsg) (signed early : Bool) (ops : List (Nat × Nat)) (act : State → State) : State :=
  if !s.portUp then s
  else if m.command.length ≠ 64 ∨ 8128 < m.payload.length ∨ m.signature.length ≠ 64 then s.mgmtAnswer m 3 []
  else if !s.authentic m signed then s.mgmtAnswer m 8 []
  else
    let s := s.setReg .mseqlast m.mseq
    if !reservedOk m ops then s.mgmtAnswer m 3 []
    else if !early && s.rfld .bstat 0 3 != 4 then s.mgmtAnswer m notReady []
    else act s

/-- The opcode and the subfunction of a message. -/
def isConfig (m : MgmtMsg) (sub : Nat) : Bool := cmdField m 0 1 == 0x40 && cmdField m 8 1 == sub

/-! ## Status, reads and attestation (R20, R25, R90) -/

/-- What a failure reads as in the diagnostic report: its kind, its unit and a lane. -/
def failureBytes : TestFailure → Bytes
  | .cluster n => bytesLE 8 (1 + n * 256)
  | .slice n => bytesLE 8 (2 + n * 256)
  | .lodraLane l k => bytesLE 8 (3 + l * 256 + k * 65536)
  | .hbmChannel c => bytesLE 8 (4 + c * 256)
  | .otherSram => bytesLE 8 5

/-- The diagnostic report: failures, host lanes that failed, spares in use and units out of service (R16, R24). -/
def Boot.reportBytes (b : Boot) : Bytes :=
  b.report.flatMap failureBytes ++ b.failedLanes.flatMap (fun k => bytesLE 8 (6 + k * 256)) ++
    b.spareUse.flatMap (fun (sl, u, k) => bytesLE 8 ((if sl then 8 else 7) + u * 256 + k * 65536)) ++
    b.outOfService.flatMap fun (sl, u) => bytesLE 8 ((if sl then 10 else 9) + u * 256)

/-- The far end of a link under a topology: device or plane, and its link (R60, R75). -/
def State.linkPeer (s : State) (n : Nat) : Nat × Nat :=
  let own := s.devId
  match s.rfld .lcfg 6 2 with
  | 1 => let b := (own + n + 1) % 17; (b, (own + 17 - b - 1) % 17)
  | 2 => (n, 0)
  | _ => (0, 0)

/-- The instance that SVSEL selects (R115). -/
def State.selectedSrv (s : State) : Option Srv :=
  let v := s.reg .svsel
  let cls := fld v 0 3
  let inst := fld v 3 10
  if 4 < cls then none
  else if v.getLsbD 19 then s.srv? cls inst mgmtCtx 0
  else s.srvs.find? fun x => x.cls == cls && x.inst == inst && x.slot == fld v 13 6 && x.ctx != mgmtCtx

def SrvSt.code : SrvSt → Nat
  | .idle => 0
  | .ready => 1
  | .run => 2
  | .capped => 3

/-- The lease that LSEL selects (R175). -/
def State.selectedLease (s : State) : Lease := s.lease (s.rfld .lsel 0 9) (s.rfld .lsel 9 8)

/-- SVSEL selects an instance: SVSTA and SVSTB hold its state as it stands then, as one snapshot (R115). -/
def State.latchSrv (s : State) : State :=
  match s.selectedSrv with
  | some v =>
    let b := (v.c % 2 ^ 35).toNat + v.e % 32 * 2 ^ 35 + v.st.code * 2 ^ 40 + v.ctx % 512 * 2 ^ 42 + v.route % 1024 * 2 ^ 51
    (s.setReg .svsta (BitVec.ofNat 64 v.d)).setReg .svstb (BitVec.ofNat 64 b)
  | none => (s.setReg .svsta 0).setReg .svstb (RegName.resetVal .svstb)

/-- LSEL selects a lease: LSTA and LSTB hold its state as it stands then, as one snapshot (R175). -/
def State.latchLease (s : State) : State :=
  let l := s.selectedLease
  let b := l.len / 4096 % 2 ^ 40 + l.st * 2 ^ 40 + l.rights % 8 * 2 ^ 43 + l.psize % 4 * 2 ^ 46 + min 255 l.grids.length * 2 ^ 48
  (s.setReg .lsta (BitVec.ofNat 64 l.base)).setReg .lstb (BitVec.ofNat 64 b)

/-- What a register reads as (R4, R25): most are held as they stand; some are views of other state, and a write-only
field reads as zero. -/
def State.readReg (s : State) (r : RegName) : W64 :=
  match r with
  | .ident => s.reg r ||| (Config.stepping.setWidth 64 <<< (16 : Nat))
  | .postmark => if s.rfld .bstat 0 3 = 0 then 0 else BitVec.ofNat 64 s.now
  | .pstat n =>
    let st := if (s.host.replies.any fun (_, l) => l.contains (.partitionTableChange n)) then 2 else if s.partValid n then 1 else 0
    putFld (putFld (s.reg r) 0 2 st) 2 7 (s.partUnits n).length
  | .lstat n => let (p, k) := s.linkPeer n; putFld (putFld (s.reg r) 12 6 p) 18 4 k
  | .dresume | .dclr => 0
  | _ => s.reg r

/-- What an address of the register space reads as: zero where it names no register (R25). -/
def State.readAddr (s : State) (a : Nat) : W64 := match regAt a with | some r => s.readReg r | none => 0

/-- CONFIG_STATUS_READ (R90): BSTAT, VDSTAT, SPMAP and HPSTAT, and the diagnostic report. -/
def execConfigStatusRead (m : MgmtMsg) (s : State) : Host.Outcome State Fault Refusal :=
  if !isConfig m 0 then .next s
  else .next (s.manage m false true [(8, 1)] fun s =>
    s.mgmtAnswer m 0 (([.bstat, .vdstat, .spmap, .hpstat] : List RegName).flatMap (fun r => bytesLE 8 (s.readReg r).toNat) ++ s.boot.reportBytes))

/-- Eight-byte words of a payload. -/
def words : Bytes → Nat → List Nat
  | _, 0 => []
  | bs, n + 1 => leOf (bs.take 8) :: words (bs.drop 8) n

/-- CONFIG_REGISTER_READ (R25, R90). -/
def execConfigRegisterRead (m : MgmtMsg) (s : State) : Host.Outcome State Fault Refusal :=
  if !isConfig m 2 then .next s
  else .next (s.manage m false false [(8, 1)] fun s =>
    if m.payload.length % 8 ≠ 0 then s.mgmtAnswer m 3 []
    else s.mgmtAnswer m 0 ((words m.payload (m.payload.length / 8)).flatMap fun a => bytesLE 8 (s.readAddr a).toNat))

/-- The fields of an attestation report in order (R20). -/
def State.attestation (s : State) (nonce : Bytes) : Bytes :=
  nonce ++ bytesLE 8 s.now ++ bytesLE 8 (s.readReg .ident).toNat ++ s.boot.digests.flatMap (fun d => bytesLE 64 d.digest.toNat) ++
    bytesLE 64 s.boot.chain.toNat ++ (List.range 48).flatMap fun n => bytesLE 8 (s.reg (.pgeo n)).toNat

/-- CONFIG_ATTESTATION (R20): the report over the nonce, and its signature. -/
def execConfigAttestation (m : MgmtMsg) (s : State) : Host.Outcome State Fault Refusal :=
  if !isConfig m 6 then .next s
  else .next (s.manage m false true [(8, 1), (16, 32)] fun s =>
    let r := s.attestation ((m.command.drop 16).take 32)
    s.mgmtAnswer m 0 (r ++ Config.identitySign (Config.sha512 r)))

/-! ## Register write sets (R41, R42, R90, R93, R103, R104, R106, R107, R144, R145, R417) -/

/-- One triple of a write set. -/
structure RegWrite where
  name : RegName
  value : W64
  mask : W64

/-- The triples of a payload; nothing where one names no register, or a meter (R25, R112). -/
def regWrites : List Nat → Option (List RegWrite)
  | a :: v :: k :: rest =>
    match regAt a, regWrites rest with
    | some (.fmeter _ _), _ => none
    | some r, some ws => some ({ name := r, value := BitVec.ofNat 64 v, mask := BitVec.ofNat 64 k } :: ws)
    | _, _ => none
  | [] => some []
  | _ => none

/-- The registers after a whole set, in payload order (R90). -/
def State.afterWrites (s : State) (ws : List RegWrite) : State :=
  ws.foldl (fun s w => s.setReg w.name (w.name.written (s.reg w.name) w.value w.mask)) s

/-- The unit that an engine lies in (R27, R95). -/
def engineUnit (cls inst : Nat) : Nat := if cls = 0 then inst / 16 else if cls = 3 then unitOfChannel inst else inst / 4

/-- Whether a context is to have an instance of a class in a unit. -/
def State.holds (t : State) (cls unit ctx : Nat) : Bool :=
  t.ctxValid ctx && (t.reg (.svcfg ctx cls)).getLsbD 52 && (t.reg (.svumask ctx)).getLsbD unit

/-- Whether a context that is being destroyed still has an instance in a unit (R94, R103). -/
def State.lingers (t : State) (cls unit ctx : Nat) : Bool :=
  !t.ctxValid ctx && t.srvs.any fun v => v.cls == cls && v.ctx == ctx && engineUnit cls v.inst == unit

/-- Whether the instances that a unit's engine is to have are within the class bound and its slots (R103). -/
def State.engineOk (t : State) (cls unit : Nat) : Bool :=
  let ns := (List.range 256).filter fun n => t.holds cls unit n || t.lingers cls unit n
  decide (ns.length ≤ arbiterSlots cls) &&
    decide (ns.foldl (fun a n => a + utilisation (t.rfld (.svcfg n cls) 0 24) (t.rfld (.svcfg n cls) 24 24)) 0 ≤ t.bound cls)

/-- The bound routes whose LINK template is enabled. -/
def State.linkedRoutes (t : State) : List Nat :=
  (t.regs.filterMap fun (a, _) => match regAt a with | some (.svlink i) => some i | _ => none).filter fun i =>
    t.rteValid i && (t.reg (.svlink i)).getLsbD 52

/-- Whether the routes' instances at a link are within the bound and its slots. -/
def State.linkOk (t : State) (link : Nat) : Bool :=
  let here := (t.srvsAt 4 link).map Srv.route
  let is := (here.filter fun i => (t.reg (.svlink i)).getLsbD 52) ++
    t.linkedRoutes.filter fun i => (t.strands i).contains link && !here.contains i
  decide (is.length ≤ arbiterSlots 4) &&
    decide (is.foldl (fun a i => a + utilisation (t.rfld (.svlink i) 0 24) (t.rfld (.svlink i) 24 24)) 0 ≤ t.bound 4)

/-- Whether a context's trace buffer obeys R246. -/
def State.traceOk (t : State) (n : Nat) : Bool :=
  t.rfld (.dbgcfg n) 1 1 == 0 ||
    (let (a, k) := t.traceBuf n
     let sz := t.rfld (.dtrbase n) 52 5
     a % 64 == 0 && decide (4 ≤ sz ∧ sz ≤ 24) && (t.liveLease n a k 2).isSome)

/-- Whether units lie in a context's partition. -/
def State.unitsIn (t : State) (n : Nat) : Bool := (t.ctxUnits n).all fun u => t.partHasUnit (t.ctxPart n) u

/-- Whether a context's home set lies in its units (R107). -/
def State.homesIn (t : State) (n : Nat) : Bool := (t.homes n).all fun c => (t.ctxUnits n).contains (c / 2)

/-- Whether a context's root table lies in management memory of its partition (R175). -/
def State.rootOk (t : State) (n : Nat) : Bool :=
  let a := t.rfld (.troot n) 16 23 * 65536
  decide (0x1F0000000 ≤ a % 2 ^ 33) && t.partHasUnit (t.ctxPart n) (unitOfChannel (channelOf a))

/-- A written register's own limits (R41, R43, R60, R75, R114, R115, R125, R144, R151, R175, R259, R417). The limits on
HQCFG.CTX of a bound queue and on SGMASK.PART are the model's choice (log 62). -/
def State.limitsOk (t : State) (r : RegName) : Bool :=
  let f := t.rfld r
  match r with
  | .pgeo _ => decide (f 1 3 ≤ f 4 3 ∧ f 7 2 ≤ f 9 2) && f 11 2 != 3 && (f 11 2 == 0 || (f 1 3 == f 4 3 && f 7 2 == f 9 2))
  | .psched _ => f 0 16 != 0 && f 17 15 != 0
  | .ctxcfg _ => decide (f 1 6 < 48) && f 18 16 != 0
  | .sgmask _ => decide (f 24 6 < 48)
  | .hqcfg _ => f 9 8 != 0 && (f 20 1 == 0 || decide (f 0 9 < 256))
  | .svcfg _ _ | .svlink _ => f 52 1 == 0 || decide (1 ≤ f 0 24 ∧ f 0 24 ≤ f 24 24 ∧ 1000 ≤ f 24 24)
  | .svumask n => t.unitsIn n
  | .chome n _ => t.homesIn n
  | .svbound => (List.range 5).all fun i => decide (1 ≤ f (10 * i) 10 ∧ f (10 * i) 10 ≤ 973)
  | .pslew _ => decide (56 ≤ f 0 8) && f 8 8 != 0 && decide (f 16 4 ≤ 8)
  | .pramp _ _ => decide (40 ≤ f 0 8 ∧ 40 ≤ f 8 8)
  | .therm _ => decide (1 ≤ f 8 8 ∧ f 8 8 ≤ 20) && decide (f 16 8 < f 0 8)
  | .lcfg => f 6 2 != 3 && f 16 24 != 0 && (f 6 2 == 0 || decide (2 ≤ f 8 7 ∧ f 8 7 ≤ 64)) &&
      (f 6 2 != 1 || decide (f 8 7 ≤ 17 ∧ f 0 6 < f 8 7))
  | .svsel => decide (f 0 3 ≤ 4)
  | .lsel => decide (f 9 8 ≤ 254)
  | .dbgcfg n => decide (f 8 5 ≤ 20) && f 13 2 != 3 && t.traceOk n
  | .dtrbase n => t.traceOk n
  | .dbp _ _ => f 1 2 != 3
  | .troot n => t.rootOk n
  | _ => true

/-- The rules among registers that the whole set must leave (R41, R93, R106, R107, R145, R175). -/
def State.tablesOk (t : State) : Bool :=
  let ctxs := (List.range 256).filter t.ctxValid
  let parts := (List.range 48).filter t.partValid
  let groups := (List.range 256).filter fun n => t.rfld (.sgmask n) 30 1 == 1
  ((List.range 64).all fun u => decide ((parts.filter fun n => t.partHasUnit n u).length ≤ 1)) &&
    (ctxs.all fun n => t.partValid (t.ctxPart n) && t.unitsIn n && t.homesIn n && (t.rfld (.troot n) 0 1 == 0 || t.rootOk n)) &&
    (ctxs.all fun n => ctxs.all fun m => n == m || (t.homes n).all fun c => !(t.homes m).contains c) &&
    (ctxs.all fun n => ctxs.all fun m => t.ctxSg n != t.ctxSg m || t.ctxPart n == t.ctxPart m) &&
    (ctxs.all fun n => t.rfld (.sgmask (t.ctxSg n)) 30 1 == 0 || t.rfld (.sgmask (t.ctxSg n)) 24 6 == t.ctxPart n) &&
    (groups.all fun n => groups.all fun m => n == m || t.rfld (.sgmask n) 24 6 != t.rfld (.sgmask m) 24 6 ||
      (t.reg (.sgmask n) &&& t.reg (.sgmask m) &&& 0xFFFFFF) == 0) &&
    (List.range 4).all fun q => decide (parts.foldl (fun a n =>
      a + t.rfld (.pslew n) 0 8 * ((t.partUnits n).filter fun u => quadOfUnit u == q).length) 0 ≤ 2816)

/-- Whether a unit is empty (R42): no team on its cores, nothing in its slice, every frame of its channel free. -/
def State.unitEmpty (s : State) (u : Nat) : Bool :=
  let c := channelOfSlice u
  (s.sched.teams.all fun (_, t) => t.cores.all fun k => unitOfCore k != u) &&
    (s.msys.l2.all fun (k, _) => channelOf (128 * l2LineOf k) != c) && s.rfld (.fpool c) 0 21 == 2031616 && s.rfld (.fpool c) 21 21 == 0

/-- Whether every unit that changes partition is empty (R42). -/
def State.movesOk (s t : State) : Bool :=
  (List.range 64).all fun u => s.partOfUnit u == t.partOfUnit u || s.unitEmpty u

/-- Whether every template and unit that a set gains is admitted, and every lowered bound holds (R103, R115). -/
def State.admitsSet (s t : State) : Bool :=
  ((List.range 256).all fun n => (List.range 4).all fun k =>
    let same := s.ctxValid n && s.reg (.svcfg n k) == t.reg (.svcfg n k)
    (List.range 64).all fun u => !t.holds k u n || (same && s.holds k u n) || t.engineOk k u) &&
  ((List.range 4).all fun k => decide (s.bound k ≤ t.bound k) || (List.range 64).all fun u => t.engineOk k u) &&
  ((decide (s.bound 4 ≤ t.bound 4) && t.linkedRoutes.all fun i => s.reg (.svlink i) == t.reg (.svlink i)) ||
    (List.range 16).all t.linkOk)

/-- Whether every instance that a set removes may go (R104): no team of its context on its cores, no lease of it on its
channel. -/
def State.removesOk (s t : State) : Bool :=
  (List.range 256).all fun n => !s.ctxValid n || !t.ctxValid n || (List.range 64).all fun u =>
    let lost (k : Nat) : Bool := s.holds k u n && !t.holds k u n
    (!((List.range 3).any lost) || s.sched.teams.all fun (_, x) => x.ctx != n || x.cores.all fun c => unitOfCore c != u) &&
    (!lost 3 || s.msys.leases.all fun (k, l) => k / 256 != n || l.frames.all fun f => channelOf f != channelOfSlice u)

/-- The status that a set is refused with, if it is: 3 malformed, 4 by admission or because something stands in its way. -/
def State.setProblem (s t : State) (rs : List RegName) : Option Nat :=
  if !(rs.all t.limitsOk && t.tablesOk) then some 3
  else if !(s.movesOk t && s.admitsSet t && s.removesOk t) then some 4
  else if (List.range 256).any (fun n => !s.ctxValid n && t.ctxValid n && s.host.replies.any fun (_, l) => l.contains (.contextDestroy n)) then some 4
  else none

/-- What a changed register starts. -/
def State.startedBy (s t : State) (r : RegName) : List Instr :=
  let was (lo n : Nat) : Nat := s.rfld r lo n
  let now (lo n : Nat) : Nat := t.rfld r lo n
  match r with
  | .tinv => []
  | .dsel => [.dsel (t.reg r)]
  | _ =>
    if s.reg r = t.reg r then []
    else match r with
      | .pgeo n => [.partitionTableChange n]
      | .sgmask n => [.wayMaskChange n (s.reg r)]
      | .ctxcfg n =>
        (if was 0 1 = 1 ∧ now 0 1 = 0 then [.contextDestroy n] else []) ++
        (if was 0 1 = 0 ∧ now 0 1 = 1 then (List.range 4).map (.serverTemplateChange n) else []) ++
        (if was 15 1 = 1 ∧ now 15 1 = 0 then [.lendClear n] else [])
      | .svcfg n k => [.serverTemplateChange n k]
      | .svumask n => (List.range 4).map (.serverTemplateChange n)
      | .svlink i => [.serverTemplateChange (s.rteLctx i) 4]
      | .hqcfg q => if was 0 9 = now 0 9 ∧ was 20 1 = now 20 1 then [] else [.hardwareQueueBind q]
      | .dbgcfg n => if was 1 1 = 0 ∧ now 1 1 = 1 then [.traceEnable n] else []
      | _ => []

/-- What a write to a write-only register triggers (R4, R259). -/
def RegWrite.triggers (w : RegWrite) : List Instr :=
  match w.name with
  | .dresume => [.dresume (w.value &&& w.mask)]
  | .dclr => [.dclr (w.value &&& w.mask)]
  | _ => []

/-- The TINVs that a write set makes, one for each of its triples that writes the register, in payload order (R90, R168). -/
def State.tinvWrites (s : State) : List RegWrite → List Instr
  | [] => []
  | w :: ws =>
    let s := s.setReg w.name (w.name.written (s.reg w.name) w.value w.mask)
    (if w.name = .tinv then [.tinv (s.reg .tinv)] else []) ++ s.tinvWrites ws

/-- The CONFIG that starts one of these completes only when it has finished (R42, R94, R168, R171). -/
def waitsFor : Instr → Bool
  | .contextDestroy _ | .partitionTableChange _ | .wayMaskChange _ _ | .tinv _ => true
  | _ => false

/-- The owner of each cluster follows the home sets (R114); a cluster that changes hands is OWNED. -/
def State.showOwners (s : State) : State :=
  let ctxs := (List.range 256).filter s.ctxValid
  (List.range 128).foldl (fun s c =>
    let o := (ctxs.find? fun n => (s.homes n).contains c).getD 0x1FF
    if s.rfld (.clend c) 3 9 = o then s
    else ((s.setRfld (.clend c) 3 9 o).setRfld (.clend c) 0 3 0).setRfld (.clend c) 12 6 (if o = 0x1FF then 0 else (s.borrowers c o).length)) s

/-- A changed geometry (R12, R43, R123): a new partition's drops count from 0; the distributor's rotation starts again; and a
partition's clock is no faster than the voltage of its quadrants supports, which falls where no partition needs it. -/
def State.newGeometry (s t : State) : State :=
  let ns := (List.range 48).filter fun n => s.reg (.pgeo n) != t.reg (.pgeo n)
  let t := { t with sched := { t.sched with lastCore := t.sched.lastCore.filter fun (c, _) => !ns.contains (s.ctxPart c) && !ns.contains (t.ctxPart c) } }
  let t := ns.foldl (fun t n =>
    let t := if s.partValid n then t else t.setRfld (.pstat n) 16 32 0
    let low := (t.partQuads n).foldl (fun k q => max k (t.boot.volt.get 0 q)) 0
    if t.partValid n ∧ t.keff n < low then t.setStep n low else t) t
  (ns.flatMap fun n => s.partQuads n ++ t.partQuads n).eraseDups.foldl State.lowerVolt t

/-- What a write set does beside the registers: geometry, rotations (R123), the partition of a context that is being
destroyed (R94), rounds that a home set or a right to borrow may fill (R121), owners of clusters (R114) and readback (R115,
R175). -/
def State.follow (s t : State) (rs : List RegName) : State :=
  let t := if rs.any (fun r => match r with | .pgeo _ => true | _ => false) then s.newGeometry t else t
  let t := rs.foldl (fun t r =>
    match r with
    | .svumask n => if s.reg r = t.reg r then t else { t with sched := { t.sched with lastCore := t.sched.lastCore.erase n } }
    | .ctxcfg n =>
      if s.ctxValid n ∧ !t.ctxValid n then { t with sched := { t.sched with ending := t.sched.ending.put n (s.ctxPart n) } } else t
    | _ => t) t
  let t := rs.foldl (fun t r => match r with
    | .ctxcfg n | .chome n _ => if s.reg r = t.reg r then t else t.askRound (t.ctxPart n)
    | _ => t) t
  let t := if rs.contains .svsel then t.latchSrv else t
  (if rs.contains .lsel then t.latchLease else t).showOwners

/-- CONFIG_REGISTER_WRITE_SET (R90, R417): applied whole, in payload order, or not at all. -/
def execConfigRegisterWriteSet (m : MgmtMsg) (s : State) : Host.Outcome State Fault Refusal :=
  if !isConfig m 1 then .next s
  else .next (s.manage m true false [(8, 1)] fun s =>
    match if m.payload.length % 24 = 0 then regWrites (words m.payload (m.payload.length / 8)) else none with
    | none => s.mgmtAnswer m 3 []
    | some ws =>
      let t := s.afterWrites ws
      let rs := (ws.map RegWrite.name).eraseDups
      match s.setProblem t rs with
      | some st => s.mgmtAnswer m st []
      | none =>
        let evs := rs.flatMap (s.startedBy t) ++ ws.flatMap RegWrite.triggers ++ s.tinvWrites ws
        let waits := evs.filter waitsFor
        let t := s.follow t rs
        let t := if waits.isEmpty then t.mgmtAnswer m 0 [] else { t with host := { t.host with replies := t.host.replies ++ [(m.mseq, waits)] } }
        t.push evs)

/-- Answers that wait for nothing more leave. -/
def State.answerSettled (s : State) (rs : List (W64 × List Instr)) : State :=
  let s := { s with host := { s.host with replies := rs.filter fun (_, l) => !l.isEmpty } }
  (rs.filter fun (_, l) => l.isEmpty).foldl (fun s (q, _) => s.emitOut (.mgmtReply q 0 [])) s

/-- Something that CONFIGs wait for has finished. -/
def State.settle (s : State) (i : Instr) : State :=
  s.answerSettled (s.host.replies.map fun (q, (l : List Instr)) => (q, l.filter fun x => x != i))

/-! ## What a write set starts -/

/-- PARTITION_TABLE_CHANGE (R42): it is complete once no flit stamped with the old geometry is on the network. -/
def execPartitionTableChange (part : Nat) (s : State) : Host.Outcome State Fault Refusal :=
  let inside (r : Resv) : Bool := s.partHasUnit part (unitOfCore r.core)
  let sl := s.slew.get {} part
  let flying := s.pkts.any fun (_, p) => p.part == part && match p.stage with | .net _ => true | _ => false
  let new := s.host.replies.any fun (_, l) => l.contains (.partitionTableChange part)
  if !new then .next s
  else
    let s := { s with
      slew := if s.partValid part then s.slew.put part { sl with held := sl.held.filter inside, pending := sl.pending.filter inside } else s.slew.erase part }
    .next (if flying then s else s.settle (.partitionTableChange part))

/-- WAY_MASK_CHANGE (R171): lines in the ways that left a group's mask are written back and invalidated. -/
def execWayMaskChange (group : Nat) (old : BitVec 64) (s : State) : Host.Outcome State Fault Refusal :=
  let gone := old &&& ~~~(s.reg (.sgmask group))
  let out1 (l : L1Line) : Bool := l.sg == group && gone.getLsbD l.way
  let out2 (l : L2Line) : Bool := l.sg == group && gone.getLsbD (8 + l.way)
  let s := { s with cores := s.cores.map fun (n, (c : Core)) => (n, { c with l1 := c.l1.filter fun l => !out1 l }) }
  let keys := (s.msys.l2.filter fun (_, l) => out2 l).map Prod.fst
  .next ((s.updMem fun m => keys.foldl MemSys.evict m).settle (.wayMaskChange group old))

/-- SERVER_TEMPLATE_CHANGE (R95, R103, R104, R150): each engine of the template gets, keeps or loses its instance. -/
def execServerTemplateChange (ctx cls : Nat) (s : State) : Host.Outcome State Fault Refusal :=
  if cls = 4 then
    let s := s.dropSrvs fun v => v.cls == 4 && v.ctx == ctx && s.rteValid v.route && !(s.reg (.svlink v.route)).getLsbD 52
    let s := { s with srvs := s.srvs.map fun (v : Srv) => if v.cls = 4 ∧ v.ctx = ctx then v.retune (s.reg (.svlink v.route)) else v }
    .next ((s.linkedRoutes.filter fun i => s.rteLctx i == ctx).foldl (fun s i =>
      (s.strands i).eraseDups.foldl (fun s l => s.addSrv 4 l ctx i) s) s)
  else if !s.ctxValid ctx then .next s
  else
    let es := s.ctxEngines ctx cls
    let t := s.reg (.svcfg ctx cls)
    let s := s.dropSrvs fun v => v.cls == cls && s.ctxValid v.ctx && !(s.holds cls (engineUnit cls v.inst) v.ctx)
    let s := { s with srvs := s.srvs.map fun (v : Srv) => if v.cls = cls ∧ v.ctx = ctx then v.retune t else v }
    let s := es.foldl (fun s e => s.addSrv cls e ctx 0) s
    .next ((if cls ≤ 1 then s.recheck (s.ctxPart ctx) else s).askRound (s.ctxPart ctx))

/-- LEND_CLEAR (R110): LENT home clusters are recalled, LENDABLE ones return to OWNED. -/
def execLendClear (ctx : Nat) (s : State) : Host.Outcome State Fault Refusal :=
  if s.rfld (.ctxcfg ctx) 15 1 = 1 then .next s
  else .next ((s.homes ctx).foldl (fun s c => s.recallCluster ctx c) s)

/-- HARDWARE_QUEUE_BIND (R81, R111): a queue taken from its context loses its ring; its untaken commands complete with
status 9. -/
def execHardwareQueueBind (queue : Nat) (s : State) : Host.Outcome State Fault Refusal :=
  let r := s.ring queue
  let s := if !r.isSet ∨ s.queueCtx queue = some r.ctx then s
    else (s.discard queue r.ctx r.head (r.tail - r.head).toNat).updRing queue fun _ => {}
  .next (match s.queueCtx queue with | some n => s.askRound (s.ctxPart n) | none => s)

/-- The CONFIG that last asked for a step waits for it no longer. -/
def State.settleLast (s : State) (i : Instr) : State :=
  match (s.host.replies.reverse.find? fun (_, l) => l.contains i) with
  | none => s
  | some (q, _) => s.answerSettled (s.host.replies.map fun (k, (l : List Instr)) => (k, if k = q then l.erase i else l))

/-- A TINV is complete (R168): TINVST.BUSY falls with the last one. -/
def State.tinvDone (s : State) (v : W64) : State :=
  let s := s.updMem fun m => { m with tinvs := m.tinvs.filter fun e => e.1 != v }
  (s.setRfld .tinvst 0 1 (if s.msys.tinvs.isEmpty then 0 else 1)).settle (.tinv v)

/-- The range of addresses that a TINV value names (R168, R175). -/
def tinvMeets (value : W64) (a k : Nat) : Bool :=
  let size := pageBytes (fld value 50 2)
  let lo := if value.getLsbD 9 then 0 else fld value 10 40 * 4096 / size * size
  let n := if value.getLsbD 9 then 2 ^ 52 else size
  decide (a < lo + n) && decide (lo < a + k)

/-- Whether a TINV is a write that has not been tested yet, and no second look at one that is pending: the CONFIGs that wait for the value
are more than its pending writes. -/
def State.tinvNew (s : State) (value : W64) : Bool :=
  let held := (s.msys.tinvs.filter fun e => e.1 == value).length
  held == 0 || decide (held < s.host.replies.foldl (fun n (_, (l : List Instr)) => n + l.count (.tinv value)) 0)

/-- TINV (R168): each write is refused where it meets a lease that is not FREE. Once accepted its translations go, and a walk in progress
for the context is discarded when it ends; it is complete when the walk has ended and the accesses translated before have performed or
been acknowledged. -/
def execTinv (value : BitVec 64) (s : State) : Host.Outcome State Fault Refusal :=
  let ctx := fld value 0 9
  if s.tinvNew value && s.msys.leases.any fun (k, l) => k / 256 == ctx && l.st != 0 && tinvMeets value l.base l.len then
    .next ((s.setRfld .tinvst 1 1 1).settleLast (.tinv value))
  else
    let used (p : Pkt) : Bool := p.ctx == ctx && p.opId != 0 && p.sys.isNone && tinvMeets value p.va 1 &&
      match p.stage with | .xlat | .dropped => false | _ => true
    let s := if !s.tinvNew value then s
      else
        let ids := (s.pkts.filter fun (_, p) => used p).map Prod.fst
        let s := (s.updMem fun m => { m with tinvs := m.tinvs ++ [(value, ids)] }).setReg .tinvst 1
        (s.staleWalks ctx fun _ => true).dropTlb ctx fun t => tinvMeets value (t.page * pageBytes t.size) (pageBytes t.size)
    let old := s.msys.tinvs.flatMap fun e => if e.1 = value then e.2 else []
    let inUse := (s.pkts.any fun (i, p) => old.contains i && used p) ||
      s.msys.walkers.any fun (_, w) => w.walk.any fun k => k.ctx == ctx && k.stale
    .next (if inUse then s else s.tinvDone value)

/-! ## The end of a context (R94) -/

/-- Commands of a destroyed context that no grid, lease or copy will complete: status 9. -/
def State.endCommands (s : State) (ctx : Nat) : State :=
  let mine := s.sched.cmds.filter fun (_, c) => c.ctx == ctx && (c.st == .taken || !([1, 2, 4] : List Nat).contains c.opc)
  let s := mine.foldl (fun s (id, c) =>
    let s := if c.opc = 1 ∧ c.st = .taken then s.dropGrid c else s
    let s := if c.opc = 3 then s.updLease ctx (c.fld 24 1) fun l => { l with makeCmd := none } else s
    let s := { s with lodra := { s.lodra with binding := s.lodra.binding.erase id } }
    s.completeCmd id 9 0) s
  (List.range 64).foldl (fun s q =>
    let r := s.ring q
    if r.isSet ∧ r.ctx = ctx then (s.discard q ctx r.head (r.tail - r.head).toNat).updRing q fun _ => {} else s) s

/-- Free the revoked leases of a context that nothing uses any more. -/
def State.endLeases (s : State) (ctx : Nat) : State :=
  (List.range 255).foldl (fun s n =>
    let l := s.lease ctx n
    if l.st = 4 ∧ l.grids.isEmpty ∧ s.leaseQuiet ctx l then
      let s := s.freeLease ctx n
      match l.freeCmd with | some id => s.completeCmd id 0 0 | none => s
    else s) s

/-- Whether anything of a destroyed context is left to end. -/
def State.ctxGone (s : State) (ctx : Nat) : Bool :=
  (s.sched.grids.all fun (_, g) => g.ctx != ctx) && (s.sched.teams.all fun (_, t) => t.ctx != ctx) &&
    (s.sched.cmds.all fun (_, c) => c.ctx != ctx) && (s.msys.leases.all fun (k, _) => k / 256 != ctx) &&
    (List.range 1024).all fun i => !(s.rteValid i && s.rteLctx i == ctx)

/-- CONTEXT_DESTROY (R94): the teams are halted and their state discarded, routes unbound, leases revoked, commands ended
and servers freed; it goes on until all of this has finished. -/
def execContextDestroy (ctx : Nat) (s : State) : Host.Outcome State Fault Refusal :=
  if s.ctxValid ctx then .next s
  else
    let routes := (List.range 1024).filter fun i => s.rteValid i && s.rteLctx i == ctx
    let s := routes.foldl (fun s i => if s.rteDrain i then s else s.unbind i) s
    let s := (List.range 255).foldl (fun s n => if (s.lease ctx n).st = 0 ∨ (s.lease ctx n).st = 4 then s else s.revoke ctx n) s
    let s := (s.sched.grids.filter fun (_, g) => g.ctx == ctx && g.fault.isNone).foldl (fun s (k, _) =>
      s.strayFault k { cls := 4, ctx, time := s.now, core := s.gridCore k }) s
    let s := (s.endCommands ctx).endLeases ctx
    if !s.ctxGone ctx then .next s
    else
      let s := (s.dropSrvs fun v => v.ctx == ctx).recheck (s.ctxPart ctx)
      let s := (List.range 4096).foldl (fun s k =>
        if s.rfld (.edgst k) 0 1 = 1 ∧ s.rfld (.edgst k) 1 9 = ctx then (s.setReg (.edgst k) 0).setReg (.edgcnt k) 0 else s) s
      let s := { s with sched := { s.sched with
        ending := s.sched.ending.erase ctx, resume := s.sched.resume.erase ctx, lastCore := s.sched.lastCore.erase ctx } }
      .next ((s.dropTlb ctx fun _ => true).settle (.contextDestroy ctx))

/-! ## Firmware, retest and reset (R15, R18, R19, R23) -/

/-- The measurement chain over some digests in load order (R19). The hashed string is the bytes of M and then those of the
digest, each lowest first: the model's choice (log 81). -/
def chainOf (ds : List FwDigest) : BitVec 512 :=
  ds.foldl (fun m d => Config.sha512 (bytesLE 64 m.toNat ++ bytesLE 64 d.digest.toNat)) 0

/-- Set the chain, and `MEAS` with it. -/
def State.measure (s : State) (ds : List FwDigest) : State :=
  let m := chainOf ds
  let s := { s with boot := { s.boot with digests := ds, chain := m } }
  (List.range 8).foldl (fun s i => s.setReg (.meas i) (m.extractLsb' (64 * i) 64)) s

/-- Whether an image's signature verifies under the Daluika firmware key (R19). -/
def imageOk (i : FwImage) : Bool := Config.ed25519Verify Config.firmwareKey (Config.sha512 i.bytes) i.sig

/-- The digest of an image. -/
def digestOf (i : FwImage) : FwDigest := { stage := i.stage, part := i.part, digest := Config.sha512 i.bytes }

/-- A new image's digest takes the place of the old one's in load order (R23). -/
def replaceDigest (ds : List FwDigest) (d : FwDigest) : List FwDigest :=
  let same (x : FwDigest) : Bool := x.stage == d.stage && x.part == d.part
  if ds.any same then mapIf same (fun _ => d) ds
  else ds.filter (fun x => decide (x.stage < d.stage) || (x.stage == d.stage && decide (x.part < d.part))) ++ [d] ++
    ds.filter fun x => !(decide (x.stage < d.stage) || (x.stage == d.stage && decide (x.part < d.part)))

/-- The image that the staged bytes make: a stage, a partition, the image, and its 64-byte signature. -/
def stagedImage (bs : Bytes) : FwImage :=
  let body := (bs.drop 2).take (bs.length - 66)
  { stage := leOf (bs.take 1), part := leOf ((bs.drop 1).take 1), bytes := body, sig := bs.drop (bs.length - 64) }

/-- CONFIG_FIRMWARE_LOAD (R19, R23, R90): a chunk is staged; the last one has the image verified. A partition's image
replaces its old one; a stage-1 image's digest replaces the old one's. -/
def execConfigFirmwareLoad (m : MgmtMsg) (s : State) : Host.Outcome State Fault Refusal :=
  if !isConfig m 3 then .next s
  else .next (s.manage m true true [(8, 2), (16, 8)] fun s =>
    let off := cmdField m 16 8
    if 1 < cmdField m 9 1 then s.mgmtAnswer m 3 []
    else
      let s := { s with boot := { s.boot with staged := (m.payload.mapIdx fun i b => (off + i, b)).foldl (fun t (a, b) => t.put a b) s.boot.staged } }
      if cmdField m 9 1 = 0 then s.mgmtAnswer m 0 []
      else
        let n := off + m.payload.length
        let i := stagedImage ((List.range n).map fun a => s.boot.staged.get 0 a)
        let s := { s with boot := { s.boot with staged := [] } }
        if n < 66 ∨ !imageOk i ∨ !(i.stage = 1 ∨ (i.stage = 2 ∧ i.part < 48)) then s.mgmtAnswer m 8 []
        else if s.rfld .bstat 0 3 ≠ 4 then s.mgmtAnswer m 0 []
        else if i.stage = 2 then (s.mgmtAnswer m 0 []).push [.partitionFirmwareUpdate i.part i]
        else (s.measure (replaceDigest s.boot.digests (digestOf i))).mgmtAnswer m 0 [])

/-- Enter a bring-up state (R15). -/
def State.enterBoot (s : State) (st : Nat) : State :=
  { s.setRfld .bstat 0 3 st with boot := { s.boot with entered := s.now } }

/-- TEST is entered (R15): the Lodra links train (R75). -/
def State.enterTest (s : State) : State :=
  ((List.range 16).foldl (fun s l => (s.setRfld (.lstat l) 0 1 0).setRfld (.lstat l) 9 3 1) s).enterBoot 2

/-- CONFIG_RETEST (R15): from YELLOW, TEST is entered, once the failed host lanes, if any, have trained again. RETRIES
saturates at 255, and the diagnostic report of earlier failures is emptied: the model's choices (log 82, log 111). -/
def execConfigRetest (m : MgmtMsg) (s : State) : Host.Outcome State Fault Refusal :=
  if !isConfig m 4 then .next s
  else .next (s.manage m true true [(8, 1)] fun s =>
    if s.rfld .bstat 0 3 ≠ 5 then s.mgmtAnswer m 3 []
    else
      let s := s.mgmtAnswer m 0 []
      let s := ((s.setRfld .bstat 8 8 0).setRfld .bstat 16 8 0).satFld .bstat 24 8 1
      let lanes := !s.boot.failedLanes.isEmpty
      let s : State := { s with boot := { s.boot with retraining := lanes, report := [], outOfService := [] } }
      if lanes then s else s.enterTest)

/-- A reset (R15): every register at its reset value and bring-up in REG. The connectivity association key and the last
management sequence are kept (R76, R92); meters and the count of retests go at power-on alone (R112, R116). -/
def State.restart (s : State) (powerOn : Bool) : State :=
  let kept := (s.regs.filter fun (a, _) => a == RegName.addr .mseqlast || (!powerOn && decide (0x80000 ≤ a ∧ a < 0xC0000)))
  let t : State := { regs := kept, turns := s.turns, stamp := s.stamp, free := s.free, host := { cak := s.host.cak, out := s.host.out } }
  if powerOn then t else t.setRfld .bstat 24 8 (s.rfld .bstat 24 8)

/-- CONFIG_RESET (R15, R90). -/
def execConfigReset (m : MgmtMsg) (s : State) : Host.Outcome State Fault Refusal :=
  if !isConfig m 5 then .next s
  else .next (s.manage m true true [(8, 1)] fun s => (s.mgmtAnswer m 0 []).restart false)

/-! ## Queue pairs and meters (R79, R91) -/

/-- CONFIG_QUEUE_PAIR (R79): byte 9 is 0 to create, 1 to destroy; bytes 16–17 the number; 20–23 the peer's queue pair;
24–27 and 28–31 the starting PSNs received and sent; 32–47 the peer's address. -/
def execConfigQueuePair (m : MgmtMsg) (s : State) : Host.Outcome State Fault Refusal :=
  if !isConfig m 7 then .next s
  else .next (s.manage m true false [(8, 2), (16, 2), (20, 28)] fun s =>
    let n := cmdField m 16 2
    let op := cmdField m 9 1
    let there := (s.host.qps.find n).isSome
    if 1 < op ∨ n < 16 ∨ 257 * 16 ≤ n ∨ there = (op == 0) ∨ 2 ^ 24 ≤ cmdField m 20 4 ∨ 2 ^ 24 ≤ cmdField m 24 4 ∨ 2 ^ 24 ≤ cmdField m 28 4 then s.mgmtAnswer m 3 []
    else
      let q : QPair := { peer := BitVec.ofNat 128 (cmdField m 32 16), peerQp := cmdField m 20 4
                         rxPsn := BitVec.ofNat 24 (cmdField m 24 4), txPsn := BitVec.ofNat 24 (cmdField m 28 4) }
      let qps := if op = 0 then s.host.qps.put n q else s.host.qps.erase n
      ({ s with host := { s.host with qps } } : State).mgmtAnswer m 0 [])

/-- METERSET (R91): a meter only rises. -/
def execMeterset (m : MgmtMsg) (s : State) : Host.Outcome State Fault Refusal :=
  if cmdField m 0 1 ≠ 0x41 then .next s
  else .next (s.manage m true false [(8, 3), (16, 8)] fun s =>
    let n := cmdField m 8 2
    let i := cmdField m 10 1
    let v := BitVec.ofNat 64 (cmdField m 16 8)
    if 256 < n ∨ 5 < i then s.mgmtAnswer m 3 []
    else if v.toNat < (s.reg (.fmeter n i)).toNat then s.mgmtAnswer m 3 []
    else (s.setReg (.fmeter n i) v).mgmtAnswer m 0 [])

end Sys2Proof.Machine
end

