-- ==== Sys2Proof/Machine/HostPort.lean ====
section
/-! DEFINITION. The host port: frames, the IPv6 addresses, RoCEv2 queue pairs and priority flow control (R76 to R82,
R88, R89, R92, R191). -/

namespace Sys2Proof.Machine

/-! ## Frames and addresses (R76, R77) -/

/-- Count a frame or packet dropped under R76, R77 or R79. -/
def State.dropFrame (s : State) : State := s.satFld .hpstat 16 32 1

/-- The management address and the address of a guest context. -/
def State.hmaddr (s : State) : BitVec 128 := s.reg (.hmaddr 1) ++ s.reg (.hmaddr 0)
def State.haddr (s : State) (n : Nat) : BitVec 128 := s.reg (.haddr n 1) ++ s.reg (.haddr n 0)

/-- Whether guest addresses answer (R18): the device is ready. -/
def State.guestsUp (s : State) : Bool := s.rfld .bstat 0 3 == 4

/-- Whether an address is configured: the management address, or a context's that is not zero (R77). -/
def State.configured (s : State) (a : BitVec 128) : Bool :=
  a != 0 && (a == s.hmaddr || (s.guestsUp && (List.range 256).any fun n => s.haddr n == a))

/-- Whether an address is the management address, once it is assigned (R77). -/
def State.forMgmt (s : State) (a : BitVec 128) : Bool := a != 0 && a == s.hmaddr

/-- Whether a RoCE packet to an address is for a queue pair of the context that has the address (R77, R79). -/
def State.forGuest (s : State) (dst : BitVec 128) (qpn : Nat) : Bool :=
  s.guestsUp && dst != 0 && decide (16 ≤ qpn ∧ qpn < 257 * 16) && s.haddr (qpn / 16 - 1) == dst

/-- A RoCE packet comes from its queue pair's fixed peer (R79). -/
def State.fromPeer (s : State) (h : RoceHdr) : Option QPair :=
  match s.host.qps.find h.qpn with
  | some q => if q.peer = h.src ∧ q.peerQp = h.srcQp then some q else none
  | none => none

/-- The event of a management message: the command it carries (R89 to R91), if it is one. -/
def mgmtEvent (m : MgmtMsg) : Option Instr :=
  if cmdField m 0 1 = 0x41 then some (.meterset m)
  else if cmdField m 0 1 ≠ 0x40 then none
  else match cmdField m 8 1 with
    | 0 => some (.configStatusRead m)
    | 1 => some (.configRegisterWriteSet m)
    | 2 => some (.configRegisterRead m)
    | 3 => some (.configFirmwareLoad m)
    | 4 => some (.configRetest m)
    | 5 => some (.configReset m)
    | 6 => some (.configAttestation m)
    | 7 => some (.configQueuePair m)
    | _ => none

/-- A management message reaches its command; one that names no command is malformed. -/
def State.takeMgmt (s : State) (m : MgmtMsg) : State :=
  match mgmtEvent m with
  | some i => s.push [i]
  | none => s.manage m true false ((List.range 56).map fun i => (i + 8, 1)) fun s => s.mgmtAnswer m 3 []

/-- A RoCE packet is delivered if it is for a guest and comes from its peer. -/
def State.takeRoce (s : State) (dst : BitVec 128) (h : RoceHdr) (i : Instr) : State :=
  if s.forGuest dst h.qpn then s.push [i] else s.dropFrame

/-! ## The requests of a queue pair (R79 to R82, R191) -/

/-- Replace or change a queue pair. -/
def State.putQp (s : State) (qpn : Nat) (q : QPair) : State := { s with host := { s.host with qps := s.host.qps.put qpn q } }
def State.updQp (s : State) (qpn : Nat) (f : QPair → QPair) : State := { s with host := { s.host with qps := s.host.qps.upd qpn f } }

/-- Whether an R_Key names a live lease of the context with host access that holds the range (R80). -/
def State.hostMay (s : State) (ctx : Nat) (key : BitVec 32) (va n : Nat) : Bool :=
  let num := key.toNat % 256
  let l := s.lease ctx num
  num != 255 && l.st == 2 && l.rights / 4 % 2 == 1 && l.rkey == key && l.covers va n

/-- The lengths that a packet of a message of n bytes may have, by its place in it (R79): the path MTU is 4096 bytes. -/
def formLen (f : RoceForm) (n k : Nat) : Bool :=
  match f with
  | .only => k == n && decide (n ≤ 4096)
  | .first | .middle => k == 4096 && decide (4096 < n)
  | .last => k == n && decide (0 < n ∧ n ≤ 4096)

/-- A host write that meets the exposed slot at a ring's head: a read in progress may still find what it held (R83). -/
def State.keepSlots (s : State) (ctx va n : Nat) : State :=
  let keep (q : Nat) (r : Ring) : Ring :=
    let a := r.base.toNat + 64 * (r.head.toNat % 2 ^ r.logn)
    if r.isSet ∧ r.ctx = ctx ∧ r.head ≠ r.tail ∧ a < va + n ∧ va < a + 64 then { r with was := r.was ++ [(s.slotCmd q ctx r.head).bytes] } else r
  { s with sched := { s.sched with rings := s.sched.rings.map fun (q, r) => (q, keep q r) } }

/-- The place of packet i of n in a message. -/
def formOf (i n : Nat) : RoceForm := if n ≤ 1 then .only else if i = 0 then .first else if i + 1 = n then .last else .middle

/-- The doorbell in 16 bytes (R81). -/
def doorbellOf (ctx : Nat) (d : Bytes) : Doorbell :=
  let b (i : Nat) : Byte := d[i]?.getD 0
  { ctx, kind := b 0, lq := b 1, logn := b 2, resv := b 3
    tail := BitVec.ofNat 32 (leOf ((d.drop 4).take 4)), base := BitVec.ofNat 64 (leOf ((d.drop 8).take 8)) }

/-- A doorbell reaches the sorting office; one of another kind or length is refused as malformed (R81). -/
def State.takeBell (s : State) (ctx : Nat) (data : Bytes) : State :=
  let d := doorbellOf ctx data
  if data.length ≠ 16 then s.refuseBell d 3
  else if d.kind = 1 then s.push [.setRing d]
  else if d.kind = 2 then s.push [.advanceTail d]
  else if d.kind = 3 then s.push [.resetRing d]
  else s.refuseBell d 3

/-- The response packets of an RDMA READ: at most one path MTU each, in order. -/
def State.readResponses (s : State) (h : RoceHdr) (va n : Nat) (o : Op) : State :=
  let m := max 1 ((n + 4095) / 4096)
  (List.range m).foldl (fun s i =>
    s.emitOut (.readResponse h.qpn (h.psn + BitVec.ofNat 24 i) (formOf i m) (o.bytes (va + 4096 * i) (min 4096 (n - 4096 * i))))) s

/-- The oldest request of a queue pair is over. -/
def State.popJob (s : State) (qpn : Nat) : State := s.updQp qpn fun q => { q with jobs := q.jobs.drop 1 }

/-- A NAK: the request leaves its PSN due, and what came after it on its queue pair goes (RoCEv2, log 113). -/
def State.nak (s : State) (h : RoceHdr) (o : Out) : State :=
  (s.updQp h.qpn fun q => { q with rxPsn := h.psn, jobs := [], write := none, send := none }).emitOut o

/-- A queue pair's oldest request starts an operation at the home slices. -/
def State.startJob (s : State) (qpn : Nat) (o : Op) (rs : List GateReq) : State :=
  (s.updQp qpn fun q => { q with jobs := updAt q.jobs 0 fun j => { j with op := some s.stamp } }).startGate o rs

/-- A queue pair's oldest request is carried out as far as it can be at once. The R_Key and the range of an RDMA are checked when
its turn comes, against the leases as they stand then (R80). -/
def State.runJob (s : State) (qpn : Nat) (w : PortWork) : State :=
  let ctx := qpn / 16 - 1
  match w with
  | .answer o => (s.popJob qpn).emitOut o
  | .nak h o => s.nak h o
  | .bell data =>
    let s := s.popJob qpn
    ({ s with turns := .port qpn :: s.turns } : State).takeBell ctx data
  | .write h key va n data =>
    if !s.hostMay ctx key va n then s.nak h (.nakAccess qpn h.psn)
    else (s.keepSlots ctx va data.length).startJob qpn (portOp ctx va data.length (.portWrite (some qpn))) (gateWrites va data)
  | .read h key va n =>
    if !s.hostMay ctx key va n then s.nak h (.nakAccess qpn h.psn)
    else s.startJob qpn (portOp ctx va n (.portRead (some qpn))) (s.gateReads ctx va n)

/-- The operation of a queue pair's oldest request is over: it is answered. One that failed at the home slices is answered as one
that may not be (R34, R39, log 113). -/
def State.endJob (s : State) (qpn : Nat) (w : PortWork) (o : Op) : State :=
  let t := s.popJob qpn
  match w with
  | .write h _ _ _ _ => if o.fail.isSome then s.nak h (.nakAccess qpn h.psn) else t.emitOut (.roceAck qpn h.psn)
  | .read h _ va n => if o.fail.isSome then s.nak h (.nakAccess qpn h.psn) else t.readResponses h va n o
  | _ => t

/-- Carry out a queue pair's requests, each after the one before has ended (R82, R191). -/
def State.settleJobs (s : State) (qpn : Nat) : Nat → State
  | 0 => s
  | n + 1 =>
    match ((s.host.qps.get {} qpn).jobs).head? with
    | none => s
    | some j =>
      match j.op with
      | none => match j.work with
        | .bell _ => s.runJob qpn j.work
        | _ => (s.runJob qpn j.work).settleJobs qpn n
      | some id =>
        match s.ops.find id with
        | none => (s.popJob qpn).settleJobs qpn n
        | some o => if o.left ≠ 0 then s else ((s.dropOp id).endJob qpn j.work o).settleJobs qpn n

/-- The host port goes on with a queue pair's requests. -/
def State.portGoes (s : State) (qpn : Nat) : State := s.settleJobs qpn (2 * (s.host.qps.get {} qpn).jobs.length + 2)

/-- A request that a queue pair accepts is carried out once those before it have been. -/
def State.accept (s : State) (qpn : Nat) (w : PortWork) : State := (s.updQp qpn fun q => { q with jobs := q.jobs ++ [{ work := w }] }).portGoes qpn

/-- A request in sequence is accepted and counted; a repeated one is answered again; one ahead of its turn is a sequence error
(R79). -/
def State.inSequence (s : State) (h : RoceHdr) (packets : Nat) (again : PortWork) (act : QPair → State → State) : State :=
  match s.fromPeer h with
  | none => s.dropFrame
  | some q =>
    if h.psn = q.rxPsn then act q (s.putQp h.qpn { q with rxPsn := q.rxPsn + BitVec.ofNat 24 packets })
    else if (h.psn - q.rxPsn).getLsbD 23 then s.accept h.qpn again
    else s.accept h.qpn (.answer (.nakSequence h.qpn q.rxPsn))

/-- The answer to a repeated request: an acknowledgement of what has been taken so far. -/
def ackAgain (h : RoceHdr) : PortWork := .answer (.roceAck h.qpn h.psn)

/-- A request is answered with a NAK of invalid request (R79, R81). -/
def State.invalid (s : State) (h : RoceHdr) : State := s.accept h.qpn (.nak h (.nakInvalid h.qpn h.psn))

/-- A packet that carries something unsupported, or a SEND on another queue pair than 0, is answered with a NAK of
invalid request (R79, R81). -/
def State.invalidRequest (s : State) (h : RoceHdr) : State :=
  s.inSequence h 1 (.answer (.nakInvalid h.qpn h.psn)) fun _ s => s.invalid h

/-- ETHERNET_FRAME (R76, R77, R89): checked under MACsec, by its IPv6 destination and by the management port, then
delivered, or dropped and counted. A frame above the MTU is dropped and counted too (log 85). -/
def execEthernetFrame (f : Frame) (s : State) : Host.Outcome State Fault Refusal :=
  if !s.portUp then .next s
  else
    let s := s.countDevice 20
    if f.mka then .next s
    else if !f.secured ∨ !f.icvOk ∨ 9216 < f.len then .next s.dropFrame
    else .next (match f.what with
      | .mgmt port m => if s.forMgmt f.dst ∧ port = s.rfld .hpcfg 0 16 then s.takeMgmt m else s.dropFrame
      | .ptp m => if s.forMgmt f.dst then s.push [.ptpMessage m] else s.dropFrame
      | .echo src data => if s.configured f.dst then s.push [.icmpv6Echo src f.dst data] else s.dropFrame
      | .neighbour src => if s.configured f.dst then s.push [.neighbourDiscovery src f.dst] else s.dropFrame
      | .rdmaWrite h key range data => s.takeRoce f.dst h (.rdmaWrite h key range data)
      | .rdmaRead h key va n => s.takeRoce f.dst h (.rdmaRead h key va n)
      | .send h data => s.takeRoce f.dst h (.send h data)
      | .roceAck h => s.takeRoce f.dst h (.roceAck h)
      | .roceNak n => s.takeRoce f.dst n.h (.roceNak n)
      | .readResponse h data => s.takeRoce f.dst h (.rdmaReadResponse h data)
      | .roceUnsupported h => if s.forGuest f.dst h.qpn then s.invalidRequest h else s.dropFrame
      | .other => s.dropFrame)

/-- A signed CONFIG sets the connectivity association key (R76). R90 lists no subfunction for it, so the message that carries it
is checked as every signed one is and brings the key beside its bytes (log 113). -/
def State.setCak (s : State) (m : MgmtMsg) (key : BitVec 256) : State :=
  s.manage m true false ((List.range 56).map fun i => (i + 8, 1)) fun s => ({ s with host := { s.host with cak := key } } : State).mgmtAnswer m 0 []

/-- MKA_FRAME (R76): key agreement makes or ends a secure association with a peer that holds the stored connectivity
association key. -/
def execMkaFrame (m : MkaMsg) (s : State) : Host.Outcome State Fault Refusal :=
  if !s.portUp ∨ m.cak ≠ s.host.cak then .next s else .next (s.setRfld .hpstat 4 1 (if m.live then 1 else 0))

/-- ICMPV6_ECHO (R77). -/
def execIcmpv6Echo (src dst : BitVec 128) (data : Bytes) (s : State) : Host.Outcome State Fault Refusal :=
  if s.portUp ∧ s.configured dst then .next (s.emitOut (.echoReply src dst data)) else .next s

/-- NEIGHBOUR_DISCOVERY (R77). -/
def execNeighbourDiscovery (src target : BitVec 128) (s : State) : Host.Outcome State Fault Refusal :=
  if s.portUp ∧ s.configured target then .next (s.emitOut (.neighbourReply src target)) else .next s

def State.setPtp (s : State) (c : PtpClock) : State := { s with host := { s.host with ptp := c } }

/-- The time of a Sync at its master is known: the device asks for the delay. The postmark it keeps is that at which the
request leaves the port (R78). -/
def State.askDelay (s : State) (c : PtpClock) : State := (s.setPtp { c with asked := none }).emitOut (.delayReq c.master c.seq)

/-- The rate that a found offset from the master asks for: against it, by an amount the spec does not state, at most
200 ppm (R14). -/
def servoRate (twiceOffset : Int) (free : Nat) : Int :=
  let k : Int := ((free % 200 + 1 : Nat) : Int)
  if twiceOffset = 0 then 0 else if 0 < twiceOffset then -k else k

/-- PTP_MESSAGE (R14, R78): the delay request-response exchange of a slave-only clock, with a one-step or a two-step
master; while locked, the offset it finds corrects the rate of the postmark. -/
def execPtpMessage (m : PtpMsg) (s : State) : Host.Outcome State Fault Refusal :=
  let c := s.host.ptp
  let same : Bool := c.master == m.master && c.seq == m.seq
  match m.kind with
  | .sync twoStep t =>
    if m.port ≠ 319 then .next s
    else
      let c : PtpClock := { master := m.master, seq := m.seq, came := some s.now, origin := if twoStep then none else some t.toNat }
      .next (if twoStep then s.setPtp c else s.askDelay c)
  | .followUp t =>
    if m.port = 320 ∧ same ∧ c.came.isSome ∧ c.origin.isNone then .next (s.askDelay { c with origin := some t.toNat }) else .next s
  | .delayResp t4 =>
    match c.origin, c.came, c.asked with
    | some t1, some t2, some t3 =>
      if m.port ≠ 320 ∨ !same then .next s
      else
        let s := s.setPtp {}
        if s.rfld .bstat 3 1 = 0 then .next s
        else
          let off : Int := ((t2 : Int) - t1) - ((t4.toNat : Int) - t3)
          .next { s.chose with boot := { s.boot with ppm := servoRate off (s.choose 200) } }
    | _, _, _ => .next s
  | .other => .next s

/-! ## RDMA from the host (R80, R82, R191) -/

/-- A packet of a WRITE message of which n bytes from an address are still to come. -/
def State.takeWrite (s : State) (h : RoceHdr) (rkey : BitVec 32) (va n : Nat) (data : Bytes) : State :=
  if !formLen h.form n data.length then s.invalid h
  else
    let left := if h.form = .first ∨ h.form = .middle then some (rkey, va + 4096, n - 4096) else none
    (s.updQp h.qpn fun q => { q with write := left }).accept h.qpn (.write h rkey va n data)

/-- RDMA_WRITE (R79, R80, R82): placed when its R_Key names a live lease that holds the whole range of the message, which
its first packet states. -/
def execRdmaWrite (h : RoceHdr) (rkey : BitVec 32) (range : RdmaRange) (data : Bytes) (s : State) :
    Host.Outcome State Fault Refusal :=
  .next (s.inSequence h 1 (ackAgain h) fun q s =>
    if h.form = .first ∨ h.form = .only then
      if q.write.isSome ∨ q.send.isSome then s.invalid h else s.takeWrite h rkey range.va.toNat range.len data
    else match q.write with
    | some (key, a, n) => s.takeWrite h key a n data
    | none => s.invalid h)

/-- RDMA_READ (R79, R80, R191): reads at the home slices, in queue-pair order, after the same check. A repeated one reads
again. -/
def execRdmaRead (h : RoceHdr) (rkey : BitVec 32) (va : BitVec 64) (len : Nat) (s : State) : Host.Outcome State Fault Refusal :=
  let w : PortWork := .read h rkey va.toNat len
  .next (s.inSequence h (max 1 ((len + 4095) / 4096)) w fun _ s => s.accept h.qpn w)

/-- SEND (R79, R81): on queue pair 0 a whole message delivers a doorbell, once the data of every RDMA WRITE before it has been placed
(R82); on any other it is answered with a NAK. -/
def execSend (h : RoceHdr) (data : Bytes) (s : State) : Host.Outcome State Fault Refusal :=
  if h.qpn % 16 ≠ 0 then .next (s.invalidRequest h)
  else .next (s.inSequence h 1 (ackAgain h) fun q s =>
    let starts : Bool := h.form == .first || h.form == .only
    let goesOn : Bool := h.form == .first || h.form == .middle
    if q.write.isSome ∨ q.send.isSome = starts ∨ 4096 < data.length ∨ (goesOn ∧ data.length ≠ 4096) then s.invalid h
    else
      let all := q.send.getD [] ++ data
      let s := (s.updQp h.qpn fun q => { q with send := if goesOn then some all else none }).accept h.qpn (ackAgain h)
      if goesOn then s else s.accept h.qpn (.bell all))

/-! ## The device's own requests (R79, R88) -/

/-- Whether PSN a is at or before PSN b. -/
def psnUpTo (a b : BitVec 24) : Bool := !(b - a).getLsbD 23

/-- Whether a request is answered by data, and not by an acknowledgement alone. -/
def Unacked.isRead (u : Unacked) : Bool := match u.out with | .rdmaRead .. => true | _ => false

/-- Bytes that a request moves for its COPYH. -/
def Unacked.moves (u : Unacked) : Nat := match u.out with | .rdmaWrite _ _ _ _ d => d.length | .rdmaRead _ _ _ _ n => n | _ => 0

/-- A request is over: the COPYH it served goes on (R88). -/
def State.requestDone (s : State) (u : Unacked) : State :=
  match u.cmd with
  | none => s
  | some id => (if u.isRead then s.updCmd id fun c => { c with phase := .ready } else s.endCopyh id u.moves).copyhStep id

/-- Every request up to a PSN is acknowledged, short of a READ whose data has not come. -/
def State.acked (s : State) (qpn : Nat) (q : QPair) (psn : BitVec 24) : State :=
  let now := q.unacked.takeWhile fun u => psnUpTo u.psn psn && !u.isRead
  if now.isEmpty then s
  else now.foldl State.requestDone (s.putQp qpn { q with unacked := q.unacked.drop now.length, sentAt := s.now })

/-- ROCE_ACK (R79): frees the acknowledged packets of a queue pair. -/
def execRoceAck (h : RoceHdr) (s : State) : Host.Outcome State Fault Refusal :=
  match s.fromPeer h with
  | none => .next s.dropFrame
  | some q => .next (s.acked h.qpn q h.psn)

/-- Go back N: send every unacknowledged request again, in order (R79). -/
def State.goBack (s : State) (qpn : Nat) : State :=
  match s.host.qps.find qpn with
  | none => s
  | some q => q.unacked.foldl (fun s u => s.emitOut u.out) (s.putQp qpn { q with sentAt := s.now })

/-- ROCE_NAK (R79): what came before the PSN it names is acknowledged; on a sequence error the device goes back N. Another
NAK starts nothing by itself (log 84). -/
def execRoceNak (n : RoceNak) (s : State) : Host.Outcome State Fault Refusal :=
  match s.fromPeer n.h with
  | none => .next s.dropFrame
  | some q =>
    let s := s.acked n.h.qpn q (n.h.psn - 1)
    .next (if n.kind = .sequence then s.goBack n.h.qpn else s)

/-- RETRANSMISSION_TIMEOUT (R79): 100 µs without acknowledgement. -/
def execRetransmissionTimeout (qpn : Nat) (s : State) : Host.Outcome State Fault Refusal :=
  match s.host.qps.find qpn with
  | none => .next s
  | some q => if q.unacked.isEmpty ∨ s.now < q.sentAt + 100000 then .next s else .next (s.goBack qpn)

/-- RDMA_READ_RESPONSE (R79, R88): the data of the oldest READ has come for its host-to-device COPYH; what was sent
before the READ is acknowledged by it. -/
def execRdmaReadResponse (h : RoceHdr) (data : Bytes) (s : State) : Host.Outcome State Fault Refusal :=
  match s.fromPeer h with
  | none => .next s.dropFrame
  | some q =>
    let s := s.acked h.qpn q (h.psn - 1)
    match s.host.qps.find h.qpn with
    | none => .next s
    | some q =>
      match q.unacked with
      | [] => .next s
      | u :: us =>
        if h.form ≠ .only ∨ !u.isRead ∨ u.psn ≠ h.psn ∨ u.moves ≠ data.length then .next s
        else
          let s := match u.cmd with
            | some id => s.updCmd id fun c => { c with buf := data }
            | none => s
          .next ((s.putQp h.qpn { q with unacked := us, sentAt := s.now }).requestDone u)

/-! ## Priority flow control (R79) -/

/-- PFC_PAUSE (R79, R92): honoured on the configured priority while PFCEN is 1; a pause of no time ends one. -/
def execPfcPause (prio : BitVec 3) (ns : Nat) (s : State) : Host.Outcome State Fault Refusal :=
  if s.rfld .hpcfg 16 1 = 0 ∨ s.rfld .hpcfg 17 3 ≠ prio.toNat then .next s
  else .next ({ s with host := { s.host with pauseUntil := s.now + ns } } : State).flushOut

/-- PFC_PAUSE_EXPIRY (R79): the pause time has run out, and transmission resumes. -/
def execPfcPauseExpiry (s : State) : Host.Outcome State Fault Refusal := .next s.flushOut

end Sys2Proof.Machine
end

