-- ==== Sys2Proof/Machine/BringUp.lean ====
section
/-! DEFINITION. Bring-up, the postmark's lock, the voltage domains and maintenance (R11 to R19, R21 to R25). -/

namespace Sys2Proof.Machine

/-- The bring-up state (R15). -/
def State.bstate (s : State) : Nat := s.rfld .bstat 0 3

/-- A failure sends the device to YELLOW; the first one stays in `FAILCODE` and `FAILUNIT` (R15, R25). A link that was
still training is down. -/
def State.toYellow (s : State) (code unit : Nat) : State :=
  let s := (List.range 16).foldl (fun s l => if s.rfld (.lstat l) 9 3 = 1 then s.setRfld (.lstat l) 9 3 0 else s) s
  let s := if s.rfld .bstat 8 8 = 0 then (s.setRfld .bstat 8 8 code).setRfld .bstat 16 8 unit else s
  s.enterBoot 5

/-- POWER_ON_RESET (R15): the device is in REG and compute is held in reset. -/
def execPowerOnReset (powerOn : Bool) (s : State) : Host.Outcome State Fault Refusal := .next (s.restart powerOn)

/-- REGULATORS_STARTED (R14, R15): REG gives TIME, and the postmark starts. -/
def execRegulatorsStarted (s : State) : Host.Outcome State Fault Refusal :=
  if s.bstate ≠ 0 then .next s
  else .next (({ s with now := 0 } : State).setRfld .vdstat 0 8 0xff |>.enterBoot 1)

/-- REGULATOR_FAULT (R15, R25): a domain leaves regulation; REG gives YELLOW. -/
def execRegulatorFault (domain : Nat) (s : State) : Host.Outcome State Fault Refusal :=
  if 8 ≤ domain then .next s
  else
    let s := (s.setRfld .vdstat domain 1 0).setRfld .vdstat (8 + domain) 1 1
    .next (if s.bstate = 0 then s.toYellow 1 domain else s)

/-- VOLTAGE_BACK_IN_REGULATION (R25). -/
def execVoltageBackInRegulation (domain : Nat) (s : State) : Host.Outcome State Fault Refusal :=
  if 8 ≤ domain then .next s else .next (s.setRfld .vdstat domain 1 1)

/-- Whether host port lanes train (R15): in TIME, and in YELLOW after a retest where some had failed. -/
def State.lanesTrain (s : State) : Bool := s.bstate == 1 || (s.bstate == 5 && s.boot.retraining)

/-- HOST_PORT_LANES_TRAINED (R15): every lane has trained, and TEST is entered, locked or not. -/
def execHostPortLanesTrained (s : State) : Host.Outcome State Fault Refusal :=
  if !s.lanesTrain then .next s
  else .next (({ s with boot := { s.boot with failedLanes := [], retraining := false } } : State).setRfld .hpstat 0 4 15).enterTest

/-- HOST_LANE_TRAINING_FAILURE (R15, R16): the failed lanes leave the port, which runs on the lowest lane that
trained; the device goes to YELLOW. -/
def execHostLaneTrainingFailure (lanes : List Nat) (s : State) : Host.Outcome State Fault Refusal :=
  let bad := (List.range 4).filter fun k => lanes.contains k
  match bad with
  | [] => .next s
  | k :: _ =>
    if !s.lanesTrain then .next s
    else
      let up := match (List.range 4).find? fun k => !bad.contains k with | some k => 2 ^ k | none => 0
      .next (({ s with boot := { s.boot with failedLanes := bad, retraining := false } } : State).setRfld .hpstat 0 4 up |>.toYellow 5 k)

/-- The postmark is set, and what is counted from it keeps its distance. -/
def State.setPostmark (s : State) (t : Nat) : State :=
  let boot := { s.boot with entered := t - (s.now - s.boot.entered), locked := true
                            hostLane := s.boot.hostLane.map fun (k, d) => (k, d - s.now + t) }
  { s with now := t, boot }

/-- IEEE_1588_LOCK (R14): the first lock before the device is first ready sets the postmark; later ones resume slewing. -/
def execIeee1588Lock (time : BitVec 64) (s : State) : Host.Outcome State Fault Refusal :=
  if s.bstate = 0 then .next s
  else .next ((if s.boot.locked then s else s.setPostmark time.toNat).setRfld .bstat 3 1 1)

/-- IEEE_1588_LOCK_LOSS (R14): the postmark runs on from the local reference. -/
def execIeee1588LockLoss (s : State) : Host.Outcome State Fault Refusal :=
  .next (({ s with boot := { s.boot with ppm := 0 } } : State).setRfld .bstat 3 1 0)

/-! ## Self-test and spares (R16, R17, R24) -/

/-- The free spare for a cluster or slice of a quadrant, as its bit of `SPMAP.CSPQ`. -/
def State.freeSpare (s : State) (q : Nat) (isSlice : Bool) : Option Nat :=
  (if isSlice then [2, 3] else [0, 1]).find? fun k => s.rfld .spmap (16 * q + k) 1 == 0

/-- The quadrant of a cluster or a slice. -/
def quadOfPart (isSlice : Bool) (unit : Nat) : Nat := quadOfUnit (if isSlice then unit else unit / 2)

/-- The reservations of a cluster whose number a spare takes are free and are retired in their turn; its requests are
withdrawn (R143, R147). -/
def Slew.leave (x : Slew) (cluster : Nat) : Slew :=
  let mine (r : Resv) : Bool := clusterOfCore r.core == cluster
  { x with
    held := mapIf mine (fun r => { r with gone := true, free := true, busy := 0, since := if r.free then r.since else x.clock }) x.held
    pending := x.pending.filter fun r => !mine r }

/-- A spare takes a unit's logical number (R17); a remapped cluster starts with no reservation (R147). -/
def State.useSpare (s : State) (isSlice : Bool) (unit k : Nat) : State :=
  let q := quadOfPart isSlice unit
  let s := if isSlice then s else { s with slew := s.slew.map fun (n, x) => (n, x.leave unit) }
  { s.setRfld .spmap (16 * q + k) 1 1 with boot := { s.boot with
      spareUse := s.boot.spareUse ++ [(isSlice, unit, k % 2)]
      outOfService := s.boot.outOfService.filter fun x => x != (isSlice, unit) } }

/-- The state of bring-up, and the failure that ends it, if one does: code and unit. -/
abbrev TestState := State × Option (Nat × Nat)

/-- A later failure does not replace the first. -/
def TestState.fail (x : TestState) (code unit : Nat) : TestState := (x.1, some (x.2.getD (code, unit)))

/-- One failure of self-test resolved by the outcome table (R16). -/
def resolveFailure (x : TestState) (f : TestFailure) : TestState :=
  let s := x.1
  let x : TestState := ({ s with boot := { s.boot with report := s.boot.report ++ [f] } }, x.2)
  let spare (sl : Bool) (n : Nat) : TestState :=
    match x.1.freeSpare (quadOfPart sl n) sl with
    | some k => (x.1.useSpare sl n k, x.2)
    | none => TestState.fail ({ x.1 with boot := { x.1.boot with outOfService := x.1.boot.outOfService ++ [(sl, n)] } }, x.2) 3 n
  match f with
  | .cluster n => spare false n
  | .slice n => spare true n
  | .lodraLane _ _ => x
  | .hbmChannel c => TestState.fail x 4 c
  | .otherSram => TestState.fail x 3 0 -- no unit number is stated (log 83)

/-- The lanes of a link that trained. -/
def trainedLanes (fs : List TestFailure) (link : Nat) : Nat :=
  (List.range 8).foldl (fun a k => if fs.contains (.lodraLane link k) then a else a + 2 ^ k) 0

/-- A link after training: up on its 8 lanes, or marked down (R16). -/
def State.trainLink (s : State) (fs : List TestFailure) (link : Nat) : State :=
  let n := trainedLanes fs link
  ((s.setRfld (.lstat link) 0 1 (if n = 255 then 1 else 0)).setRfld (.lstat link) 1 8 n).setRfld (.lstat link) 9 3 (if n = 255 then 2 else 0)

/-- SELF_TEST_COMPLETE (R16): each failure is resolved, and TEST gives MEAS or YELLOW. A unit that fails no more is in
service again. -/
def execSelfTestComplete (failures : List TestFailure) (s : State) : Host.Outcome State Fault Refusal :=
  if s.bstate ≠ 2 then .next s
  else
    let s := (List.range 16).foldl (fun s l => s.trainLink failures l) { s with boot := { s.boot with outOfService := [] } }
    match failures.foldl resolveFailure (s, none) with
    | (s, none) => .next (s.enterBoot 3)
    | (s, some (code, unit)) => .next (s.toYellow code unit)

/-! ## Firmware (R15, R19, R21, R23) -/

/-- Firmware images in load order: stage 1, then the partitions' in increasing number (R19). -/
def loadOrder (images : List FwImage) : List FwImage :=
  (images.filter fun i => i.stage == 1) ++ (List.range 48).flatMap fun n => images.filter fun i => i.stage == 2 && i.part == n

/-- Extend the chain with each image in order; whether every signature verified (R19, R20). -/
def State.measureAll : List FwImage → State → State × Bool
  | [], s => (s, true)
  | i :: is, s => if imageOk i then (s.measure (s.boot.digests ++ [digestOf i])).measureAll is else (s, false)
termination_by structural is => is

/-- FIRMWARE_MEASUREMENT (R15, R19): MEAS gives READY, or YELLOW on a failed signature. -/
def execFirmwareMeasurement (images : List FwImage) (s : State) : Host.Outcome State Fault Refusal :=
  if s.bstate ≠ 3 then .next s
  else
    match (s.measure []).measureAll (loadOrder images) with
    | (s, true) => .next (({ s with boot := { s.boot with locked := true } } : State).enterBoot 4)
    | (s, false) => .next (s.toYellow 6 0)

/-- The limit of a bring-up state in ns (R15). -/
def bootLimit (st : Nat) : Option Nat := [some 5000000, some 2000000000, some 1500000000, some 300000000][st]?.getD none

/-- BRINGUP_STATE_TIMEOUT (R15): a state that exceeds its limit has failed. FAILUNIT is then 0, which is the model's choice,
as for a failed signature and for other SRAM (log 83). -/
def execBringupStateTimeout (s : State) : Host.Outcome State Fault Refusal :=
  match bootLimit s.bstate with
  | none => .next s
  | some d => if s.now ≤ s.boot.entered + d then .next s else .next (s.toYellow 2 0)

/-- Whether a team of a partition stands on a core. -/
def State.partResident (s : State) (part : Nat) : Bool := s.sched.teams.any fun (_, t) => t.core.isSome && s.ctxPart t.ctx == part

/-- The cooperative window of a partition, in ns (R125, R129). -/
def State.coopWindow (s : State) (part : Nat) : Nat := 1000 * s.rfld (.psched part) 17 15

/-- Ask resident teams to stop cooperatively, and by force after the partition's window (R129). -/
def State.askStop (s : State) (part : Nat) (on : Team → Bool) : State :=
  let ts := (s.sched.teams.filter fun (_, t) => t.core.isSome && t.saved.isNone && on t).map Prod.fst
  if ts.isEmpty then s else s.requestStop ts 0 (some (s.now + s.coopWindow part)) none

/-- PARTITION_FIRMWARE_UPDATE (R21, R23): a verified image takes the old one's place in the chain, the partition's
teams are pre-empted, and once none is resident they resume on the new image. One update proceeds at a time. -/
def execPartitionFirmwareUpdate (part : Nat) (image : FwImage) (s : State) : Host.Outcome State Fault Refusal :=
  if s.bstate ≠ 4 ∨ !s.partValid part ∨ image.stage ≠ 2 ∨ image.part ≠ part ∨ !imageOk image then .next s
  else if s.boot.updating.isSome then .next { s with boot := { s.boot with updates := s.boot.updates ++ [(part, image)] } }
  else
    let s := s.measure (replaceDigest s.boot.digests (digestOf image))
    .next (({ s with boot := { s.boot with updating := some part } } : State).askStop part fun t => s.ctxPart t.ctx == part)

/-- An update ends once no team of its partition is resident: they resume, and the next update begins. -/
def State.endUpdate (s : State) : State :=
  match s.boot.updating with
  | none => s
  | some part =>
    if s.partResident part then s
    else
      let next := s.boot.updates.take 1
      let s := { s with boot := { s.boot with updating := none, updates := s.boot.updates.drop 1 } }
      (s.push (next.map fun (n, i) => .partitionFirmwareUpdate n i)).askRound part

/-! ## Maintenance (R21, R22, R24) -/

/-- HBM_CHANNEL_RETRAINING (R21): one channel of the package at a time; its requests are held. -/
def execHbmChannelRetraining (channel : Nat) (s : State) : Host.Outcome State Fault Refusal :=
  if s.boot.hbmHeld.isSome ∨ 64 ≤ channel then .next s
  else .next { s with boot := { s.boot with hbmHeld := some (channel, s.now + 2000000) } }

/-- HBM_CHANNEL_RETRAINING_COMPLETE (R21): the held requests proceed. -/
def execHbmChannelRetrainingComplete (channel : Nat) (s : State) : Host.Outcome State Fault Refusal :=
  if s.boot.hbmHeld.any fun h => h.1 == channel then .next { s with boot := { s.boot with hbmHeld := none } } else .next s

/-- LODRA_LANE_RECALIBRATION (R21, R68): one lane per link; the link runs on the other 7. -/
def execLodraLaneRecalibration (link lane : Nat) (s : State) : Host.Outcome State Fault Refusal :=
  if s.rfld (.lstat link) 9 3 ≠ 2 ∨ 8 ≤ lane ∨ 16 ≤ link then .next s
  else .next (((s.setRfld (.lstat link) 9 3 5).setRfld (.lstat link) (1 + lane) 1 0).updLink link fun l => { l with recal := some lane })

/-- LODRA_LANE_RECALIBRATION_COMPLETE (R21, R68). -/
def execLodraLaneRecalibrationComplete (link lane : Nat) (s : State) : Host.Outcome State Fault Refusal :=
  if s.rfld (.lstat link) 9 3 ≠ 5 ∨ (s.link link).recal ≠ some lane then .next s
  else .next (((s.setRfld (.lstat link) 9 3 2).setRfld (.lstat link) (1 + lane) 1 1).updLink link fun l => { l with recal := none })

/-- HOST_PORT_LANE_RECALIBRATION (R21): one lane at a time; transmission is held and frames are buffered. -/
def execHostPortLaneRecalibration (lane : Nat) (s : State) : Host.Outcome State Fault Refusal :=
  if s.boot.hostLane.isSome ∨ s.rfld .hpstat lane 1 = 0 ∨ 4 ≤ lane then .next s
  else .next { s with boot := { s.boot with hostLane := some (lane, s.now + 20000) } }

/-- HOST_PORT_LANE_RECALIBRATION_COMPLETE (R21): the buffered frames are transmitted. -/
def execHostPortLaneRecalibrationComplete (lane : Nat) (s : State) : Host.Outcome State Fault Refusal :=
  if s.boot.hostLane.any fun h => h.1 == lane then .next ({ s with boot := { s.boot with hostLane := none } } : State).flushOut
  else .next s

/-- A cluster's spare takes its number once no team is left on it; its partition's distributor then runs again. -/
def State.endRemap (s : State) (cluster : Nat) : State :=
  if s.sched.teams.any fun (_, t) => t.core.isSome && t.cores.any fun c => clusterOfCore c == cluster then s
  else
    match s.freeSpare (quadOfPart false cluster) false with
    | none => s
    | some k =>
      let s := { s with boot := { s.boot with remap := none } }.useSpare false cluster k
      match s.partOfUnit (cluster / 2) with
      | some n => s.askRound n
      | none => s

/-- The teams of a cluster are pre-empted, as by a recall (R24). -/
def State.drainCluster (s : State) (cluster : Nat) : State :=
  match s.partOfUnit (cluster / 2) with
  | some n => s.askStop n fun t => t.cores.any fun c => clusterOfCore c == cluster
  | none => s

/-- SPARE_REMAP (R21, R24): a slice is written back and invalidated at once; a cluster is drained as by a recall.
Without a free spare the unit stays out of service: a slice serves no request, and a cluster's teams are pre-empted and
none is placed there. -/
def execSpareRemap (isSlice : Bool) (unit : Nat) (s : State) : Host.Outcome State Fault Refusal :=
  if s.bstate ≠ 4 ∨ (if isSlice then 64 else 128) ≤ unit then .next s
  else if !isSlice ∧ s.boot.remap = some unit then .next (s.endRemap unit)
  else if s.boot.remap.isSome then .next s
  else
    match s.freeSpare (quadOfPart isSlice unit) isSlice with
    | none =>
      let s : State := { s with boot := { s.boot with outOfService := s.boot.outOfService.filter (fun x => x != (isSlice, unit)) ++ [(isSlice, unit)] } }
      .next (if isSlice then s else s.drainCluster unit)
    | some k =>
      if isSlice then
        let keys := (s.msys.l2.filter fun (k, _) => channelOf (128 * l2LineOf k) == channelOfSlice unit).map Prod.fst
        .next ((s.updMem fun m => keys.foldl MemSys.evict m).useSpare true unit k)
      else
        .next ((({ s with boot := { s.boot with remap := some unit } } : State).drainCluster unit).endRemap unit)

/-- VOLTAGE_SETTLED (R12): a quadrant's voltage supports the clock it was raised for, as far as that is still asked for. -/
def execVoltageSettled (quadrant : Nat) (s : State) : Host.Outcome State Fault Refusal :=
  match s.boot.rise.find quadrant with
  | none => .next s
  | some k =>
    let v := min (s.boot.volt.get 0 quadrant) (max k ((s.neededVolt quadrant).getD k))
    .next { s with boot := { s.boot with volt := SMap.set 0 s.boot.volt quadrant v, rise := s.boot.rise.erase quadrant } }

end Sys2Proof.Machine
end

