-- ==== Sys2Proof/Machine/Uniform.lean ====
section
/-! DEFINITION. Uniform arithmetic and the state selectors: majors 8 to 15 but for ULD and UST (R298 to
R304). -/

namespace Sys2Proof.Machine

/-- A uniform instruction that writes S[D] from S[A] and S[B] (R298). -/
def uaOp (s : State) (code : Option Nat) (a b d : Nat) (op : W32 → W32 → W32 → W32) : Host.Outcome State Fault Refusal :=
  issue s code (fun _ => {}) fun x =>
    match x.sWait [a, b, d] with
    | some w => .park w
    | none =>
      let r := op (x.g.sreg a) (x.g.sreg b) (x.g.sreg d)
      .done (x.s.updGroup x.c.core x.c.slot fun g => g.setS d r)

/-- The UA form. -/
def ua3 (s : State) (f : UA) (op : W32 → W32 → W32 → W32) : Host.Outcome State Fault Refusal :=
  uaOp s (illegalUa f) f.a.toNat f.b.toNat f.d.toNat op
/-- The unary form. -/
def ua1 (s : State) (f : UUn) (op : W32 → W32) : Host.Outcome State Fault Refusal :=
  uaOp s (illegalUun f) f.a.toNat f.a.toNat f.d.toNat fun a _ _ => op a
/-- The UI form on S[D]. -/
def ui1 (s : State) (f : UI) (op : BitVec 16 → W32 → W32) : Host.Outcome State Fault Refusal :=
  uaOp s (illegalUi f) f.d.toNat f.d.toNat f.d.toNat fun _ _ d => op f.i d

/-- UADD (R298): a + b. -/
def execUadd (f : UA) (s : State) : Host.Outcome State Fault Refusal := ua3 s f fun a b _ => a + b
/-- USUB (R298): a − b. -/
def execUsub (f : UA) (s : State) : Host.Outcome State Fault Refusal := ua3 s f fun a b _ => a - b
/-- UMUL (R298): the low 32 bits of a × b. -/
def execUmul (f : UA) (s : State) : Host.Outcome State Fault Refusal := ua3 s f fun a b _ => a * b
/-- UMULH (R298): the high 32 bits of the unsigned product. -/
def execUmulh (f : UA) (s : State) : Host.Outcome State Fault Refusal := ua3 s f fun a b _ => mulhZ a b
/-- UMAD (R298): a × b + S[D]. -/
def execUmad (f : UA) (s : State) : Host.Outcome State Fault Refusal := ua3 s f fun a b d => a * b + d
/-- UAND (R298). -/
def execUand (f : UA) (s : State) : Host.Outcome State Fault Refusal := ua3 s f fun a b _ => a &&& b
/-- UOR (R298). -/
def execUor (f : UA) (s : State) : Host.Outcome State Fault Refusal := ua3 s f fun a b _ => a ||| b
/-- UXOR (R298). -/
def execUxor (f : UA) (s : State) : Host.Outcome State Fault Refusal := ua3 s f fun a b _ => a ^^^ b
/-- USHL (R298): 0 for a shift of 32 or more. -/
def execUshl (f : UA) (s : State) : Host.Outcome State Fault Refusal := ua3 s f fun a b _ => shl a b
/-- USHR (R298): 0 for a shift of 32 or more. -/
def execUshr (f : UA) (s : State) : Host.Outcome State Fault Refusal := ua3 s f fun a b _ => shr a b
/-- USAR (R298): a shift of 32 or more acts as 31. -/
def execUsar (f : UA) (s : State) : Host.Outcome State Fault Refusal := ua3 s f fun a b _ => sar a b
/-- UMIN (R298): the lesser, signed. -/
def execUmin (f : UA) (s : State) : Host.Outcome State Fault Refusal := ua3 s f fun a b _ => minS a b
/-- UMAX (R298): the greater, signed. -/
def execUmax (f : UA) (s : State) : Host.Outcome State Fault Refusal := ua3 s f fun a b _ => maxS a b
/-- UBFE (R298): extract a bit field. -/
def execUbfe (f : UA) (s : State) : Host.Outcome State Fault Refusal := ua3 s f fun a b _ => bfe a b
/-- UMOV (R298). -/
def execUmov (f : UUn) (s : State) : Host.Outcome State Fault Refusal := ua1 s f fun a => a
/-- UCLZ (R298): leading zeros. -/
def execUclz (f : UUn) (s : State) : Host.Outcome State Fault Refusal := ua1 s f fun a => BitVec.ofNat 32 (clz 32 a.toNat)
/-- UPOPC (R298): set bits. -/
def execUpopc (f : UUn) (s : State) : Host.Outcome State Fault Refusal := ua1 s f fun a => BitVec.ofNat 32 (popc 32 a.toNat)

/-- ULI (R301): a sign-extended immediate. -/
def execUli (f : UI) (s : State) : Host.Outcome State Fault Refusal := ui1 s f fun i _ => i.signExtend 32
/-- ULIH (R301): bits [31:16]; bits [15:0] are kept. -/
def execUlih (f : UI) (s : State) : Host.Outcome State Fault Refusal := ui1 s f fun i d => i ++ d.extractLsb' 0 16
/-- UADDI (R301): S[D] + SExt(imm). -/
def execUaddi (f : UI) (s : State) : Host.Outcome State Fault Refusal := ui1 s f fun i d => d + i.signExtend 32

/-- UCMP (R299): Kk := a cc b. -/
def execUcmp (f : UCmpF) (s : State) : Host.Outcome State Fault Refusal :=
  issue s (firstCode [(10 ≤ f.c.toNat, 4), (beyondS f.a || beyondS f.b, 5)]) (fun _ => {}) fun x =>
    match x.sWait [f.a.toNat, f.b.toNat] with
    | some w => .park w
    | none =>
      let r := ccUni f.c.toNat (x.g.sreg f.a.toNat) (x.g.sreg f.b.toNat)
      .done (x.s.updGroup x.c.core x.c.slot fun g => g.setK f.k.toNat r)

/-- USEL (R299): a if Kk = 1, otherwise b. -/
def execUsel (f : USelF) (s : State) : Host.Outcome State Fault Refusal :=
  issue s (firstCode [(beyondS f.d, 5)]) (fun _ => {}) fun x =>
    match x.sWait [f.a.toNat, f.b.toNat, f.d.toNat] with
    | some w => .park w
    | none =>
      let r := if x.g.kreg f.k.toNat then x.g.sreg f.a.toNat else x.g.sreg f.b.toNat
      .done (x.s.updGroup x.c.core x.c.slot fun g => g.setS f.d.toNat r)

/-! ## Selectors (R302, R303) and counters (R256, R257) -/

/-- The value of a shared-resource counter that a group of the context is shown (R257). -/
def State.shownShared (s : State) (ctx e : Nat) : Nat :=
  let pol := s.reg (.ctrpol ctx)
  let key := if e ≤ 18 then 64 * s.ctxPart ctx + e else e
  let due := 1000 * fld pol 5 16
  match s.mon.snaps.find? fun sn => sn.1 + due ≤ s.now with
  | some (_, m) => m.get 0 key / 2 ^ fld pol 0 5 * 2 ^ fld pol 0 5
  | none => 0

/-- The value of counter e that a group sees now (R256). -/
def State.counterNow (s : State) (core : Nat) (g : Group) (e : Nat) : W64 :=
  if e < 15 then
    match (s.core core).ctxSlot g.ctx with
    | some (_, x) => BitVec.ofNat 64 (x.own.get 0 e)
    | none => 0
  else if 16 ≤ e ∧ e ≤ 20 then BitVec.ofNat 64 (s.shownShared g.ctx e)
  else 0

/-- Whether selector `i` waits for the path's direction pipes: GSR, which they can set (R302). -/
def IssueCtx.gsrWait (x : IssueCtx) (i : Nat) : Option Await :=
  if i = 0 ∧ x.g.dpipe.any (fun w => x.p.past.contains w.id) then some .dpipes else none

/-- The state a URDS selector reads, but for the counters (R302). -/
def IssueCtx.selector (x : IssueCtx) (i : Nat) : W32 :=
  let n (v : Nat) : W32 := BitVec.ofNat 32 v
  let idx := match x.s.team? x.g.team with | some t => t.idx | none => 0
  match i with
  | 0x00 => x.g.gsr
  | 0x01 => n x.w
  | 0x02 => x.g.k.setWidth 32
  | 0x10 => n (idx % x.d.gx)
  | 0x11 => n (idx / x.d.gx % x.d.gy)
  | 0x12 => n (idx / x.d.gx / x.d.gy)
  | 0x14 => n x.d.gx
  | 0x15 => n x.d.gy
  | 0x16 => n x.d.gz
  | 0x18 => n x.g.num
  | 0x19 => n x.d.gpt
  | 0x1A => n x.c.core
  | 0x1B => n x.g.quarter
  | 0x1C => if x.d.pair then n (x.c.core % 2) else 0
  | 0x1D => n x.g.ctx
  | 0x20 => if x.d.wdog then n x.g.watchdog else 0
  | 0x21 => n x.c.path
  | 0x22 => x.p.mask.extractLsb' 0 32
  | 0x23 => x.p.mask.extractLsb' 32 32
  | _ => if 0x30 ≤ i ∧ i < 0x40 ∧ x.p.hndl then x.p.frec.image.extractLsb' (32 * (i - 0x30)) 32 else 0

/-- URDS (R302): a low-half counter read takes the group's snapshot; a high-half read uses it (R256). -/
def execUrds (f : UI) (s : State) : Host.Outcome State Fault Refusal :=
  issue s (firstCode [(beyondS f.d, 5), (!urdsListed f.i.toNat, 2)]) (fun _ => {}) fun x =>
    let i := f.i.toNat
    match firstWait [x.sWait [f.d.toNat], x.gsrWait i] with
    | some w => .park w
    | none =>
      let put (s : State) (v : W32) : Act := .done (s.updGroup x.c.core x.c.slot fun g => g.setS f.d.toNat v)
      if i < 0x100 then put x.s (x.selector i)
      else
        let e := (i - 0x100) / 2
        let v := x.s.counterNow x.c.core x.g e
        if i % 2 = 0 then
          put (x.s.updGroup x.c.core x.c.slot fun g => { g with snap := some (e, v) }) (v.extractLsb' 0 32)
        else
          match x.g.snap with
          | some (e', u) => put x.s ((if e' = e then u else v).extractLsb' 32 32)
          | none => put x.s (v.extractLsb' 32 32)

/-- UWRS (R303): GSR.NORU and the write-one-to-clear bits of GSR, or K0 to K3. -/
def execUwrs (f : UI) (s : State) : Host.Outcome State Fault Refusal :=
  issue s (firstCode [(beyondS f.d, 5), (f.i ≠ 0 ∧ f.i ≠ 2, 2)]) (fun _ => {}) fun x =>
    match x.sWait [f.d.toNat] with
    | some w => .park w
    | none =>
      let v := x.g.sreg f.d.toNat
      .done (x.s.updGroup x.c.core x.c.slot fun g =>
        if f.i = 2 then { g with k := v.extractLsb' 0 4 }
        else { g with gsr := (g.gsr &&& ~~~(v &&& 0xF0) &&& ~~~0x4) ||| (v &&& 0x4) })

/-- RDPM (R301): the postmark in an S pair. -/
def execRdpm (f : RdpmF) (s : State) : Host.Outcome State Fault Refusal :=
  issue s (firstCode [(beyondS f.d, 5), (oddReg f.d, 5)]) (fun _ => {}) fun x =>
    match x.sWait [f.d.toNat, f.d.toNat + 1] with
    | some w => .park w
    | none =>
      let t := BitVec.ofNat 64 x.s.now
      .done (x.s.updGroup x.c.core x.c.slot fun g =>
        (g.setS f.d.toNat (t.extractLsb' 0 32)).setS (f.d.toNat + 1) (t.extractLsb' 32 32))

/-- RACQ (R304): acquire the extended block, or park until it fits. -/
def execRacq (s : State) : Host.Outcome State Fault Refusal :=
  issue s none (fun _ => {}) fun x =>
    if x.g.gsrBit 3 ∨ x.d.vext = 0 then .done x.s
    else if x.s.poolFits x.c.core x.g.wc x.d.vext then .done (x.s.updGroup x.c.core x.c.slot fun g => g.setGsr 3)
    else .park .pool

/-- RREL (R304): release the extended block once every older write to it is done. -/
def execRrel (s : State) : Host.Outcome State Fault Refusal :=
  issue s none (fun _ => {}) fun x =>
    let ext := (List.range x.d.vext).map fun i => x.d.vbase + i
    if !x.g.gsrBit 3 then .done x.s
    else if ext.any x.vPending then .park .extIdle
    else .done ((ext.foldl (fun s r => s.zeroV x.c.core x.c.slot r) x.s).updGroup x.c.core x.c.slot fun g => g.clrGsr 3)

end Sys2Proof.Machine
end

