-- ==== Sys2Proof/Machine/VecFp.lean ====
section
/-! DEFINITION. Vector floating-point instructions: majors 2, 3, 28, 29 and the 16-bit floating parcels
(R317 to R321, R271). -/

namespace Sys2Proof.Machine

/-- FADD_F32 (R317): FP32 add rounded .rn. -/
def execFaddF32 (f : VA) (s : State) : Host.Outcome State Fault Refusal :=
  vaOp s none (5 + f.word) f (fp32.add 0)

/-- FADD_F32_VU (R306): FADD.f32 with a uniform S operand. -/
def execFaddF32Vu (f : VA) (s : State) : Host.Outcome State Fault Refusal :=
  vuOp s none (7 + f.word) f (fp32.add 0)

/-- FADD_F32_RZ (R317): FP32 add rounded toward zero. -/
def execFaddF32Rz (f : VA) (s : State) : Host.Outcome State Fault Refusal :=
  vaOp s none (57 + f.word) f (fp32.add 1)

/-- FADD_F32_RZ_VU (R306): FADD.f32.rz with a uniform S operand. -/
def execFaddF32RzVu (f : VA) (s : State) : Host.Outcome State Fault Refusal :=
  vuOp s none (59 + f.word) f (fp32.add 1)

/-- FADD_F32_RU (R317): FP32 add rounded toward +∞. -/
def execFaddF32Ru (f : VA) (s : State) : Host.Outcome State Fault Refusal :=
  vaOp s none (313 + f.word) f (fp32.add 2)

/-- FADD_F32_RU_VU (R306): FADD.f32.ru with a uniform S operand. -/
def execFaddF32RuVu (f : VA) (s : State) : Host.Outcome State Fault Refusal :=
  vuOp s none (315 + f.word) f (fp32.add 2)

/-- FADD_F32_RD (R317): FP32 add rounded toward −∞. -/
def execFaddF32Rd (f : VA) (s : State) : Host.Outcome State Fault Refusal :=
  vaOp s none (569 + f.word) f (fp32.add 3)

/-- FADD_F32_RD_VU (R306): FADD.f32.rd with a uniform S operand. -/
def execFaddF32RdVu (f : VA) (s : State) : Host.Outcome State Fault Refusal :=
  vuOp s none (571 + f.word) f (fp32.add 3)

/-- FADD_F16X2 (R320): Packed FP16 add. -/
def execFaddF16x2 (f : VA) (s : State) : Host.Outcome State Fault Refusal :=
  vaOp s none (901 + f.word) f (map2H (fp16.add 0))

/-- FADD_F16X2_VU (R306): FADD.f16x2 with a uniform S operand. -/
def execFaddF16x2Vu (f : VA) (s : State) : Host.Outcome State Fault Refusal :=
  vuOp s none (903 + f.word) f (map2H (fp16.add 0))

/-- FADD_BF16X2 (R320): Packed BF16 add. -/
def execFaddBf16x2 (f : VA) (s : State) : Host.Outcome State Fault Refusal :=
  vaOp s none (1157 + f.word) f (map2H (bf16.add 0))

/-- FADD_BF16X2_VU (R306): FADD.bf16x2 with a uniform S operand. -/
def execFaddBf16x2Vu (f : VA) (s : State) : Host.Outcome State Fault Refusal :=
  vuOp s none (1159 + f.word) f (map2H (bf16.add 0))

/-- FSUB_F32 (R317): FP32 subtract rounded .rn. -/
def execFsubF32 (f : VA) (s : State) : Host.Outcome State Fault Refusal :=
  vaOp s none (69 + f.word) f (fp32.sub 0)

/-- FSUB_F32_VU (R306): FSUB.f32 with a uniform S operand. -/
def execFsubF32Vu (f : VA) (s : State) : Host.Outcome State Fault Refusal :=
  vuOp s none (71 + f.word) f (fp32.sub 0)

/-- FSUB_F32_RZ (R317): FP32 subtract rounded toward zero. -/
def execFsubF32Rz (f : VA) (s : State) : Host.Outcome State Fault Refusal :=
  vaOp s none (121 + f.word) f (fp32.sub 1)

/-- FSUB_F32_RZ_VU (R306): FSUB.f32.rz with a uniform S operand. -/
def execFsubF32RzVu (f : VA) (s : State) : Host.Outcome State Fault Refusal :=
  vuOp s none (123 + f.word) f (fp32.sub 1)

/-- FSUB_F32_RU (R317): FP32 subtract rounded toward +∞. -/
def execFsubF32Ru (f : VA) (s : State) : Host.Outcome State Fault Refusal :=
  vaOp s none (377 + f.word) f (fp32.sub 2)

/-- FSUB_F32_RU_VU (R306): FSUB.f32.ru with a uniform S operand. -/
def execFsubF32RuVu (f : VA) (s : State) : Host.Outcome State Fault Refusal :=
  vuOp s none (379 + f.word) f (fp32.sub 2)

/-- FSUB_F32_RD (R317): FP32 subtract rounded toward −∞. -/
def execFsubF32Rd (f : VA) (s : State) : Host.Outcome State Fault Refusal :=
  vaOp s none (633 + f.word) f (fp32.sub 3)

/-- FSUB_F32_RD_VU (R306): FSUB.f32.rd with a uniform S operand. -/
def execFsubF32RdVu (f : VA) (s : State) : Host.Outcome State Fault Refusal :=
  vuOp s none (635 + f.word) f (fp32.sub 3)

/-- FSUB_F16X2 (R320): Packed FP16 subtract. -/
def execFsubF16x2 (f : VA) (s : State) : Host.Outcome State Fault Refusal :=
  vaOp s none (965 + f.word) f (map2H (fp16.sub 0))

/-- FSUB_F16X2_VU (R306): FSUB.f16x2 with a uniform S operand. -/
def execFsubF16x2Vu (f : VA) (s : State) : Host.Outcome State Fault Refusal :=
  vuOp s none (967 + f.word) f (map2H (fp16.sub 0))

/-- FSUB_BF16X2 (R320): Packed BF16 subtract. -/
def execFsubBf16x2 (f : VA) (s : State) : Host.Outcome State Fault Refusal :=
  vaOp s none (1221 + f.word) f (map2H (bf16.sub 0))

/-- FSUB_BF16X2_VU (R306): FSUB.bf16x2 with a uniform S operand. -/
def execFsubBf16x2Vu (f : VA) (s : State) : Host.Outcome State Fault Refusal :=
  vuOp s none (1223 + f.word) f (map2H (bf16.sub 0))

/-- FMUL_F32 (R317): FP32 multiply rounded .rn. -/
def execFmulF32 (f : VA) (s : State) : Host.Outcome State Fault Refusal :=
  vaOp s none (133 + f.word) f (fp32.mul 0)

/-- FMUL_F32_VU (R306): FMUL.f32 with a uniform S operand. -/
def execFmulF32Vu (f : VA) (s : State) : Host.Outcome State Fault Refusal :=
  vuOp s none (135 + f.word) f (fp32.mul 0)

/-- FMUL_F32_RZ (R317): FP32 multiply rounded toward zero. -/
def execFmulF32Rz (f : VA) (s : State) : Host.Outcome State Fault Refusal :=
  vaOp s none (185 + f.word) f (fp32.mul 1)

/-- FMUL_F32_RZ_VU (R306): FMUL.f32.rz with a uniform S operand. -/
def execFmulF32RzVu (f : VA) (s : State) : Host.Outcome State Fault Refusal :=
  vuOp s none (187 + f.word) f (fp32.mul 1)

/-- FMUL_F32_RU (R317): FP32 multiply rounded toward +∞. -/
def execFmulF32Ru (f : VA) (s : State) : Host.Outcome State Fault Refusal :=
  vaOp s none (441 + f.word) f (fp32.mul 2)

/-- FMUL_F32_RU_VU (R306): FMUL.f32.ru with a uniform S operand. -/
def execFmulF32RuVu (f : VA) (s : State) : Host.Outcome State Fault Refusal :=
  vuOp s none (443 + f.word) f (fp32.mul 2)

/-- FMUL_F32_RD (R317): FP32 multiply rounded toward −∞. -/
def execFmulF32Rd (f : VA) (s : State) : Host.Outcome State Fault Refusal :=
  vaOp s none (697 + f.word) f (fp32.mul 3)

/-- FMUL_F32_RD_VU (R306): FMUL.f32.rd with a uniform S operand. -/
def execFmulF32RdVu (f : VA) (s : State) : Host.Outcome State Fault Refusal :=
  vuOp s none (699 + f.word) f (fp32.mul 3)

/-- FMUL_F16X2 (R320): Packed FP16 multiply. -/
def execFmulF16x2 (f : VA) (s : State) : Host.Outcome State Fault Refusal :=
  vaOp s none (1029 + f.word) f (map2H (fp16.mul 0))

/-- FMUL_F16X2_VU (R306): FMUL.f16x2 with a uniform S operand. -/
def execFmulF16x2Vu (f : VA) (s : State) : Host.Outcome State Fault Refusal :=
  vuOp s none (1031 + f.word) f (map2H (fp16.mul 0))

/-- FMUL_BF16X2 (R320): Packed BF16 multiply. -/
def execFmulBf16x2 (f : VA) (s : State) : Host.Outcome State Fault Refusal :=
  vaOp s none (1285 + f.word) f (map2H (bf16.mul 0))

/-- FMUL_BF16X2_VU (R306): FMUL.bf16x2 with a uniform S operand. -/
def execFmulBf16x2Vu (f : VA) (s : State) : Host.Outcome State Fault Refusal :=
  vuOp s none (1287 + f.word) f (map2H (bf16.mul 0))

/-- FMIN_F32 (R318): FP32 minimum with NaN-avoiding rules. -/
def execFminF32 (f : VA) (s : State) : Host.Outcome State Fault Refusal :=
  vaOp s none (261 + f.word) f (fp32.minMax false)

/-- FMIN_F32_VU (R306): FMIN.f32 with a uniform S operand. -/
def execFminF32Vu (f : VA) (s : State) : Host.Outcome State Fault Refusal :=
  vuOp s none (263 + f.word) f (fp32.minMax false)

/-- FMIN_F16X2 (R318): Packed FP16 minimum. -/
def execFminF16x2 (f : VA) (s : State) : Host.Outcome State Fault Refusal :=
  vaOp s none (825 + f.word) f (map2H (fp16.minMax false))

/-- FMIN_F16X2_VU (R306): FMIN.f16x2 with a uniform S operand. -/
def execFminF16x2Vu (f : VA) (s : State) : Host.Outcome State Fault Refusal :=
  vuOp s none (827 + f.word) f (map2H (fp16.minMax false))

/-- FMIN_BF16X2 (R318): Packed BF16 minimum. -/
def execFminBf16x2 (f : VA) (s : State) : Host.Outcome State Fault Refusal :=
  vaOp s none (953 + f.word) f (map2H (bf16.minMax false))

/-- FMIN_BF16X2_VU (R306): FMIN.bf16x2 with a uniform S operand. -/
def execFminBf16x2Vu (f : VA) (s : State) : Host.Outcome State Fault Refusal :=
  vuOp s none (955 + f.word) f (map2H (bf16.minMax false))

/-- FMAX_F32 (R318): FP32 maximum with NaN-avoiding rules. -/
def execFmaxF32 (f : VA) (s : State) : Host.Outcome State Fault Refusal :=
  vaOp s none (325 + f.word) f (fp32.minMax true)

/-- FMAX_F32_VU (R306): FMAX.f32 with a uniform S operand. -/
def execFmaxF32Vu (f : VA) (s : State) : Host.Outcome State Fault Refusal :=
  vuOp s none (327 + f.word) f (fp32.minMax true)

/-- FMAX_F16X2 (R318): Packed FP16 maximum. -/
def execFmaxF16x2 (f : VA) (s : State) : Host.Outcome State Fault Refusal :=
  vaOp s none (889 + f.word) f (map2H (fp16.minMax true))

/-- FMAX_F16X2_VU (R306): FMAX.f16x2 with a uniform S operand. -/
def execFmaxF16x2Vu (f : VA) (s : State) : Host.Outcome State Fault Refusal :=
  vuOp s none (891 + f.word) f (map2H (fp16.minMax true))

/-- FMAX_BF16X2 (R318): Packed BF16 maximum. -/
def execFmaxBf16x2 (f : VA) (s : State) : Host.Outcome State Fault Refusal :=
  vaOp s none (1017 + f.word) f (map2H (bf16.minMax true))

/-- FMAX_BF16X2_VU (R306): FMAX.bf16x2 with a uniform S operand. -/
def execFmaxBf16x2Vu (f : VA) (s : State) : Host.Outcome State Fault Refusal :=
  vuOp s none (1019 + f.word) f (map2H (bf16.minMax true))

/-- FSCALE (R319): Multiply by 2^k with clamped k, rounded .rn. -/
def execFscale (f : VA) (s : State) : Host.Outcome State Fault Refusal :=
  vaOp s none (645 + f.word) f fscale

/-- FSCALE_VU (R306): FSCALE with a uniform S operand. -/
def execFscaleVu (f : VA) (s : State) : Host.Outcome State Fault Refusal :=
  vuOp s none (647 + f.word) f fscale

/-- FDOT2_F16 (R320): Two-term FP16 dot product into FP32 d, one rounding. -/
def execFdot2F16 (f : VA) (s : State) : Host.Outcome State Fault Refusal :=
  va3Op s none (773 + f.word) f (fdot2 fp16)

/-- FDOT2_F16_VU (R306): FDOT2.f16 with a uniform S operand. -/
def execFdot2F16Vu (f : VA) (s : State) : Host.Outcome State Fault Refusal :=
  vu3Op s none (775 + f.word) f (fdot2 fp16)

/-- FDOT2_BF16 (R320): Two-term BF16 dot product into FP32 d, one rounding. -/
def execFdot2Bf16 (f : VA) (s : State) : Host.Outcome State Fault Refusal :=
  va3Op s none (837 + f.word) f (fdot2 bf16)

/-- FDOT2_BF16_VU (R306): FDOT2.bf16 with a uniform S operand. -/
def execFdot2Bf16Vu (f : VA) (s : State) : Host.Outcome State Fault Refusal :=
  vu3Op s none (839 + f.word) f (fdot2 bf16)

/-- FACC_F16X2 (R320): Packed FP16 fused multiply-accumulate. -/
def execFaccF16x2 (f : VA) (s : State) : Host.Outcome State Fault Refusal :=
  va3Op s none (1093 + f.word) f (map3H (fp16.acc 0))

/-- FACC_F16X2_VU (R306): FACC.f16x2 with a uniform S operand. -/
def execFaccF16x2Vu (f : VA) (s : State) : Host.Outcome State Fault Refusal :=
  vu3Op s none (1095 + f.word) f (map3H (fp16.acc 0))

/-- FACC_BF16X2 (R320): Packed BF16 fused multiply-accumulate. -/
def execFaccBf16x2 (f : VA) (s : State) : Host.Outcome State Fault Refusal :=
  va3Op s none (1349 + f.word) f (map3H (bf16.acc 0))

/-- FACC_BF16X2_VU (R306): FACC.bf16x2 with a uniform S operand. -/
def execFaccBf16x2Vu (f : VA) (s : State) : Host.Outcome State Fault Refusal :=
  vu3Op s none (1351 + f.word) f (map3H (bf16.acc 0))

/-- FACC_F32 (R317): Fused FP32 a × b + d rounded .rn. -/
def execFaccF32 (f : VA) (s : State) : Host.Outcome State Fault Refusal :=
  va3Op s none (197 + f.word) f (fp32.acc 0)

/-- FACC_F32_VU (R306): FACC.f32 with a uniform S operand. -/
def execFaccF32Vu (f : VA) (s : State) : Host.Outcome State Fault Refusal :=
  vu3Op s none (199 + f.word) f (fp32.acc 0)

/-- FACC_F32_RZ (R317): Fused FP32 multiply-accumulate rounded toward zero. -/
def execFaccF32Rz (f : VA) (s : State) : Host.Outcome State Fault Refusal :=
  va3Op s none (249 + f.word) f (fp32.acc 1)

/-- FACC_F32_RZ_VU (R306): FACC.f32.rz with a uniform S operand. -/
def execFaccF32RzVu (f : VA) (s : State) : Host.Outcome State Fault Refusal :=
  vu3Op s none (251 + f.word) f (fp32.acc 1)

/-- FACC_F32_RU (R317): Fused FP32 multiply-accumulate rounded toward +∞. -/
def execFaccF32Ru (f : VA) (s : State) : Host.Outcome State Fault Refusal :=
  va3Op s none (505 + f.word) f (fp32.acc 2)

/-- FACC_F32_RU_VU (R306): FACC.f32.ru with a uniform S operand. -/
def execFaccF32RuVu (f : VA) (s : State) : Host.Outcome State Fault Refusal :=
  vu3Op s none (507 + f.word) f (fp32.acc 2)

/-- FACC_F32_RD (R317): Fused FP32 multiply-accumulate rounded toward −∞. -/
def execFaccF32Rd (f : VA) (s : State) : Host.Outcome State Fault Refusal :=
  va3Op s none (761 + f.word) f (fp32.acc 3)

/-- FACC_F32_RD_VU (R306): FACC.f32.rd with a uniform S operand. -/
def execFaccF32RdVu (f : VA) (s : State) : Host.Outcome State Fault Refusal :=
  vu3Op s none (763 + f.word) f (fp32.acc 3)

/-- FNEG (R318): Flip the FP32 sign bit. -/
def execFneg (f : VUn) (s : State) : Host.Outcome State Fault Refusal :=
  unOp s none (389 + f.word) f fneg

/-- FABS (R318): Clear the FP32 sign bit. -/
def execFabs (f : VUn) (s : State) : Host.Outcome State Fault Refusal :=
  unOp s none (453 + f.word) f fabs

/-- FCLASS (R318): Write a one-hot FP32 class mask. -/
def execFclass (f : VUn) (s : State) : Host.Outcome State Fault Refusal :=
  unOp s none (581 + f.word) f fclass

/-- RCP (R321): Correctly rounded reciprocal. -/
def execRcp (f : VUn) (s : State) : Host.Outcome State Fault Refusal :=
  unOp s none (1413 + f.word) f (special FV.rcp)

/-- RSQ (R321): Correctly rounded reciprocal square root. -/
def execRsq (f : VUn) (s : State) : Host.Outcome State Fault Refusal :=
  unOp s none (1477 + f.word) f (special FV.rsq)

/-- SQRT (R321): Correctly rounded square root. -/
def execSqrt (f : VUn) (s : State) : Host.Outcome State Fault Refusal :=
  unOp s none (1541 + f.word) f (special FV.sqrt)

/-- EXP2 (R321): Correctly rounded 2^a. -/
def execExp2 (f : VUn) (s : State) : Host.Outcome State Fault Refusal :=
  unOp s none (1605 + f.word) f (special FV.exp2)

/-- LOG2 (R321): Correctly rounded log2 a. -/
def execLog2 (f : VUn) (s : State) : Host.Outcome State Fault Refusal :=
  unOp s none (1669 + f.word) f (special FV.log2)

/-- SIN (R321): Correctly rounded sin(πa). -/
def execSin (f : VUn) (s : State) : Host.Outcome State Fault Refusal :=
  unOp s none (1733 + f.word) f (special FV.sin)

/-- COS (R321): Correctly rounded cos(πa). -/
def execCos (f : VUn) (s : State) : Host.Outcome State Fault Refusal :=
  unOp s none (1797 + f.word) f (special FV.cos)

/-- TANH (R321): Correctly rounded tanh a. -/
def execTanh (f : VUn) (s : State) : Host.Outcome State Fault Refusal :=
  unOp s none (1861 + f.word) f (special FV.tanh)

/-- FRND (R319): Round to an integral FP32 value in the mode given in B. -/
def execFrnd (f : OpF) (s : State) : Host.Outcome State Fault Refusal :=
  unOp s (firstCode [(4 ≤ f.o.toNat, 4)]) (709 + f.word) ⟨f.sp, f.pred, f.a, f.d⟩ (frnd f.o.toNat)

/-- FCMP (R318): FP32 compare into a predicate. -/
def execFcmp (f : VCmpF) (s : State) : Host.Outcome State Fault Refusal :=
  laneIssue s (illegalFcmp f) f.sp fun x =>
    let a := x.vsrc f.a.toNat
    let b := x.vsrc f.b.toNat
    x.predAct [f.a.toNat, f.b.toNat] f.d.toNat (x.g.written x.p f.pred.toNat) false fun l =>
      ccFloat f.c.toNat (a.lane l) (b.lane l)

/-- FCMP_VU (R306): FCMP with a uniform S operand. -/
def execFcmpVu (f : VCmpF) (s : State) : Host.Outcome State Fault Refusal :=
  laneIssue s (illegalFcmp f) f.sp fun x =>
    match x.sWait [f.b.toNat] with
    | some w => .park w
    | none =>
      let a := x.vsrc f.a.toNat
      x.predAct [f.a.toNat] f.d.toNat (x.g.written x.p f.pred.toNat) false fun l =>
        ccFloat f.c.toNat (a.lane l) (x.g.sreg f.b.toNat)

/-- FADD_F32_N (R271): 16-bit parcel form of FADD.f32. -/
def execFaddF32N (f : NF) (s : State) : Host.Outcome State Fault Refusal :=
  nOp s none (5 + f.d.toNat * 2048 + f.d.toNat * 131072 + f.a.toNat * 8388608) f false (fp32.add 0)

/-- FSUB_F32_N (R271): 16-bit parcel form of FSUB.f32. -/
def execFsubF32N (f : NF) (s : State) : Host.Outcome State Fault Refusal :=
  nOp s none (69 + f.d.toNat * 2048 + f.d.toNat * 131072 + f.a.toNat * 8388608) f false (fp32.sub 0)

/-- FMUL_F32_N (R271): 16-bit parcel form of FMUL.f32. -/
def execFmulF32N (f : NF) (s : State) : Host.Outcome State Fault Refusal :=
  nOp s none (133 + f.d.toNat * 2048 + f.d.toNat * 131072 + f.a.toNat * 8388608) f false (fp32.mul 0)

/-- FMAX_F32_N (R271): 16-bit parcel form of FMAX.f32. -/
def execFmaxF32N (f : NF) (s : State) : Host.Outcome State Fault Refusal :=
  nOp s none (325 + f.d.toNat * 2048 + f.d.toNat * 131072 + f.a.toNat * 8388608) f false (fp32.minMax true)

end Sys2Proof.Machine
end

