-- ==== Sys2Proof/Machine/VecInt.lean ====
section
/-! DEFINITION. Vector integer instructions: majors 0, 1, 6, 7 and the 16-bit integer parcels (R312 to
R316, R271). -/

namespace Sys2Proof.Machine

/-- VADD (R312): Lane-wise 32-bit wrapping add. -/
def execVadd (f : VA) (s : State) : Host.Outcome State Fault Refusal :=
  vaOp s none (1 + f.word) f (fun a b => a + b)

/-- VADD_VU (R306): VADD with a uniform S operand. -/
def execVaddVu (f : VA) (s : State) : Host.Outcome State Fault Refusal :=
  vuOp s none (3 + f.word) f (fun a b => a + b)

/-- VSUB (R312): Lane-wise 32-bit wrapping subtract. -/
def execVsub (f : VA) (s : State) : Host.Outcome State Fault Refusal :=
  vaOp s none (65 + f.word) f (fun a b => a - b)

/-- VSUB_VU (R306): VSUB with a uniform S operand. -/
def execVsubVu (f : VA) (s : State) : Host.Outcome State Fault Refusal :=
  vuOp s none (67 + f.word) f (fun a b => a - b)

/-- VMUL (R312): Lane-wise low 32 bits of a product. -/
def execVmul (f : VA) (s : State) : Host.Outcome State Fault Refusal :=
  vaOp s none (129 + f.word) f (fun a b => a * b)

/-- VMUL_VU (R306): VMUL with a uniform S operand. -/
def execVmulVu (f : VA) (s : State) : Host.Outcome State Fault Refusal :=
  vuOp s none (131 + f.word) f (fun a b => a * b)

/-- VMULH_S32 (R312): Lane-wise high 32 bits of a signed product. -/
def execVmulhS32 (f : VA) (s : State) : Host.Outcome State Fault Refusal :=
  vaOp s none (193 + f.word) f mulhS

/-- VMULH_S32_VU (R306): VMULH.s32 with a uniform S operand. -/
def execVmulhS32Vu (f : VA) (s : State) : Host.Outcome State Fault Refusal :=
  vuOp s none (195 + f.word) f mulhS

/-- VAND (R312): Lane-wise bitwise AND. -/
def execVand (f : VA) (s : State) : Host.Outcome State Fault Refusal :=
  vaOp s none (321 + f.word) f (fun a b => a &&& b)

/-- VAND_VU (R306): VAND with a uniform S operand. -/
def execVandVu (f : VA) (s : State) : Host.Outcome State Fault Refusal :=
  vuOp s none (323 + f.word) f (fun a b => a &&& b)

/-- VOR (R312): Lane-wise bitwise OR. -/
def execVor (f : VA) (s : State) : Host.Outcome State Fault Refusal :=
  vaOp s none (385 + f.word) f (fun a b => a ||| b)

/-- VOR_VU (R306): VOR with a uniform S operand. -/
def execVorVu (f : VA) (s : State) : Host.Outcome State Fault Refusal :=
  vuOp s none (387 + f.word) f (fun a b => a ||| b)

/-- VXOR (R312): Lane-wise bitwise XOR. -/
def execVxor (f : VA) (s : State) : Host.Outcome State Fault Refusal :=
  vaOp s none (449 + f.word) f (fun a b => a ^^^ b)

/-- VXOR_VU (R306): VXOR with a uniform S operand. -/
def execVxorVu (f : VA) (s : State) : Host.Outcome State Fault Refusal :=
  vuOp s none (451 + f.word) f (fun a b => a ^^^ b)

/-- VSHL (R313): Lane-wise shift left, 0 for shifts of 32 or more. -/
def execVshl (f : VA) (s : State) : Host.Outcome State Fault Refusal :=
  vaOp s none (577 + f.word) f shl

/-- VSHL_VU (R306): VSHL with a uniform S operand. -/
def execVshlVu (f : VA) (s : State) : Host.Outcome State Fault Refusal :=
  vuOp s none (579 + f.word) f shl

/-- VSHR (R313): Lane-wise logical shift right. -/
def execVshr (f : VA) (s : State) : Host.Outcome State Fault Refusal :=
  vaOp s none (641 + f.word) f shr

/-- VSHR_VU (R306): VSHR with a uniform S operand. -/
def execVshrVu (f : VA) (s : State) : Host.Outcome State Fault Refusal :=
  vuOp s none (643 + f.word) f shr

/-- VSAR (R313): Lane-wise arithmetic shift right. -/
def execVsar (f : VA) (s : State) : Host.Outcome State Fault Refusal :=
  vaOp s none (705 + f.word) f sar

/-- VSAR_VU (R306): VSAR with a uniform S operand. -/
def execVsarVu (f : VA) (s : State) : Host.Outcome State Fault Refusal :=
  vuOp s none (707 + f.word) f sar

/-- VMIN_S32 (R312): Lane-wise signed minimum. -/
def execVminS32 (f : VA) (s : State) : Host.Outcome State Fault Refusal :=
  vaOp s none (769 + f.word) f minS

/-- VMIN_S32_VU (R306): VMIN.s32 with a uniform S operand. -/
def execVminS32Vu (f : VA) (s : State) : Host.Outcome State Fault Refusal :=
  vuOp s none (771 + f.word) f minS

/-- VMAX_S32 (R312): Lane-wise signed maximum. -/
def execVmaxS32 (f : VA) (s : State) : Host.Outcome State Fault Refusal :=
  vaOp s none (833 + f.word) f maxS

/-- VMAX_S32_VU (R306): VMAX.s32 with a uniform S operand. -/
def execVmaxS32Vu (f : VA) (s : State) : Host.Outcome State Fault Refusal :=
  vuOp s none (835 + f.word) f maxS

/-- VADDS_S32 (R312): Lane-wise signed saturating add. -/
def execVaddsS32 (f : VA) (s : State) : Host.Outcome State Fault Refusal :=
  vaOp s none (961 + f.word) f addsS

/-- VADDS_S32_VU (R306): VADDS.s32 with a uniform S operand. -/
def execVaddsS32Vu (f : VA) (s : State) : Host.Outcome State Fault Refusal :=
  vuOp s none (963 + f.word) f addsS

/-- VSUBS_S32 (R312): Lane-wise signed saturating subtract. -/
def execVsubsS32 (f : VA) (s : State) : Host.Outcome State Fault Refusal :=
  vaOp s none (1025 + f.word) f subsS

/-- VSUBS_S32_VU (R306): VSUBS.s32 with a uniform S operand. -/
def execVsubsS32Vu (f : VA) (s : State) : Host.Outcome State Fault Refusal :=
  vuOp s none (1027 + f.word) f subsS

/-- VBFE (R313): Lane-wise unsigned bit-field extract. -/
def execVbfe (f : VA) (s : State) : Host.Outcome State Fault Refusal :=
  vaOp s none (1345 + f.word) f bfe

/-- VBFE_VU (R306): VBFE with a uniform S operand. -/
def execVbfeVu (f : VA) (s : State) : Host.Outcome State Fault Refusal :=
  vuOp s none (1347 + f.word) f bfe

/-- VMULH_Z32 (R316): High 32 bits of an unsigned product. -/
def execVmulhZ32 (f : VA) (s : State) : Host.Outcome State Fault Refusal :=
  vaOp s none (13 + f.word) f mulhZ

/-- VMULH_Z32_VU (R306): VMULH.z32 with a uniform S operand. -/
def execVmulhZ32Vu (f : VA) (s : State) : Host.Outcome State Fault Refusal :=
  vuOp s none (15 + f.word) f mulhZ

/-- VMIN_Z32 (R316): Unsigned minimum. -/
def execVminZ32 (f : VA) (s : State) : Host.Outcome State Fault Refusal :=
  vaOp s none (77 + f.word) f minZ

/-- VMIN_Z32_VU (R306): VMIN.z32 with a uniform S operand. -/
def execVminZ32Vu (f : VA) (s : State) : Host.Outcome State Fault Refusal :=
  vuOp s none (79 + f.word) f minZ

/-- VMAX_Z32 (R316): Unsigned maximum. -/
def execVmaxZ32 (f : VA) (s : State) : Host.Outcome State Fault Refusal :=
  vaOp s none (141 + f.word) f maxZ

/-- VMAX_Z32_VU (R306): VMAX.z32 with a uniform S operand. -/
def execVmaxZ32Vu (f : VA) (s : State) : Host.Outcome State Fault Refusal :=
  vuOp s none (143 + f.word) f maxZ

/-- VADDS_Z32 (R316): Unsigned saturating add. -/
def execVaddsZ32 (f : VA) (s : State) : Host.Outcome State Fault Refusal :=
  vaOp s none (205 + f.word) f addsZ

/-- VADDS_Z32_VU (R306): VADDS.z32 with a uniform S operand. -/
def execVaddsZ32Vu (f : VA) (s : State) : Host.Outcome State Fault Refusal :=
  vuOp s none (207 + f.word) f addsZ

/-- VSUBS_Z32 (R316): Unsigned saturating subtract. -/
def execVsubsZ32 (f : VA) (s : State) : Host.Outcome State Fault Refusal :=
  vaOp s none (269 + f.word) f subsZ

/-- VSUBS_Z32_VU (R306): VSUBS.z32 with a uniform S operand. -/
def execVsubsZ32Vu (f : VA) (s : State) : Host.Outcome State Fault Refusal :=
  vuOp s none (271 + f.word) f subsZ

/-- VADD_I16X2 (R316): Packed 16-bit wrapping add. -/
def execVaddI16x2 (f : VA) (s : State) : Host.Outcome State Fault Refusal :=
  vaOp s none (525 + f.word) f (map2H (fun a b => a + b))

/-- VADD_I16X2_VU (R306): VADD.i16x2 with a uniform S operand. -/
def execVaddI16x2Vu (f : VA) (s : State) : Host.Outcome State Fault Refusal :=
  vuOp s none (527 + f.word) f (map2H (fun a b => a + b))

/-- VSUB_I16X2 (R316): Packed 16-bit wrapping subtract. -/
def execVsubI16x2 (f : VA) (s : State) : Host.Outcome State Fault Refusal :=
  vaOp s none (589 + f.word) f (map2H (fun a b => a - b))

/-- VSUB_I16X2_VU (R306): VSUB.i16x2 with a uniform S operand. -/
def execVsubI16x2Vu (f : VA) (s : State) : Host.Outcome State Fault Refusal :=
  vuOp s none (591 + f.word) f (map2H (fun a b => a - b))

/-- VMUL_I16X2 (R316): Packed 16-bit low product. -/
def execVmulI16x2 (f : VA) (s : State) : Host.Outcome State Fault Refusal :=
  vaOp s none (653 + f.word) f (map2H (fun a b => a * b))

/-- VMUL_I16X2_VU (R306): VMUL.i16x2 with a uniform S operand. -/
def execVmulI16x2Vu (f : VA) (s : State) : Host.Outcome State Fault Refusal :=
  vuOp s none (655 + f.word) f (map2H (fun a b => a * b))

/-- VMIN_S16X2 (R316): Packed signed 16-bit minimum. -/
def execVminS16x2 (f : VA) (s : State) : Host.Outcome State Fault Refusal :=
  vaOp s none (717 + f.word) f (map2H eMinS)

/-- VMIN_S16X2_VU (R306): VMIN.s16x2 with a uniform S operand. -/
def execVminS16x2Vu (f : VA) (s : State) : Host.Outcome State Fault Refusal :=
  vuOp s none (719 + f.word) f (map2H eMinS)

/-- VMAX_S16X2 (R316): Packed signed 16-bit maximum. -/
def execVmaxS16x2 (f : VA) (s : State) : Host.Outcome State Fault Refusal :=
  vaOp s none (781 + f.word) f (map2H eMaxS)

/-- VMAX_S16X2_VU (R306): VMAX.s16x2 with a uniform S operand. -/
def execVmaxS16x2Vu (f : VA) (s : State) : Host.Outcome State Fault Refusal :=
  vuOp s none (783 + f.word) f (map2H eMaxS)

/-- VADDS_S16X2 (R316): Packed signed 16-bit saturating add. -/
def execVaddsS16x2 (f : VA) (s : State) : Host.Outcome State Fault Refusal :=
  vaOp s none (973 + f.word) f (map2H eAddsS)

/-- VADDS_S16X2_VU (R306): VADDS.s16x2 with a uniform S operand. -/
def execVaddsS16x2Vu (f : VA) (s : State) : Host.Outcome State Fault Refusal :=
  vuOp s none (975 + f.word) f (map2H eAddsS)

/-- VSUBS_S16X2 (R316): Packed signed 16-bit saturating subtract. -/
def execVsubsS16x2 (f : VA) (s : State) : Host.Outcome State Fault Refusal :=
  vaOp s none (1037 + f.word) f (map2H eSubsS)

/-- VSUBS_S16X2_VU (R306): VSUBS.s16x2 with a uniform S operand. -/
def execVsubsS16x2Vu (f : VA) (s : State) : Host.Outcome State Fault Refusal :=
  vuOp s none (1039 + f.word) f (map2H eSubsS)

/-- VMIN_Z16X2 (R316): Packed unsigned 16-bit minimum. -/
def execVminZ16x2 (f : VA) (s : State) : Host.Outcome State Fault Refusal :=
  vaOp s none (845 + f.word) f (map2H eMinZ)

/-- VMIN_Z16X2_VU (R306): VMIN.z16x2 with a uniform S operand. -/
def execVminZ16x2Vu (f : VA) (s : State) : Host.Outcome State Fault Refusal :=
  vuOp s none (847 + f.word) f (map2H eMinZ)

/-- VMAX_Z16X2 (R316): Packed unsigned 16-bit maximum. -/
def execVmaxZ16x2 (f : VA) (s : State) : Host.Outcome State Fault Refusal :=
  vaOp s none (909 + f.word) f (map2H eMaxZ)

/-- VMAX_Z16X2_VU (R306): VMAX.z16x2 with a uniform S operand. -/
def execVmaxZ16x2Vu (f : VA) (s : State) : Host.Outcome State Fault Refusal :=
  vuOp s none (911 + f.word) f (map2H eMaxZ)

/-- VADDS_Z16X2 (R316): Packed unsigned 16-bit saturating add. -/
def execVaddsZ16x2 (f : VA) (s : State) : Host.Outcome State Fault Refusal :=
  vaOp s none (1101 + f.word) f (map2H eAddsZ)

/-- VADDS_Z16X2_VU (R306): VADDS.z16x2 with a uniform S operand. -/
def execVaddsZ16x2Vu (f : VA) (s : State) : Host.Outcome State Fault Refusal :=
  vuOp s none (1103 + f.word) f (map2H eAddsZ)

/-- VSUBS_Z16X2 (R316): Packed unsigned 16-bit saturating subtract. -/
def execVsubsZ16x2 (f : VA) (s : State) : Host.Outcome State Fault Refusal :=
  vaOp s none (1165 + f.word) f (map2H eSubsZ)

/-- VSUBS_Z16X2_VU (R306): VSUBS.z16x2 with a uniform S operand. -/
def execVsubsZ16x2Vu (f : VA) (s : State) : Host.Outcome State Fault Refusal :=
  vuOp s none (1167 + f.word) f (map2H eSubsZ)

/-- VADD_I8X4 (R316): Packed 8-bit wrapping add. -/
def execVaddI8x4 (f : VA) (s : State) : Host.Outcome State Fault Refusal :=
  vaOp s none (1229 + f.word) f (map2B (fun a b => a + b))

/-- VADD_I8X4_VU (R306): VADD.i8x4 with a uniform S operand. -/
def execVaddI8x4Vu (f : VA) (s : State) : Host.Outcome State Fault Refusal :=
  vuOp s none (1231 + f.word) f (map2B (fun a b => a + b))

/-- VSUB_I8X4 (R316): Packed 8-bit wrapping subtract. -/
def execVsubI8x4 (f : VA) (s : State) : Host.Outcome State Fault Refusal :=
  vaOp s none (1293 + f.word) f (map2B (fun a b => a - b))

/-- VSUB_I8X4_VU (R306): VSUB.i8x4 with a uniform S operand. -/
def execVsubI8x4Vu (f : VA) (s : State) : Host.Outcome State Fault Refusal :=
  vuOp s none (1295 + f.word) f (map2B (fun a b => a - b))

/-- VMUL_I8X4 (R316): Packed 8-bit low product. -/
def execVmulI8x4 (f : VA) (s : State) : Host.Outcome State Fault Refusal :=
  vaOp s none (1357 + f.word) f (map2B (fun a b => a * b))

/-- VMUL_I8X4_VU (R306): VMUL.i8x4 with a uniform S operand. -/
def execVmulI8x4Vu (f : VA) (s : State) : Host.Outcome State Fault Refusal :=
  vuOp s none (1359 + f.word) f (map2B (fun a b => a * b))

/-- VMIN_S8X4 (R316): Packed signed 8-bit minimum. -/
def execVminS8x4 (f : VA) (s : State) : Host.Outcome State Fault Refusal :=
  vaOp s none (1421 + f.word) f (map2B eMinS)

/-- VMIN_S8X4_VU (R306): VMIN.s8x4 with a uniform S operand. -/
def execVminS8x4Vu (f : VA) (s : State) : Host.Outcome State Fault Refusal :=
  vuOp s none (1423 + f.word) f (map2B eMinS)

/-- VMAX_S8X4 (R316): Packed signed 8-bit maximum. -/
def execVmaxS8x4 (f : VA) (s : State) : Host.Outcome State Fault Refusal :=
  vaOp s none (1485 + f.word) f (map2B eMaxS)

/-- VMAX_S8X4_VU (R306): VMAX.s8x4 with a uniform S operand. -/
def execVmaxS8x4Vu (f : VA) (s : State) : Host.Outcome State Fault Refusal :=
  vuOp s none (1487 + f.word) f (map2B eMaxS)

/-- VADDS_S8X4 (R316): Packed signed 8-bit saturating add. -/
def execVaddsS8x4 (f : VA) (s : State) : Host.Outcome State Fault Refusal :=
  vaOp s none (1677 + f.word) f (map2B eAddsS)

/-- VADDS_S8X4_VU (R306): VADDS.s8x4 with a uniform S operand. -/
def execVaddsS8x4Vu (f : VA) (s : State) : Host.Outcome State Fault Refusal :=
  vuOp s none (1679 + f.word) f (map2B eAddsS)

/-- VSUBS_S8X4 (R316): Packed signed 8-bit saturating subtract. -/
def execVsubsS8x4 (f : VA) (s : State) : Host.Outcome State Fault Refusal :=
  vaOp s none (1741 + f.word) f (map2B eSubsS)

/-- VSUBS_S8X4_VU (R306): VSUBS.s8x4 with a uniform S operand. -/
def execVsubsS8x4Vu (f : VA) (s : State) : Host.Outcome State Fault Refusal :=
  vuOp s none (1743 + f.word) f (map2B eSubsS)

/-- VMIN_Z8X4 (R316): Packed unsigned 8-bit minimum. -/
def execVminZ8x4 (f : VA) (s : State) : Host.Outcome State Fault Refusal :=
  vaOp s none (1549 + f.word) f (map2B eMinZ)

/-- VMIN_Z8X4_VU (R306): VMIN.z8x4 with a uniform S operand. -/
def execVminZ8x4Vu (f : VA) (s : State) : Host.Outcome State Fault Refusal :=
  vuOp s none (1551 + f.word) f (map2B eMinZ)

/-- VMAX_Z8X4 (R316): Packed unsigned 8-bit maximum. -/
def execVmaxZ8x4 (f : VA) (s : State) : Host.Outcome State Fault Refusal :=
  vaOp s none (1613 + f.word) f (map2B eMaxZ)

/-- VMAX_Z8X4_VU (R306): VMAX.z8x4 with a uniform S operand. -/
def execVmaxZ8x4Vu (f : VA) (s : State) : Host.Outcome State Fault Refusal :=
  vuOp s none (1615 + f.word) f (map2B eMaxZ)

/-- VADDS_Z8X4 (R316): Packed unsigned 8-bit saturating add. -/
def execVaddsZ8x4 (f : VA) (s : State) : Host.Outcome State Fault Refusal :=
  vaOp s none (1805 + f.word) f (map2B eAddsZ)

/-- VADDS_Z8X4_VU (R306): VADDS.z8x4 with a uniform S operand. -/
def execVaddsZ8x4Vu (f : VA) (s : State) : Host.Outcome State Fault Refusal :=
  vuOp s none (1807 + f.word) f (map2B eAddsZ)

/-- VSUBS_Z8X4 (R316): Packed unsigned 8-bit saturating subtract. -/
def execVsubsZ8x4 (f : VA) (s : State) : Host.Outcome State Fault Refusal :=
  vaOp s none (1869 + f.word) f (map2B eSubsZ)

/-- VSUBS_Z8X4_VU (R306): VSUBS.z8x4 with a uniform S operand. -/
def execVsubsZ8x4Vu (f : VA) (s : State) : Host.Outcome State Fault Refusal :=
  vuOp s none (1871 + f.word) f (map2B eSubsZ)

/-- VMAD (R312): Lane-wise a × b + d, low 32 bits. -/
def execVmad (f : VA) (s : State) : Host.Outcome State Fault Refusal :=
  va3Op s none (257 + f.word) f (fun a b d => a * b + d)

/-- VMAD_VU (R306): VMAD with a uniform S operand. -/
def execVmadVu (f : VA) (s : State) : Host.Outcome State Fault Refusal :=
  vu3Op s none (259 + f.word) f (fun a b d => a * b + d)

/-- VBFI (R313): Lane-wise bit-field insert into d. -/
def execVbfi (f : VA) (s : State) : Host.Outcome State Fault Refusal :=
  va3Op s none (1409 + f.word) f bfi

/-- VBFI_VU (R306): VBFI with a uniform S operand. -/
def execVbfiVu (f : VA) (s : State) : Host.Outcome State Fault Refusal :=
  vu3Op s none (1411 + f.word) f bfi

/-- VDOT4_S8 (R312): Signed 4 × 8-bit dot product added to d. -/
def execVdot4S8 (f : VA) (s : State) : Host.Outcome State Fault Refusal :=
  va3Op s none (1729 + f.word) f dot4S

/-- VDOT4_S8_VU (R306): VDOT4.s8 with a uniform S operand. -/
def execVdot4S8Vu (f : VA) (s : State) : Host.Outcome State Fault Refusal :=
  vu3Op s none (1731 + f.word) f dot4S

/-- VDOT4_Z8 (R316): Unsigned 4 × 8-bit dot product added to d. -/
def execVdot4Z8 (f : VA) (s : State) : Host.Outcome State Fault Refusal :=
  va3Op s none (333 + f.word) f dot4Z

/-- VDOT4_Z8_VU (R306): VDOT4.z8 with a uniform S operand. -/
def execVdot4Z8Vu (f : VA) (s : State) : Host.Outcome State Fault Refusal :=
  vu3Op s none (335 + f.word) f dot4Z

/-- VNOT (R312): Lane-wise bitwise NOT. -/
def execVnot (f : VUn) (s : State) : Host.Outcome State Fault Refusal :=
  unOp s none (513 + f.word) f (fun a => ~~~a)

/-- VABS (R312): Lane-wise absolute value modulo 2^32. -/
def execVabs (f : VUn) (s : State) : Host.Outcome State Fault Refusal :=
  unOp s none (897 + f.word) f absW

/-- VMOV (R312): Lane-wise register move. -/
def execVmov (f : VUn) (s : State) : Host.Outcome State Fault Refusal :=
  unOp s none (1217 + f.word) f (fun a => a)

/-- VCLZ (R314): Per-element leading-zero count. -/
def execVclz (f : CntF) (s : State) : Host.Outcome State Fault Refusal :=
  unOp s (illegalCnt f) (1473 + f.word) ⟨f.sp, f.pred, f.a, f.d⟩
    (perElem (cntWidth f.w.toNat) (clz (cntWidth f.w.toNat)))

/-- VCTZ (R314): Per-element trailing-zero count. -/
def execVctz (f : CntF) (s : State) : Host.Outcome State Fault Refusal :=
  unOp s (illegalCnt f) (1537 + f.word) ⟨f.sp, f.pred, f.a, f.d⟩
    (perElem (cntWidth f.w.toNat) (ctz (cntWidth f.w.toNat)))

/-- VFFS (R314): Per-element find-first-set. -/
def execVffs (f : CntF) (s : State) : Host.Outcome State Fault Refusal :=
  unOp s (illegalCnt f) (1601 + f.word) ⟨f.sp, f.pred, f.a, f.d⟩
    (perElem (cntWidth f.w.toNat) (ffs (cntWidth f.w.toNat)))

/-- VPOPC (R314): Per-element population count. -/
def execVpopc (f : CntF) (s : State) : Host.Outcome State Fault Refusal :=
  unOp s (illegalCnt f) (1665 + f.word) ⟨f.sp, f.pred, f.a, f.d⟩
    (perElem (cntWidth f.w.toNat) (popc (cntWidth f.w.toNat)))

/-- VLI (R312): Load a sign-extended 12-bit immediate into every written lane. -/
def execVli (f : VliF) (s : State) : Host.Outcome State Fault Refusal :=
  laneIssue s none f.sp fun x =>
    x.laneAct { opw := some (BitVec.ofNat 32 (1281 + f.word)), dst := f.d.toNat
                mask := x.g.written x.p f.pred.toNat, lane := fun _ => (f.i ++ f.j).signExtend 32 }

/-- VCMP (R315): Lane-wise integer compare into a predicate. -/
def execVcmp (f : VCmpF) (s : State) : Host.Outcome State Fault Refusal :=
  laneIssue s (illegalCmp f) f.sp fun x =>
    let a := x.vsrc f.a.toNat
    let b := x.vsrc f.b.toNat
    x.predAct [f.a.toNat, f.b.toNat] f.d.toNat (x.g.written x.p f.pred.toNat) false fun l =>
      ccInt f.c.toNat (a.lane l) (b.lane l)

/-- VCMP_VU (R306): VCMP with a uniform S operand. -/
def execVcmpVu (f : VCmpF) (s : State) : Host.Outcome State Fault Refusal :=
  laneIssue s (illegalCmp f) f.sp fun x =>
    match x.sWait [f.b.toNat] with
    | some w => .park w
    | none =>
      let a := x.vsrc f.a.toNat
      x.predAct [f.a.toNat] f.d.toNat (x.g.written x.p f.pred.toNat) false fun l =>
        ccInt f.c.toNat (a.lane l) (x.g.sreg f.b.toNat)

/-- VSEL (R315): Select a or b per active lane by the select predicate. PRED names the select predicate; every active lane is written. -/
def execVsel (f : VA) (s : State) : Host.Outcome State Fault Refusal :=
  laneIssue s (illegalSel f) f.sp fun x =>
    let a := x.vsrc f.a.toNat
    let b := x.vsrc f.b.toNat
    let q := x.g.p.get 0 f.pred.toNat
    x.laneAct { srcs := [f.a.toNat, f.b.toNat], dst := f.d.toNat, mask := x.p.mask
                lane := fun l => if q.getLsbD l then a.lane l else b.lane l }

/-- VSEL_VU (R306): VSEL with a uniform S operand. PRED names the select predicate; every active lane is written. -/
def execVselVu (f : VA) (s : State) : Host.Outcome State Fault Refusal :=
  laneIssue s (illegalSel f) f.sp fun x =>
    match x.sWait [f.b.toNat] with
    | some w => .park w
    | none =>
      let a := x.vsrc f.a.toNat
      let q := x.g.p.get 0 f.pred.toNat
      x.laneAct { srcs := [f.a.toNat], dst := f.d.toNat, mask := x.p.mask
                  lane := fun l => if q.getLsbD l then a.lane l else x.g.sreg f.b.toNat }

/-- VADD_N (R271): 16-bit parcel form of VADD Vd, Vd, Va. -/
def execVaddN (f : NF) (s : State) : Host.Outcome State Fault Refusal :=
  nOp s none (1 + f.d.toNat * 2048 + f.d.toNat * 131072 + f.a.toNat * 8388608) f false (fun a b => a + b)

/-- VSUB_N (R271): 16-bit parcel form of VSUB. -/
def execVsubN (f : NF) (s : State) : Host.Outcome State Fault Refusal :=
  nOp s none (65 + f.d.toNat * 2048 + f.d.toNat * 131072 + f.a.toNat * 8388608) f false (fun a b => a - b)

/-- VMUL_N (R271): 16-bit parcel form of VMUL. -/
def execVmulN (f : NF) (s : State) : Host.Outcome State Fault Refusal :=
  nOp s none (129 + f.d.toNat * 2048 + f.d.toNat * 131072 + f.a.toNat * 8388608) f false (fun a b => a * b)

/-- VAND_N (R271): 16-bit parcel form of VAND. -/
def execVandN (f : NF) (s : State) : Host.Outcome State Fault Refusal :=
  nOp s none (321 + f.d.toNat * 2048 + f.d.toNat * 131072 + f.a.toNat * 8388608) f false (fun a b => a &&& b)

/-- VOR_N (R271): 16-bit parcel form of VOR. -/
def execVorN (f : NF) (s : State) : Host.Outcome State Fault Refusal :=
  nOp s none (385 + f.d.toNat * 2048 + f.d.toNat * 131072 + f.a.toNat * 8388608) f false (fun a b => a ||| b)

/-- VXOR_N (R271): 16-bit parcel form of VXOR. -/
def execVxorN (f : NF) (s : State) : Host.Outcome State Fault Refusal :=
  nOp s none (449 + f.d.toNat * 2048 + f.d.toNat * 131072 + f.a.toNat * 8388608) f false (fun a b => a ^^^ b)

/-- VSHL_N (R271): 16-bit parcel form of VSHL. -/
def execVshlN (f : NF) (s : State) : Host.Outcome State Fault Refusal :=
  nOp s none (577 + f.d.toNat * 2048 + f.d.toNat * 131072 + f.a.toNat * 8388608) f false shl

/-- VSHR_N (R271): 16-bit parcel form of VSHR. -/
def execVshrN (f : NF) (s : State) : Host.Outcome State Fault Refusal :=
  nOp s none (641 + f.d.toNat * 2048 + f.d.toNat * 131072 + f.a.toNat * 8388608) f false shr

/-- VSAR_N (R271): 16-bit parcel form of VSAR. -/
def execVsarN (f : NF) (s : State) : Host.Outcome State Fault Refusal :=
  nOp s none (705 + f.d.toNat * 2048 + f.d.toNat * 131072 + f.a.toNat * 8388608) f false sar

/-- VMIN_S32_N (R271): 16-bit parcel form of VMIN.s32. -/
def execVminS32N (f : NF) (s : State) : Host.Outcome State Fault Refusal :=
  nOp s none (769 + f.d.toNat * 2048 + f.d.toNat * 131072 + f.a.toNat * 8388608) f false minS

/-- VMAX_S32_N (R271): 16-bit parcel form of VMAX.s32. -/
def execVmaxS32N (f : NF) (s : State) : Host.Outcome State Fault Refusal :=
  nOp s none (833 + f.d.toNat * 2048 + f.d.toNat * 131072 + f.a.toNat * 8388608) f false maxS

/-- VMOV_N (R271): 16-bit parcel form of VMOV Vd, Va. -/
def execVmovN (f : NF) (s : State) : Host.Outcome State Fault Refusal :=
  nOp s none (1217 + f.d.toNat * 2048 + f.a.toNat * 131072) f true (fun _ a => a)

end Sys2Proof.Machine
end

