-- ==== Sys2Proof/Machine/Dispatch.lean ====
section
/-! DEFINITION. One arm per constructor of Instr: each calls the meaning of its instruction. -/

namespace Sys2Proof.Machine

def exec (i : Instr) (s : State) : Host.Outcome State Fault Refusal :=
  match i with
  | .powerOnReset powerOn => Sys2Proof.Machine.execPowerOnReset powerOn s
  | .regulatorsStarted => Sys2Proof.Machine.execRegulatorsStarted s
  | .regulatorFault domain => Sys2Proof.Machine.execRegulatorFault domain s
  | .hostPortLanesTrained => Sys2Proof.Machine.execHostPortLanesTrained s
  | .hostLaneTrainingFailure lanes => Sys2Proof.Machine.execHostLaneTrainingFailure lanes s
  | .ieee1588Lock time => Sys2Proof.Machine.execIeee1588Lock time s
  | .ieee1588LockLoss => Sys2Proof.Machine.execIeee1588LockLoss s
  | .selfTestComplete failures => Sys2Proof.Machine.execSelfTestComplete failures s
  | .firmwareMeasurement images => Sys2Proof.Machine.execFirmwareMeasurement images s
  | .bringupStateTimeout => Sys2Proof.Machine.execBringupStateTimeout s
  | .voltageSettled quadrant => Sys2Proof.Machine.execVoltageSettled quadrant s
  | .partitionFirmwareUpdate part image => Sys2Proof.Machine.execPartitionFirmwareUpdate part image s
  | .hbmChannelRetraining channel => Sys2Proof.Machine.execHbmChannelRetraining channel s
  | .lodraLaneRecalibration link lane => Sys2Proof.Machine.execLodraLaneRecalibration link lane s
  | .hostPortLaneRecalibration lane => Sys2Proof.Machine.execHostPortLaneRecalibration lane s
  | .spareRemap isSlice unit => Sys2Proof.Machine.execSpareRemap isSlice unit s
  | .configStatusRead m => Sys2Proof.Machine.execConfigStatusRead m s
  | .configRegisterWriteSet m => Sys2Proof.Machine.execConfigRegisterWriteSet m s
  | .configRegisterRead m => Sys2Proof.Machine.execConfigRegisterRead m s
  | .configFirmwareLoad m => Sys2Proof.Machine.execConfigFirmwareLoad m s
  | .configRetest m => Sys2Proof.Machine.execConfigRetest m s
  | .configReset m => Sys2Proof.Machine.execConfigReset m s
  | .configAttestation m => Sys2Proof.Machine.execConfigAttestation m s
  | .configQueuePair m => Sys2Proof.Machine.execConfigQueuePair m s
  | .meterset m => Sys2Proof.Machine.execMeterset m s
  | .contextDestroy ctx => Sys2Proof.Machine.execContextDestroy ctx s
  | .partitionTableChange part => Sys2Proof.Machine.execPartitionTableChange part s
  | .wayMaskChange group old => Sys2Proof.Machine.execWayMaskChange group old s
  | .serverTemplateChange ctx cls => Sys2Proof.Machine.execServerTemplateChange ctx cls s
  | .lendClear ctx => Sys2Proof.Machine.execLendClear ctx s
  | .hardwareQueueBind queue => Sys2Proof.Machine.execHardwareQueueBind queue s
  | .tinv value => Sys2Proof.Machine.execTinv value s
  | .traceEnable ctx => Sys2Proof.Machine.execTraceEnable ctx s
  | .dsel value => Sys2Proof.Machine.execDsel value s
  | .dresume value => Sys2Proof.Machine.execDresume value s
  | .dclr value => Sys2Proof.Machine.execDclr value s
  | .ethernetFrame f => Sys2Proof.Machine.execEthernetFrame f s
  | .mkaFrame m => Sys2Proof.Machine.execMkaFrame m s
  | .icmpv6Echo src dst data => Sys2Proof.Machine.execIcmpv6Echo src dst data s
  | .neighbourDiscovery src target => Sys2Proof.Machine.execNeighbourDiscovery src target s
  | .ptpMessage m => Sys2Proof.Machine.execPtpMessage m s
  | .rdmaWrite h rkey range data => Sys2Proof.Machine.execRdmaWrite h rkey range data s
  | .rdmaRead h rkey va len => Sys2Proof.Machine.execRdmaRead h rkey va len s
  | .send h data => Sys2Proof.Machine.execSend h data s
  | .roceAck h => Sys2Proof.Machine.execRoceAck h s
  | .roceNak n => Sys2Proof.Machine.execRoceNak n s
  | .retransmissionTimeout qpn => Sys2Proof.Machine.execRetransmissionTimeout qpn s
  | .pfcPause prio ns => Sys2Proof.Machine.execPfcPause prio ns s
  | .setRing d => Sys2Proof.Machine.execSetRing d s
  | .advanceTail d => Sys2Proof.Machine.execAdvanceTail d s
  | .resetRing d => Sys2Proof.Machine.execResetRing d s
  | .resetRingComplete queue => Sys2Proof.Machine.execResetRingComplete queue s
  | .commandTake queue => Sys2Proof.Machine.execCommandTake queue s
  | .launch cmd => Sys2Proof.Machine.execLaunch cmd s
  | .launchStart cmd => Sys2Proof.Machine.execLaunchStart cmd s
  | .copyh cmd => Sys2Proof.Machine.execCopyh cmd s
  | .lease cmd => Sys2Proof.Machine.execLease cmd s
  | .leaseLive ctx num => Sys2Proof.Machine.execLeaseLive ctx num s
  | .release cmd => Sys2Proof.Machine.execRelease cmd s
  | .signal cmd => Sys2Proof.Machine.execSignal cmd s
  | .waitsem cmd => Sys2Proof.Machine.execWaitsem cmd s
  | .waitsemTimeout cmd => Sys2Proof.Machine.execWaitsemTimeout cmd s
  | .edge cmd => Sys2Proof.Machine.execEdge cmd s
  | .edgeDestroyComplete cmd => Sys2Proof.Machine.execEdgeDestroyComplete cmd s
  | .route cmd peer => Sys2Proof.Machine.execRoute cmd peer s
  | .routeMatchTimeout cmd => Sys2Proof.Machine.execRouteMatchTimeout cmd s
  | .routeDrainComplete route => Sys2Proof.Machine.execRouteDrainComplete route s
  | .recall cmd => Sys2Proof.Machine.execRecall cmd s
  | .readmeter cmd => Sys2Proof.Machine.execReadmeter cmd s
  | .flit pkt => Sys2Proof.Machine.execFlit pkt s
  | .requestTimeout pkt => Sys2Proof.Machine.execRequestTimeout pkt s
  | .mailboxMessage pkt => Sys2Proof.Machine.execMailboxMessage pkt s
  | .mailboxResponse pkt => Sys2Proof.Machine.execMailboxResponse pkt s
  | .mailboxRetry core slot n => Sys2Proof.Machine.execMailboxRetry core slot n s
  | .readLine pkt => Sys2Proof.Machine.execReadLine pkt s
  | .readLineUncached pkt => Sys2Proof.Machine.execReadLineUncached pkt s
  | .writeLine pkt => Sys2Proof.Machine.execWriteLine pkt s
  | .maskedWrite pkt => Sys2Proof.Machine.execMaskedWrite pkt s
  | .atomicWithReturn pkt => Sys2Proof.Machine.execAtomicWithReturn pkt s
  | .reductionNoReturn pkt => Sys2Proof.Machine.execReductionNoReturn pkt s
  | .prefetchToL2 pkt => Sys2Proof.Machine.execPrefetchToL2 pkt s
  | .invalidateLine pkt => Sys2Proof.Machine.execInvalidateLine pkt s
  | .zeroLine pkt => Sys2Proof.Machine.execZeroLine pkt s
  | .readData pkt => Sys2Proof.Machine.execReadData pkt s
  | .writeAcknowledgement pkt => Sys2Proof.Machine.execWriteAcknowledgement pkt s
  | .atomicResult pkt => Sys2Proof.Machine.execAtomicResult pkt s
  | .accessFault pkt => Sys2Proof.Machine.execAccessFault pkt s
  | .linkDataFlit link flit => Sys2Proof.Machine.execLinkDataFlit link flit s
  | .linkIdleFlit link flit => Sys2Proof.Machine.execLinkIdleFlit link flit s
  | .replayRequest link flit => Sys2Proof.Machine.execReplayRequest link flit s
  | .linkRetrain link => Sys2Proof.Machine.execLinkRetrain link s
  | .linkRetrainComplete link lanes => Sys2Proof.Machine.execLinkRetrainComplete link lanes s
  | .linkDown link => Sys2Proof.Machine.execLinkDown link s
  | .linkReturn link => Sys2Proof.Machine.execLinkReturn link s
  | .remoteRequest p => Sys2Proof.Machine.execRemoteRequest p s
  | .ack p => Sys2Proof.Machine.execAck p s
  | .ackTimer flow => Sys2Proof.Machine.execAckTimer flow s
  | .flowTimeout pkt => Sys2Proof.Machine.execFlowTimeout pkt s
  | .freset p => Sys2Proof.Machine.execFreset p s
  | .hoist p => Sys2Proof.Machine.execHoist p s
  | .go p => Sys2Proof.Machine.execGo p s
  | .abort p => Sys2Proof.Machine.execAbort p s
  | .withdraw p => Sys2Proof.Machine.execWithdraw p s
  | .hoistTimeout coll => Sys2Proof.Machine.execHoistTimeout coll s
  | .collectiveComplete coll parts => Sys2Proof.Machine.execCollectiveComplete coll parts s
  | .serverWake srv => Sys2Proof.Machine.execServerWake srv s
  | .arbitration cls inst => Sys2Proof.Machine.execArbitration cls inst s
  | .unitEnd srv => Sys2Proof.Machine.execUnitEnd srv s
  | .cappedRelease srv => Sys2Proof.Machine.execCappedRelease srv s
  | .lendDelayExpiry cluster => Sys2Proof.Machine.execLendDelayExpiry cluster s
  | .cooperativeWindowExpiry req => Sys2Proof.Machine.execCooperativeWindowExpiry req s
  | .distributorRound part => Sys2Proof.Machine.execDistributorRound part s
  | .ageLimitReached queue => Sys2Proof.Machine.execAgeLimitReached queue s
  | .cooperativeStop core slot => Sys2Proof.Machine.execCooperativeStop core slot s
  | .forcedHalt team kind => Sys2Proof.Machine.execForcedHalt team kind s
  | .teamOffCore team => Sys2Proof.Machine.execTeamOffCore team s
  | .hotSpotMigration core => Sys2Proof.Machine.execHotSpotMigration core s
  | .watchdogExpiry => Sys2Proof.Machine.execWatchdogExpiry s
  | .lateFault core slot => Sys2Proof.Machine.execLateFault core slot s
  | .gridEnd grid => Sys2Proof.Machine.execGridEnd grid s
  | .teamComplete team => Sys2Proof.Machine.execTeamComplete team s
  | .groupUnpark core slot => Sys2Proof.Machine.execGroupUnpark core slot s
  | .clauseEntry core slot path => Sys2Proof.Machine.execClauseEntry core slot path s
  | .slewStepBoundary part => Sys2Proof.Machine.execSlewStepBoundary part s
  | .droopTrip unit => Sys2Proof.Machine.execDroopTrip unit s
  | .droopSkipEnd part => Sys2Proof.Machine.execDroopSkipEnd part s
  | .thermalSample quadrant temps => Sys2Proof.Machine.execThermalSample quadrant temps s
  | .pageWalk core ctx va => Sys2Proof.Machine.execPageWalk core ctx va s
  | .scrubFrame part => Sys2Proof.Machine.execScrubFrame part s
  | .scrubFrameComplete part => Sys2Proof.Machine.execScrubFrameComplete part s
  | .waitmemWake core slot path => Sys2Proof.Machine.execWaitmemWake core slot path s
  | .waitmemRecheck core slot path => Sys2Proof.Machine.execWaitmemRecheck core slot path s
  | .sleepExpiry core slot path => Sys2Proof.Machine.execSleepExpiry core slot path s
  | .barrierRelease team bar => Sys2Proof.Machine.execBarrierRelease team bar s
  | .fenceTakesEffect core slot token => Sys2Proof.Machine.execFenceTakesEffect core slot token s
  | .copyChunk core slot => Sys2Proof.Machine.execCopyChunk core slot s
  | .copyComplete core slot => Sys2Proof.Machine.execCopyComplete core slot s
  | .matrixQueueTurn core bank => Sys2Proof.Machine.execMatrixQueueTurn core bank s
  | .directionPipeEnd core slot => Sys2Proof.Machine.execDirectionPipeEnd core slot s
  | .registerAllocationRetry core => Sys2Proof.Machine.execRegisterAllocationRetry core s
  | .registerBlockGrant core slot => Sys2Proof.Machine.execRegisterBlockGrant core slot s
  | .matrixBankGrant core => Sys2Proof.Machine.execMatrixBankGrant core s
  | .breakpointMatch core slot path => Sys2Proof.Machine.execBreakpointMatch core slot path s
  | .traceWrittenUpdate ctx => Sys2Proof.Machine.execTraceWrittenUpdate ctx s
  | .sample core quarter => Sys2Proof.Machine.execSample core quarter s
  | .counterSnapshot => Sys2Proof.Machine.execCounterSnapshot s
  | .illegalInstruction code => Sys2Proof.Machine.execIllegalInstruction code s
  | .hbmChannelRetrainingComplete channel => Sys2Proof.Machine.execHbmChannelRetrainingComplete channel s
  | .lodraLaneRecalibrationComplete link lane => Sys2Proof.Machine.execLodraLaneRecalibrationComplete link lane s
  | .hostPortLaneRecalibrationComplete lane => Sys2Proof.Machine.execHostPortLaneRecalibrationComplete lane s
  | .rdmaReadResponse h data => Sys2Proof.Machine.execRdmaReadResponse h data s
  | .pfcPauseExpiry => Sys2Proof.Machine.execPfcPauseExpiry s
  | .voltageBackInRegulation domain => Sys2Proof.Machine.execVoltageBackInRegulation domain s
  | .clauseHeader f => Sys2Proof.Machine.execClauseHeader f s
  | .vadd f => Sys2Proof.Machine.execVadd f s
  | .vsub f => Sys2Proof.Machine.execVsub f s
  | .vmul f => Sys2Proof.Machine.execVmul f s
  | .vmulhS32 f => Sys2Proof.Machine.execVmulhS32 f s
  | .vmad f => Sys2Proof.Machine.execVmad f s
  | .vand f => Sys2Proof.Machine.execVand f s
  | .vor f => Sys2Proof.Machine.execVor f s
  | .vxor f => Sys2Proof.Machine.execVxor f s
  | .vnot f => Sys2Proof.Machine.execVnot f s
  | .vshl f => Sys2Proof.Machine.execVshl f s
  | .vshr f => Sys2Proof.Machine.execVshr f s
  | .vsar f => Sys2Proof.Machine.execVsar f s
  | .vminS32 f => Sys2Proof.Machine.execVminS32 f s
  | .vmaxS32 f => Sys2Proof.Machine.execVmaxS32 f s
  | .vabs f => Sys2Proof.Machine.execVabs f s
  | .vaddsS32 f => Sys2Proof.Machine.execVaddsS32 f s
  | .vsubsS32 f => Sys2Proof.Machine.execVsubsS32 f s
  | .vcmp f => Sys2Proof.Machine.execVcmp f s
  | .vsel f => Sys2Proof.Machine.execVsel f s
  | .vmov f => Sys2Proof.Machine.execVmov f s
  | .vmovMbs f => Sys2Proof.Machine.execVmovMbs f s
  | .vmovMbg f => Sys2Proof.Machine.execVmovMbg f s
  | .vli f => Sys2Proof.Machine.execVli f s
  | .vbfe f => Sys2Proof.Machine.execVbfe f s
  | .vbfi f => Sys2Proof.Machine.execVbfi f s
  | .vclz f => Sys2Proof.Machine.execVclz f s
  | .vctz f => Sys2Proof.Machine.execVctz f s
  | .vffs f => Sys2Proof.Machine.execVffs f s
  | .vpopc f => Sys2Proof.Machine.execVpopc f s
  | .vdot4S8 f => Sys2Proof.Machine.execVdot4S8 f s
  | .vaddVu f => Sys2Proof.Machine.execVaddVu f s
  | .vsubVu f => Sys2Proof.Machine.execVsubVu f s
  | .vmulVu f => Sys2Proof.Machine.execVmulVu f s
  | .vmulhS32Vu f => Sys2Proof.Machine.execVmulhS32Vu f s
  | .vmadVu f => Sys2Proof.Machine.execVmadVu f s
  | .vandVu f => Sys2Proof.Machine.execVandVu f s
  | .vorVu f => Sys2Proof.Machine.execVorVu f s
  | .vxorVu f => Sys2Proof.Machine.execVxorVu f s
  | .vshlVu f => Sys2Proof.Machine.execVshlVu f s
  | .vshrVu f => Sys2Proof.Machine.execVshrVu f s
  | .vsarVu f => Sys2Proof.Machine.execVsarVu f s
  | .vminS32Vu f => Sys2Proof.Machine.execVminS32Vu f s
  | .vmaxS32Vu f => Sys2Proof.Machine.execVmaxS32Vu f s
  | .vaddsS32Vu f => Sys2Proof.Machine.execVaddsS32Vu f s
  | .vsubsS32Vu f => Sys2Proof.Machine.execVsubsS32Vu f s
  | .vcmpVu f => Sys2Proof.Machine.execVcmpVu f s
  | .vselVu f => Sys2Proof.Machine.execVselVu f s
  | .vbfeVu f => Sys2Proof.Machine.execVbfeVu f s
  | .vbfiVu f => Sys2Proof.Machine.execVbfiVu f s
  | .vdot4S8Vu f => Sys2Proof.Machine.execVdot4S8Vu f s
  | .faddF32 f => Sys2Proof.Machine.execFaddF32 f s
  | .fsubF32 f => Sys2Proof.Machine.execFsubF32 f s
  | .fmulF32 f => Sys2Proof.Machine.execFmulF32 f s
  | .faccF32 f => Sys2Proof.Machine.execFaccF32 f s
  | .fminF32 f => Sys2Proof.Machine.execFminF32 f s
  | .fmaxF32 f => Sys2Proof.Machine.execFmaxF32 f s
  | .fneg f => Sys2Proof.Machine.execFneg f s
  | .fabs f => Sys2Proof.Machine.execFabs f s
  | .fcmp f => Sys2Proof.Machine.execFcmp f s
  | .fclass f => Sys2Proof.Machine.execFclass f s
  | .fscale f => Sys2Proof.Machine.execFscale f s
  | .frnd f => Sys2Proof.Machine.execFrnd f s
  | .fdot2F16 f => Sys2Proof.Machine.execFdot2F16 f s
  | .fdot2Bf16 f => Sys2Proof.Machine.execFdot2Bf16 f s
  | .faddF16x2 f => Sys2Proof.Machine.execFaddF16x2 f s
  | .fsubF16x2 f => Sys2Proof.Machine.execFsubF16x2 f s
  | .fmulF16x2 f => Sys2Proof.Machine.execFmulF16x2 f s
  | .faccF16x2 f => Sys2Proof.Machine.execFaccF16x2 f s
  | .faddBf16x2 f => Sys2Proof.Machine.execFaddBf16x2 f s
  | .fsubBf16x2 f => Sys2Proof.Machine.execFsubBf16x2 f s
  | .fmulBf16x2 f => Sys2Proof.Machine.execFmulBf16x2 f s
  | .faccBf16x2 f => Sys2Proof.Machine.execFaccBf16x2 f s
  | .rcp f => Sys2Proof.Machine.execRcp f s
  | .rsq f => Sys2Proof.Machine.execRsq f s
  | .sqrt f => Sys2Proof.Machine.execSqrt f s
  | .exp2 f => Sys2Proof.Machine.execExp2 f s
  | .log2 f => Sys2Proof.Machine.execLog2 f s
  | .sin f => Sys2Proof.Machine.execSin f s
  | .cos f => Sys2Proof.Machine.execCos f s
  | .tanh f => Sys2Proof.Machine.execTanh f s
  | .faddF32Vu f => Sys2Proof.Machine.execFaddF32Vu f s
  | .fsubF32Vu f => Sys2Proof.Machine.execFsubF32Vu f s
  | .fmulF32Vu f => Sys2Proof.Machine.execFmulF32Vu f s
  | .faccF32Vu f => Sys2Proof.Machine.execFaccF32Vu f s
  | .fminF32Vu f => Sys2Proof.Machine.execFminF32Vu f s
  | .fmaxF32Vu f => Sys2Proof.Machine.execFmaxF32Vu f s
  | .fcmpVu f => Sys2Proof.Machine.execFcmpVu f s
  | .fscaleVu f => Sys2Proof.Machine.execFscaleVu f s
  | .fdot2F16Vu f => Sys2Proof.Machine.execFdot2F16Vu f s
  | .fdot2Bf16Vu f => Sys2Proof.Machine.execFdot2Bf16Vu f s
  | .faddF16x2Vu f => Sys2Proof.Machine.execFaddF16x2Vu f s
  | .fsubF16x2Vu f => Sys2Proof.Machine.execFsubF16x2Vu f s
  | .fmulF16x2Vu f => Sys2Proof.Machine.execFmulF16x2Vu f s
  | .faccF16x2Vu f => Sys2Proof.Machine.execFaccF16x2Vu f s
  | .faddBf16x2Vu f => Sys2Proof.Machine.execFaddBf16x2Vu f s
  | .fsubBf16x2Vu f => Sys2Proof.Machine.execFsubBf16x2Vu f s
  | .fmulBf16x2Vu f => Sys2Proof.Machine.execFmulBf16x2Vu f s
  | .faccBf16x2Vu f => Sys2Proof.Machine.execFaccBf16x2Vu f s
  | .cvtToF32 f => Sys2Proof.Machine.execCvtToF32 f s
  | .cvtFromF32 f => Sys2Proof.Machine.execCvtFromF32 f s
  | .cvtInt f => Sys2Proof.Machine.execCvtInt f s
  | .cvtF16F8 f => Sys2Proof.Machine.execCvtF16F8 f s
  | .pack2 f => Sys2Proof.Machine.execPack2 f s
  | .pack4 f => Sys2Proof.Machine.execPack4 f s
  | .unpk f => Sys2Proof.Machine.execUnpk f s
  | .pk6 f => Sys2Proof.Machine.execPk6 f s
  | .upk6 f => Sys2Proof.Machine.execUpk6 f s
  | .cbset f => Sys2Proof.Machine.execCbset f s
  | .cbenc f => Sys2Proof.Machine.execCbenc f s
  | .shfl f => Sys2Proof.Machine.execShfl f s
  | .shflVu f => Sys2Proof.Machine.execShflVu f s
  | .vote f => Sys2Proof.Machine.execVote f s
  | .bcast f => Sys2Proof.Machine.execBcast f s
  | .lanei f => Sys2Proof.Machine.execLanei f s
  | .redu f => Sys2Proof.Machine.execRedu f s
  | .scan f => Sys2Proof.Machine.execScan f s
  | .pand f => Sys2Proof.Machine.execPand f s
  | .por f => Sys2Proof.Machine.execPor f s
  | .pxor f => Sys2Proof.Machine.execPxor f s
  | .pnot f => Sys2Proof.Machine.execPnot f s
  | .pmov f => Sys2Proof.Machine.execPmov f s
  | .vmulhZ32 f => Sys2Proof.Machine.execVmulhZ32 f s
  | .vminZ32 f => Sys2Proof.Machine.execVminZ32 f s
  | .vmaxZ32 f => Sys2Proof.Machine.execVmaxZ32 f s
  | .vaddsZ32 f => Sys2Proof.Machine.execVaddsZ32 f s
  | .vsubsZ32 f => Sys2Proof.Machine.execVsubsZ32 f s
  | .vdot4Z8 f => Sys2Proof.Machine.execVdot4Z8 f s
  | .vaddI16x2 f => Sys2Proof.Machine.execVaddI16x2 f s
  | .vsubI16x2 f => Sys2Proof.Machine.execVsubI16x2 f s
  | .vmulI16x2 f => Sys2Proof.Machine.execVmulI16x2 f s
  | .vminS16x2 f => Sys2Proof.Machine.execVminS16x2 f s
  | .vmaxS16x2 f => Sys2Proof.Machine.execVmaxS16x2 f s
  | .vminZ16x2 f => Sys2Proof.Machine.execVminZ16x2 f s
  | .vmaxZ16x2 f => Sys2Proof.Machine.execVmaxZ16x2 f s
  | .vaddsS16x2 f => Sys2Proof.Machine.execVaddsS16x2 f s
  | .vsubsS16x2 f => Sys2Proof.Machine.execVsubsS16x2 f s
  | .vaddsZ16x2 f => Sys2Proof.Machine.execVaddsZ16x2 f s
  | .vsubsZ16x2 f => Sys2Proof.Machine.execVsubsZ16x2 f s
  | .vaddI8x4 f => Sys2Proof.Machine.execVaddI8x4 f s
  | .vsubI8x4 f => Sys2Proof.Machine.execVsubI8x4 f s
  | .vmulI8x4 f => Sys2Proof.Machine.execVmulI8x4 f s
  | .vminS8x4 f => Sys2Proof.Machine.execVminS8x4 f s
  | .vmaxS8x4 f => Sys2Proof.Machine.execVmaxS8x4 f s
  | .vminZ8x4 f => Sys2Proof.Machine.execVminZ8x4 f s
  | .vmaxZ8x4 f => Sys2Proof.Machine.execVmaxZ8x4 f s
  | .vaddsS8x4 f => Sys2Proof.Machine.execVaddsS8x4 f s
  | .vsubsS8x4 f => Sys2Proof.Machine.execVsubsS8x4 f s
  | .vaddsZ8x4 f => Sys2Proof.Machine.execVaddsZ8x4 f s
  | .vsubsZ8x4 f => Sys2Proof.Machine.execVsubsZ8x4 f s
  | .vmulhZ32Vu f => Sys2Proof.Machine.execVmulhZ32Vu f s
  | .vminZ32Vu f => Sys2Proof.Machine.execVminZ32Vu f s
  | .vmaxZ32Vu f => Sys2Proof.Machine.execVmaxZ32Vu f s
  | .vaddsZ32Vu f => Sys2Proof.Machine.execVaddsZ32Vu f s
  | .vsubsZ32Vu f => Sys2Proof.Machine.execVsubsZ32Vu f s
  | .vdot4Z8Vu f => Sys2Proof.Machine.execVdot4Z8Vu f s
  | .vaddI16x2Vu f => Sys2Proof.Machine.execVaddI16x2Vu f s
  | .vsubI16x2Vu f => Sys2Proof.Machine.execVsubI16x2Vu f s
  | .vmulI16x2Vu f => Sys2Proof.Machine.execVmulI16x2Vu f s
  | .vminS16x2Vu f => Sys2Proof.Machine.execVminS16x2Vu f s
  | .vmaxS16x2Vu f => Sys2Proof.Machine.execVmaxS16x2Vu f s
  | .vminZ16x2Vu f => Sys2Proof.Machine.execVminZ16x2Vu f s
  | .vmaxZ16x2Vu f => Sys2Proof.Machine.execVmaxZ16x2Vu f s
  | .vaddsS16x2Vu f => Sys2Proof.Machine.execVaddsS16x2Vu f s
  | .vsubsS16x2Vu f => Sys2Proof.Machine.execVsubsS16x2Vu f s
  | .vaddsZ16x2Vu f => Sys2Proof.Machine.execVaddsZ16x2Vu f s
  | .vsubsZ16x2Vu f => Sys2Proof.Machine.execVsubsZ16x2Vu f s
  | .vaddI8x4Vu f => Sys2Proof.Machine.execVaddI8x4Vu f s
  | .vsubI8x4Vu f => Sys2Proof.Machine.execVsubI8x4Vu f s
  | .vmulI8x4Vu f => Sys2Proof.Machine.execVmulI8x4Vu f s
  | .vminS8x4Vu f => Sys2Proof.Machine.execVminS8x4Vu f s
  | .vmaxS8x4Vu f => Sys2Proof.Machine.execVmaxS8x4Vu f s
  | .vminZ8x4Vu f => Sys2Proof.Machine.execVminZ8x4Vu f s
  | .vmaxZ8x4Vu f => Sys2Proof.Machine.execVmaxZ8x4Vu f s
  | .vaddsS8x4Vu f => Sys2Proof.Machine.execVaddsS8x4Vu f s
  | .vsubsS8x4Vu f => Sys2Proof.Machine.execVsubsS8x4Vu f s
  | .vaddsZ8x4Vu f => Sys2Proof.Machine.execVaddsZ8x4Vu f s
  | .vsubsZ8x4Vu f => Sys2Proof.Machine.execVsubsZ8x4Vu f s
  | .faddF32Rz f => Sys2Proof.Machine.execFaddF32Rz f s
  | .fsubF32Rz f => Sys2Proof.Machine.execFsubF32Rz f s
  | .fmulF32Rz f => Sys2Proof.Machine.execFmulF32Rz f s
  | .faccF32Rz f => Sys2Proof.Machine.execFaccF32Rz f s
  | .faddF32Ru f => Sys2Proof.Machine.execFaddF32Ru f s
  | .fsubF32Ru f => Sys2Proof.Machine.execFsubF32Ru f s
  | .fmulF32Ru f => Sys2Proof.Machine.execFmulF32Ru f s
  | .faccF32Ru f => Sys2Proof.Machine.execFaccF32Ru f s
  | .faddF32Rd f => Sys2Proof.Machine.execFaddF32Rd f s
  | .fsubF32Rd f => Sys2Proof.Machine.execFsubF32Rd f s
  | .fmulF32Rd f => Sys2Proof.Machine.execFmulF32Rd f s
  | .faccF32Rd f => Sys2Proof.Machine.execFaccF32Rd f s
  | .fminF16x2 f => Sys2Proof.Machine.execFminF16x2 f s
  | .fmaxF16x2 f => Sys2Proof.Machine.execFmaxF16x2 f s
  | .fminBf16x2 f => Sys2Proof.Machine.execFminBf16x2 f s
  | .fmaxBf16x2 f => Sys2Proof.Machine.execFmaxBf16x2 f s
  | .faddF32RzVu f => Sys2Proof.Machine.execFaddF32RzVu f s
  | .fsubF32RzVu f => Sys2Proof.Machine.execFsubF32RzVu f s
  | .fmulF32RzVu f => Sys2Proof.Machine.execFmulF32RzVu f s
  | .faccF32RzVu f => Sys2Proof.Machine.execFaccF32RzVu f s
  | .faddF32RuVu f => Sys2Proof.Machine.execFaddF32RuVu f s
  | .fsubF32RuVu f => Sys2Proof.Machine.execFsubF32RuVu f s
  | .fmulF32RuVu f => Sys2Proof.Machine.execFmulF32RuVu f s
  | .faccF32RuVu f => Sys2Proof.Machine.execFaccF32RuVu f s
  | .faddF32RdVu f => Sys2Proof.Machine.execFaddF32RdVu f s
  | .fsubF32RdVu f => Sys2Proof.Machine.execFsubF32RdVu f s
  | .fmulF32RdVu f => Sys2Proof.Machine.execFmulF32RdVu f s
  | .faccF32RdVu f => Sys2Proof.Machine.execFaccF32RdVu f s
  | .fminF16x2Vu f => Sys2Proof.Machine.execFminF16x2Vu f s
  | .fmaxF16x2Vu f => Sys2Proof.Machine.execFmaxF16x2Vu f s
  | .fminBf16x2Vu f => Sys2Proof.Machine.execFminBf16x2Vu f s
  | .fmaxBf16x2Vu f => Sys2Proof.Machine.execFmaxBf16x2Vu f s
  | .vaddN f => Sys2Proof.Machine.execVaddN f s
  | .vsubN f => Sys2Proof.Machine.execVsubN f s
  | .vmulN f => Sys2Proof.Machine.execVmulN f s
  | .vandN f => Sys2Proof.Machine.execVandN f s
  | .vorN f => Sys2Proof.Machine.execVorN f s
  | .vxorN f => Sys2Proof.Machine.execVxorN f s
  | .vshlN f => Sys2Proof.Machine.execVshlN f s
  | .vshrN f => Sys2Proof.Machine.execVshrN f s
  | .vsarN f => Sys2Proof.Machine.execVsarN f s
  | .vmovN f => Sys2Proof.Machine.execVmovN f s
  | .vminS32N f => Sys2Proof.Machine.execVminS32N f s
  | .vmaxS32N f => Sys2Proof.Machine.execVmaxS32N f s
  | .faddF32N f => Sys2Proof.Machine.execFaddF32N f s
  | .fsubF32N f => Sys2Proof.Machine.execFsubF32N f s
  | .fmulF32N f => Sys2Proof.Machine.execFmulF32N f s
  | .fmaxF32N f => Sys2Proof.Machine.execFmaxF32N f s
  | .uadd f => Sys2Proof.Machine.execUadd f s
  | .usub f => Sys2Proof.Machine.execUsub f s
  | .umul f => Sys2Proof.Machine.execUmul f s
  | .umulh f => Sys2Proof.Machine.execUmulh f s
  | .umad f => Sys2Proof.Machine.execUmad f s
  | .uand f => Sys2Proof.Machine.execUand f s
  | .uor f => Sys2Proof.Machine.execUor f s
  | .uxor f => Sys2Proof.Machine.execUxor f s
  | .ushl f => Sys2Proof.Machine.execUshl f s
  | .ushr f => Sys2Proof.Machine.execUshr f s
  | .usar f => Sys2Proof.Machine.execUsar f s
  | .umin f => Sys2Proof.Machine.execUmin f s
  | .umax f => Sys2Proof.Machine.execUmax f s
  | .ucmp f => Sys2Proof.Machine.execUcmp f s
  | .usel f => Sys2Proof.Machine.execUsel f s
  | .umov f => Sys2Proof.Machine.execUmov f s
  | .uclz f => Sys2Proof.Machine.execUclz f s
  | .upopc f => Sys2Proof.Machine.execUpopc f s
  | .ubfe f => Sys2Proof.Machine.execUbfe f s
  | .uld f => Sys2Proof.Machine.execUld f s
  | .ust f => Sys2Proof.Machine.execUst f s
  | .uli f => Sys2Proof.Machine.execUli f s
  | .ulih f => Sys2Proof.Machine.execUlih f s
  | .uaddi f => Sys2Proof.Machine.execUaddi f s
  | .urds f => Sys2Proof.Machine.execUrds f s
  | .uwrs f => Sys2Proof.Machine.execUwrs f s
  | .racq => Sys2Proof.Machine.execRacq s
  | .rrel => Sys2Proof.Machine.execRrel s
  | .rdpm f => Sys2Proof.Machine.execRdpm f s
  | .bra f => Sys2Proof.Machine.execBra f s
  | .brak f => Sys2Proof.Machine.execBrak f s
  | .brx f => Sys2Proof.Machine.execBrx f s
  | .join => Sys2Proof.Machine.execJoin s
  | .call f => Sys2Proof.Machine.execCall f s
  | .jmpi f => Sys2Proof.Machine.execJmpi f s
  | .ret f => Sys2Proof.Machine.execRet f s
  | .exit f => Sys2Proof.Machine.execExit f s
  | .yieldd f => Sys2Proof.Machine.execYieldd f s
  | .waitmem f => Sys2Proof.Machine.execWaitmem f s
  | .sleep f => Sys2Proof.Machine.execSleep f s
  | .bar f => Sys2Proof.Machine.execBar f s
  | .bara f => Sys2Proof.Machine.execBara f s
  | .barw f => Sys2Proof.Machine.execBarw f s
  | .nop => Sys2Proof.Machine.execNop s
  | .trap f => Sys2Proof.Machine.execTrap f s
  | .bkpt => Sys2Proof.Machine.execBkpt s
  | .ldgReg f => Sys2Proof.Machine.execLdgReg f s
  | .ldgSxReg f => Sys2Proof.Machine.execLdgSxReg f s
  | .stgReg f => Sys2Proof.Machine.execStgReg f s
  | .ldgImm f => Sys2Proof.Machine.execLdgImm f s
  | .ldgSxImm f => Sys2Proof.Machine.execLdgSxImm f s
  | .stgImm f => Sys2Proof.Machine.execStgImm f s
  | .ldsp f => Sys2Proof.Machine.execLdsp f s
  | .ldspSx f => Sys2Proof.Machine.execLdspSx f s
  | .stsp f => Sys2Proof.Machine.execStsp f s
  | .atom f => Sys2Proof.Machine.execAtom f s
  | .red f => Sys2Proof.Machine.execRed f s
  | .atsp f => Sys2Proof.Machine.execAtsp f s
  | .pref f => Sys2Proof.Machine.execPref f s
  | .fence f => Sys2Proof.Machine.execFence f s
  | .fwait f => Sys2Proof.Machine.execFwait f s
  | .waitc f => Sys2Proof.Machine.execWaitc f s
  | .spmap f => Sys2Proof.Machine.execSpmap f s
  | .spfill f => Sys2Proof.Machine.execSpfill f s
  | .spwb f => Sys2Proof.Machine.execSpwb f s
  | .spinv f => Sys2Proof.Machine.execSpinv f s
  | .cpy f => Sys2Proof.Machine.execCpy f s
  | .chain f => Sys2Proof.Machine.execChain f s
  | .mbsetSend f => Sys2Proof.Machine.execMbsetSend f s
  | .mbsetRecv f => Sys2Proof.Machine.execMbsetRecv f s
  | .mbsetRoute f => Sys2Proof.Machine.execMbsetRoute f s
  | .mbsetLocal f => Sys2Proof.Machine.execMbsetLocal f s
  | .mbpoll f => Sys2Proof.Machine.execMbpoll f s
  | .coll f => Sys2Proof.Machine.execColl f s
  | .afor f => Sys2Proof.Machine.execAfor f s
  | .anext f => Sys2Proof.Machine.execAnext f s
  | .aldq f => Sys2Proof.Machine.execAldq f s
  | .astq f => Sys2Proof.Machine.execAstq f s
  | .aset f => Sys2Proof.Machine.execAset f s
  | .ainc f => Sys2Proof.Machine.execAinc f s
  | .asig f => Sys2Proof.Machine.execAsig f s
  | .ahalt => Sys2Proof.Machine.execAhalt s
  | .mbank => Sys2Proof.Machine.execMbank s
  | .mfree => Sys2Proof.Machine.execMfree s
  | .mzero f => Sys2Proof.Machine.execMzero f s
  | .mld f => Sys2Proof.Machine.execMld f s
  | .mst f => Sys2Proof.Machine.execMst f s
  | .mmask f => Sys2Proof.Machine.execMmask f s
  | .mma f => Sys2Proof.Machine.execMma f s
  | .mml f => Sys2Proof.Machine.execMml f s
  | .msca f => Sys2Proof.Machine.execMsca f s
  | .mcvt f => Sys2Proof.Machine.execMcvt f s
  | .dld f => Sys2Proof.Machine.execDld f s
  | .dst f => Sys2Proof.Machine.execDst f s
  | .dfromv f => Sys2Proof.Machine.execDfromv f s
  | .dtov f => Sys2Proof.Machine.execDtov f s
  | .dmov f => Sys2Proof.Machine.execDmov f s
  | .dadd f => Sys2Proof.Machine.execDadd f s
  | .dsub f => Sys2Proof.Machine.execDsub f s
  | .dmix f => Sys2Proof.Machine.execDmix f s
  | .dhad f => Sys2Proof.Machine.execDhad f s
  | .dscl f => Sys2Proof.Machine.execDscl f s
  | .dsetn f => Sys2Proof.Machine.execDsetn f s
  | .dnrm f => Sys2Proof.Machine.execDnrm f s
  | .ddot f => Sys2Proof.Machine.execDdot f s
  | .ddotf f => Sys2Proof.Machine.execDdotf f s
  | .dproj f => Sys2Proof.Machine.execDproj f s
  | .drefl f => Sys2Proof.Machine.execDrefl f s
  | .dtest f => Sys2Proof.Machine.execDtest f s

end Sys2Proof.Machine
end

