-- ==== Sys2Proof/Machine/Fetch.lean ====
section
/-! DEFINITION. Fetching the parcel of the path, or of the access thread, that issues (R165, R260, R262, R275, R357). -/

namespace Sys2Proof.Machine

/-- Where the thread that issues stands. -/
def Group.fetchPc (g : Group) (c : Cur) : W64 := if c.access then (g.acc.getD {}).pc else (g.path c.path).pc

/-- Whether a byte lies in a poisoned word of its home slice (R158). -/
def State.poisonedAt (s : State) (ctx a : Nat) : Bool :=
  match s.translate ctx a with
  | some pa => (s.msys.homePoison (s.ctxSg ctx) (pa / 128)).getLsbD (pa % 128 / 8)
  | none => false

/-- Whether a byte's home slice is out of service (R24). -/
def State.lostAt (s : State) (ctx a : Nat) : Bool := (s.translate ctx a).any s.lost

/-- The fault of fetching n bytes, if there is one: class and detail (R39, R158, R165, R167). -/
def State.fetchFault (s : State) (g : Group) (access : Bool) (a n : Nat) : Option (Nat × Nat) :=
  if !s.mayFetch (s.grid g.grid) access a n then some (3, 0)
  else if (s.translate g.ctx a).isNone || (s.translate g.ctx (a + n - 1)).isNone then some (3, 1)
  else if s.lostAt g.ctx a || s.lostAt g.ctx (a + n - 1) then some (5, 0)
  else if s.poisonedAt g.ctx a || s.poisonedAt g.ctx (a + n - 1) then some (6, 0)
  else none

/-- The bytes of the parcel at an address: bit 0 of its first halfword gives its length (R260). -/
def State.fetch (s : State) (g : Group) (access : Bool) (a : Nat) : Except (Nat × Nat) Bytes :=
  match s.fetchFault g access a 2 with
  | some e => .error e
  | none =>
    let b := bytesLE 2 (s.virtRead g.ctx a 2)
    if (leNat b) % 2 = 0 then .ok b
    else match s.fetchFault g access a 4 with
      | some e => .error e
      | none => .ok (bytesLE 4 (s.virtRead g.ctx a 4))

/-- A fetch that fails is a fault at the parcel; a late fault that the path owes comes first (R139, R337, R359). -/
def State.fetchFails (s : State) (c : Cur) (g : Group) (cls detail : Nat) : State :=
  let s := { s with cur := none }
  if c.access then s.accessFault c.core c.slot (g.fetchPc c) cls (g.fetchPc c) detail
  else if (g.lateOf c.path).isSome then s.raiseLate c.core c.slot c.path
  else s.takeFault c.core c.slot c.path (g.fetchPc c) cls (g.fetchPc c) detail

/-- The path that issues fetches its parcel, and the instruction runs; one that is no instruction traps (R275). -/
noncomputable def State.issueNext (s : State) (c : Cur) : Host.Outcome State Fault Refusal :=
  match s.group? c.core c.slot with
  | none => .next { s with cur := none }
  | some g =>
    match s.fetch g c.access (g.fetchPc c).toNat with
    | .error (cls, detail) => .next (s.fetchFails c g cls detail)
    | .ok bs =>
      match decodeParcel bs with
      | .ok (i, _) => exec i s
      | .error (.illegal code) => exec (.illegalInstruction code) s
      | .error .truncated => exec (.illegalInstruction 2) s

end Sys2Proof.Machine
end

