-- ==== Sys2Proof/Machine/Policy.lean ====
section
/-! DEFINITION. What happens next when no path is issuing and nothing is scheduled: the device's own steps in one
order that the spec allows, an issue of every quarter that can, and the passing of 1 ns (R7, R14, R126, R143, R249 to
R252). -/

namespace Sys2Proof.Machine

/-! ## The device's own steps -/

/-- The step of a packet where it stands (R32, R45, R157). -/
def pktEvent (id : Nat) (p : Pkt) : List Instr :=
  match p.stage with
  | .xlat => [.pageWalk p.core p.ctx (BitVec.ofNat 64 p.va)]
  | .net _ => [.flit id]
  | .home =>
    match p.op with
    | 0 => [.readLine id]
    | 1 => [.readLineUncached id]
    | 2 => [.writeLine id]
    | 3 => [.maskedWrite id]
    | 4 => [.atomicWithReturn id]
    | 5 => [.reductionNoReturn id]
    | 6 => [.prefetchToL2 id]
    | 7 => [.invalidateLine id]
    | 8 => [.zeroLine id]
    | _ => []
  | .core =>
    match p.op with
    | 0x10 => [.readData id]
    | 0x11 => [.writeAcknowledgement id]
    | 0x12 => [.atomicResult id]
    | 0x13 => [.accessFault id]
    | 0x20 => [.mailboxMessage id]
    | _ => [.mailboxResponse id]
  | .burst => []
  | .dropped => [.requestTimeout id]

/-- The reference to an instance. -/
def Srv.ref (v : Srv) : SrvRef := { cls := v.cls, inst := v.inst, ctx := v.ctx, route := v.route }

/-- Steps of a server instance (R99). -/
def srvEvents (v : Srv) : List Instr :=
  match v.st with
  | .idle => [.serverWake v.ref]
  | .ready => [.unitEnd v.ref]
  | .run => [.unitEnd v.ref]
  | .capped => [.cappedRelease v.ref]

/-- Steps of a path that waits. -/
def pathEvents (core slot i : Nat) (p : Path) : List Instr :=
  if !p.valid then []
  else (if p.entry then [.clauseEntry core slot i] else []) ++
    match p.wait with
    | .mem .. => [.waitmemWake core slot i, .waitmemRecheck core slot i]
    | .sleep _ => [.sleepExpiry core slot i]
    | _ => []

/-- Steps of a group on a core. -/
def groupEvents (core slot : Nat) (g : Group) : List Instr :=
  [.lateFault core slot] ++ (if g.dpipe.isEmpty then [] else [.directionPipeEnd core slot]) ++
    ((g.tokens.filter fun (_, t) => t.out).map fun (k, _) => .fenceTakesEffect core slot k) ++
    [.groupUnpark core slot, .registerBlockGrant core slot] ++
    ((g.paths.mapIdx fun i p => pathEvents core slot i p).flatten) ++
    ((g.mbs.filter fun (_, b) => b.retry.isSome).map fun (k, _) => .mailboxRetry core slot k) ++ [.cooperativeStop core slot]

/-- Steps of a core. -/
def coreEvents (n : Nat) (c : Core) : List Instr :=
  (c.groups.flatMap fun (sl, g) => groupEvents n sl g) ++
    (c.copies.flatMap fun (k, _) => [.copyComplete n k, .copyChunk n k]) ++ [.arbitration 2 n, .arbitration 1 n] ++
    ((c.banks.filter fun (_, b) => !b.q.isEmpty).map fun (h, _) => .matrixQueueTurn n h) ++
    [.matrixBankGrant n, .registerAllocationRetry n]

/-- Steps of a team (R44, R131, R292). -/
def teamEvents (n : Nat) (t : Team) : List Instr :=
  (t.bars.map fun (b, _) => .barrierRelease n b) ++ [.teamComplete n] ++ (if t.stop.isSome then [.teamOffCore n] else [])

/-- The step of a command (R85, R88): its start, its end, or its timeout. -/
def cmdEvents (id : Nat) (c : Cmd) : List Instr :=
  match c.opc with
  | 1 => if c.grid.isSome then [.launchStart id] else [.launch id]
  | 2 => [.copyh id]
  | 3 => [.lease id]
  | 4 => [.release id]
  | 5 => [.signal id]
  | 6 => if c.st = .waiting then [.waitsemTimeout id] else [.waitsem id]
  | 7 => if c.st = .started then [.edgeDestroyComplete id] else [.edge id]
  | 8 => if c.st = .started then [.routeMatchTimeout id] else [.route id none]
  | 9 => [.recall id]
  | 10 => [.readmeter id]
  | _ => []

/-- Channels with bursts that wait, and the steps that serve them (R95). -/
def State.burstEvents (s : State) : List Instr :=
  s.msys.bursts.flatMap fun b => [.serverWake { cls := 3, inst := b.chan, ctx := b.ctx, route := 0 }, .arbitration 3 b.chan]

/-- Links with packets or credits that wait. -/
def State.linkEvents (s : State) : List Instr := s.lodra.links.flatMap fun (k, l) =>
  (if l.wait.isEmpty ∧ l.back.isEmpty ∧ l.txPart.isEmpty then [] else [.arbitration 4 k]) ++
    match l.retrain with
    | some d => if d ≤ s.now then [.linkRetrainComplete k (BitVec.ofNat 8 (s.choose 256))] else []
    | none => []

/-- Partitions that are valid. -/
def State.validParts (s : State) : List Nat := (List.range 48).filter s.partValid

/-- Steps of partitions, queues and clusters. -/
def State.schedEvents (s : State) : List Instr :=
  (s.sched.rings.flatMap fun (q, _) => [.resetRingComplete q, .commandTake q]) ++
    (s.sched.cmds.flatMap fun (id, c) => cmdEvents id c) ++
    (s.msys.leases.flatMap fun (k, l) => if l.makeCmd.isSome then [.leaseLive (k / 256) (k % 256)] else []) ++
    (s.sched.preempts.map fun (k, _) => .cooperativeWindowExpiry k) ++
    (s.sched.clocks.map fun (q, _) => .ageLimitReached q) ++
    ((List.range 128).filter fun c => (s.clOwner c).isSome).map .lendDelayExpiry ++
    s.sched.round.map .distributorRound ++
    (s.validParts.flatMap fun n => [.scrubFrameComplete n, .scrubFrame n, .droopSkipEnd n, .slewStepBoundary n])

/-- Whether a repeated step of a pending CONFIG may be tried again. -/
def retried : Instr → Bool
  | .contextDestroy _ => true
  | .partitionTableChange _ => true
  | .tinv _ => true
  | _ => false

/-- Timers of routes, collectives, the host port and bring-up, and steps that a CONFIG still waits for. -/
def State.slowEvents (s : State) : List Instr :=
  (s.lodra.rx.map fun (k, _) => .ackTimer k) ++ (s.lodra.tx.map fun (k, _) => .flowTimeout k) ++
    (s.lodra.colls.map fun (k, c) => if c.st = .wait then .hoistTimeout k else .flowTimeout k) ++
    ((s.lodra.colls.filter fun (_, c) => c.xfer.isSome).map fun (k, _) => .collectiveComplete k []) ++
    (((List.range 1024).filter fun i => s.rteValid i && s.rteDrain i).map .routeDrainComplete) ++
    (s.host.qps.map fun (k, _) => .retransmissionTimeout k) ++ (if s.host.waiting.isEmpty then [] else [.pfcPauseExpiry]) ++
    (s.host.replies.flatMap fun (_, l) => l.filter retried) ++
    (match s.boot.remap with | some c => [.spareRemap false c] | none => []) ++
    (match s.boot.hbmHeld with | some (c, d) => if d ≤ s.now then [.hbmChannelRetrainingComplete c] else [] | none => []) ++
    (match s.boot.hostLane with | some (k, d) => if d ≤ s.now then [.hostPortLaneRecalibrationComplete k] else [] | none => []) ++
    [.bringupStateTimeout, .counterSnapshot]

/-- Contexts that trace or have records that wait (R246 to R248). -/
def State.traceEvents (s : State) : List Instr :=
  ((List.range 256).filter fun n => s.tracing n || s.cores.any fun (_, c) => c.trace.any fun r => r.ctx == n).map .traceWrittenUpdate

/-- Quarters on which a sample is due (R249). -/
def State.sampleEvents (s : State) : List Instr :=
  s.cores.flatMap fun (n, c) => (List.range 4).filterMap fun q =>
    if c.groups.any fun (_, g) => g.quarter == q && s.sampleDue n q g.ctx then some (.sample n q) else none

/-- Every step of the device's own that could be due, in the model's order. -/
def State.deviceSteps (s : State) : List Instr :=
  (s.cores.flatMap fun (n, c) => coreEvents n c) ++ (s.sched.teams.flatMap fun (n, t) => teamEvents n t) ++
    (s.sched.grids.map fun (n, _) => .gridEnd n) ++ (s.pkts.flatMap fun (n, p) => pktEvent n p) ++ s.burstEvents ++
    s.srvs.flatMap srvEvents ++ s.linkEvents ++ s.schedEvents ++ s.slowEvents ++ s.traceEvents

/-- A step is due if taking it changes something. -/
def State.due (s : State) (i : Instr) : Bool :=
  match exec i s with
  | .next t => decide (t ≠ s)
  | _ => false

/-- The device's own step that comes next, if one is due. -/
def State.nextEvent (s : State) : Option Instr := s.deviceSteps.find? s.due

/-! ## Issue and time -/

/-- A ready path enters the clause at whose header it stands, which takes no issue slot (R262), or the parked pool, if its next
instruction could not issue (R198), for want of a current reservation too. -/
noncomputable def State.settlePath (s : State) (core slot i : Nat) : Nat → State
  | 0 => s
  | n + 1 =>
    match s.group? core slot with
    | none => s
    | some g =>
      let p := g.path i
      if !(p.ready && g.readyPath) ∨ (p.left ≠ 0 ∧ (s.breakAt g p).isSome) then s
      else match ({ s with cur := some { core, slot, path := i } } : State).issueNext { core, slot, path := i } with
      | .next t =>
        match (t.group? core slot).map fun h => h.path i with
        | some q =>
          if q.park.isSome then { t with cur := none }
          else if p.left = 0 ∧ q.valid ∧ q.left ≠ 0 ∧ !q.hndl then ({ t with cur := none } : State).settlePath core slot i n
          else s
        | none => s
      | _ => s

/-- Every path that could not issue its next instruction is parked. -/
noncomputable def State.settlePaths (s : State) : State :=
  s.cores.foldl (fun s (n, c) => c.groups.foldl (fun s (sl, _) => (List.range 8).foldl (fun s i => s.settlePath n sl i 2) s) s) s

/-- Whether a group is eligible (R250). -/
def State.eligible (s : State) (core : Nat) (g : Group) : Bool :=
  g.readyPath && s.standing core g.quarter &&
    match s.srv? 0 (4 * core + g.quarter) g.ctx 0 with
    | some v => v.st == .ready
    | none => false

/-- The oldest group of a list that is not debug-stopped throughout (R250). -/
def oldestRunning (gs : List Group) : Option Group :=
  leastBy (fun g => g.placed * 64 + g.num) (gs.filter fun g => g.paths.any fun p => p.valid && !p.dstop)

/-- The histogram and stall counters of a quarter over n cycles (R250 to R252). -/
def State.countQuarter (s : State) (core n q : Nat) : State :=
  let gs := ((s.core core).groups.map Prod.snd).filter fun g => g.quarter == q && !g.done
  let x := 4 * core + q
  let add (s : State) (r : RegName) : State := s.setReg r (s.reg r + BitVec.ofNat 64 n)
  let e := (gs.filter fun g => s.eligible core g).length
  let t := add s (.hist x (min 16 e))
  let t := if e ≠ 0 then t else
    match (oldestRunning gs).bind fun g => s.stallOf core g with
    | some r => add t (.reason x r)
    | none => t
  ((gs.map Group.ctx).eraseDups).foldl (fun t ctx =>
    let mine := gs.filter fun g => g.ctx == ctx
    if mine.any fun g => s.eligible core g then t
    else match (oldestRunning mine).bind fun g => s.stallOf core g with
      | some r => t.own core ctx (4 + r) n
      | none => t) t

/-- The cycles since each context's last sample on the quarters of a core (R249). -/
def State.countSamples (s : State) (core n : Nat) : State :=
  let keys := ((s.core core).groups.map fun (_, g) => (g.quarter, g.ctx)).eraseDups
  let on := keys.filter fun (_, ctx) => s.rfld (.dbgcfg ctx) 8 5 != 0
  let lo := core * 4 * 256
  let old := s.mon.sampleFrom
  let rest := old.filter fun (k, _) => !(decide (lo ≤ k) && decide (k < lo + 1024))
  let m := on.foldl (fun (m : SMap Nat) (q, ctx) => let k := sampleKey core q ctx; m.put k (SMap.get 0 old k + n)) rest
  { s with mon := { s.mon with sampleFrom := m } }

/-- The coming cycle of a partition's clock, in its quarters' counters (R249 to R252). -/
def State.countPart (s : State) (part : Nat) : State :=
  (s.partCores part).foldl (fun s c => ((List.range 4).foldl (fun s q => s.countQuarter c 1 q) s).countSamples c 1) s

/-- A cycle of every partition that has one to come in this ns: it is counted and sampled as it begins, every quarter that has
a path to issue and every access thread that can issues once, and the cycle ends. With none to come, 1 ns passes. -/
noncomputable def State.startRound (s : State) : State :=
  let parts := if s.running then s.validParts.filter fun n => 0 < (s.slew.get {} n).todo else []
  if parts.isEmpty then { s with turns := [.tick] }
  else
    let s := s.settlePaths
    let on := parts.filter fun n => !(s.slew.get {} n).skips
    let s := on.foldl State.countPart s
    let issues := (s.cores.filter fun (n, _) => on.any fun k => s.partHasUnit k (unitOfCore n)).flatMap fun (n, c) =>
      (((List.range 4).filter fun q => (s.issueChoice n q).isSome).map fun q => Turn.ev (.arbitration 0 (4 * n + q))) ++
        (c.groups.filter fun (sl, g) => s.accReady n sl g).map fun (sl, _) => Turn.access n sl
    { s with turns := s.sampleEvents.map .ev ++ issues ++ parts.map .clock }

/-- A cycle of a partition's clock ends: its step counter, and the fillers that ran in it (R142, R143). -/
def State.endCycle (s : State) (part : Nat) : State :=
  let y := (s.slew.get {} part).cycle
  ({ s with slew := s.slew.put part { y with fill := 0 } } : State).satFld (.pslcnt part) 0 32 y.fill

/-- The cycles of a partition's clock that begin in a new ns. -/
def State.clockPart (s : State) (part : Nat) : State :=
  { s with slew := s.slew.put part ((s.slew.get {} part).advance (s.keff part) s.boot.ppm) }

/-- The timer of a collective in WAIT runs while its team is resident (R73). -/
def State.clockColl (s : State) (c : Coll) : Coll :=
  if c.st = .wait ∧ (s.team? c.team).any fun t => t.core.isSome then { c with timer := c.timer + 1 } else c

/-- The postmark advances by 1 ns (R14). -/
def State.tick (s : State) : State :=
  let s := { s with now := s.now + 1 }
  let s := if s.running then s.validParts.foldl State.clockPart s else s
  let s := { s with lodra := { s.lodra with colls := s.lodra.colls.map fun (k, c) => (k, s.clockColl c) } }
  (if s.running then s.trackIdle else s).endUpdate

end Sys2Proof.Machine
end

