-- ==== Sys2Proof/Machine/Step.lean ====
section
/-! DEFINITION. One step of the machine, and the state whose next step runs a given instruction. -/

namespace Sys2Proof.Machine

/-- What happens when no path is issuing: the head of what is scheduled, or else the device's own next step. -/
noncomputable def State.turn (s : State) : Host.Outcome State Fault Refusal :=
  match s.turns with
  | .ev i :: rest => exec i { s with turns := rest }
  | .access core slot :: rest => .next { s with turns := rest, cur := some { core, slot, path := 0, access := true } }
  | .upset u :: rest => .next (({ s with turns := rest } : State).upset u)
  | .farUnbind route :: rest => .next (({ s with turns := rest } : State).farUnbind route)
  | .walk unit :: rest => .next (({ s with turns := rest } : State).walkGoes unit)
  | .image op team :: rest => .next (({ s with turns := rest } : State).imageGoes op team)
  | .spad op :: rest => .next (({ s with turns := rest } : State).spadGoes op)
  | .port qpn :: rest => .next (({ s with turns := rest } : State).portGoes qpn)
  | .setCak m key :: rest => .next (({ s with turns := rest } : State).setCak m key)
  | .clock part :: rest => .next (({ s with turns := rest } : State).endCycle part)
  | .tick :: rest => .next ({ s with turns := rest } : State).tick
  | [] =>
    match s.nextEvent with
    | some i => exec i s
    | none => .next s.startRound

/-- One step: the instruction of the path that is issuing, or what happens next. -/
noncomputable def step (s : State) : Host.Outcome State Fault Refusal :=
  match s.cur with
  | some c => s.issueNext c
  | none => s.turn

/-! ## Placing one instruction -/

/-- The address at which `withFetchWord` puts the instruction, and its frame. -/
def placedAt : Nat := 0x1000
def placedFrame : Nat := 0x2000

/-- The root of its context's shadow table, in the management memory of channel 0, with a table of each level behind it (R154, R166). -/
def placedRoot : Nat := 0x1F0000000

/-- The parcels that the clause has left: none before a header, two where the S bit takes a mask word with it (R262,
R265). -/
def placedLeft (w : Nat) : Nat :=
  let major := w / 2 % 32
  let hasS := major < 8 ∨ (18 ≤ major ∧ major ≤ 24) ∨ (27 ≤ major ∧ major ≤ 29)
  if w % 2 = 1 ∧ major = 31 then 0 else if w % 2 = 1 ∧ hasS ∧ w / 2 ^ 31 % 2 = 1 then 2 else 1

/-- The grid whose one team runs the placed instruction: lease slot 0 holds its code. -/
def placedGrid : Grid :=
  { desc := { entry := BitVec.ofNat 64 placedAt, aentry := BitVec.ofNat 64 placedAt, lright := [3] }, leases := [0], next := 1, live := 1 }

/-- Its one group: a path with every lane active, mid-clause at the instruction, and an access thread there. -/
def placedGroup (w : Nat) : Group :=
  let p : Path := { valid := true, mask := fullMask 16, pc := BitVec.ofNat 64 placedAt, left := placedLeft w }
  let a : Acc := { pc := BitVec.ofNat 64 placedAt, left := placedLeft w }
  { team := 1, grid := 1, paths := p :: List.replicate 7 {}, acc := some a }

/-- The state with an instruction stored where the next step fetches it: the device is ready, and context 0 has one
team of one group on core 0 of partition 0, whose path (or access thread, for the access slice) is issuing. -/
def State.withFetchWord (s : State) (_nbits w : Nat) : State :=
  let s := (((s.setRfld .bstat 0 3 4).setReg (.pgeo 0) 1).setReg (.ctxcfg 0) 1).setReg (.troot 0) (BitVec.ofNat 64 (placedRoot + 1))
  let lease : Lease := { st := 2, base := placedAt, len := 4096, rights := 3, frames := [placedFrame], grids := [1] }
  let table (k : Nat) : Nat := placedRoot + 65536 + 4096 * k
  let entries := [(entryPa placedRoot 3 placedAt, table 0 + 1), (entryPa (table 0) 2 placedAt, table 1 + 1),
    (entryPa (table 1) 1 placedAt, table 2 + 1), (entryPa (table 2) 0 placedAt, 1 + 3 * 2 + 8 + placedFrame)]
  let held : List Resv := [{ unit := .quarter, core := 0, ctx := 0, size := 1 }, { unit := .vector, core := 0, ctx := 0, size := 5 }]
  { s with
    cores := s.cores.put 0 { groups := [(0, placedGroup w)], slots := [(0, { ctx := 0, salt := 0 })] }
    sched := { s.sched with
      grids := s.sched.grids.put 1 placedGrid
      teams := s.sched.teams.put 1 { grid := 1, ctx := 0, idx := 0, core := some 0 } }
    msys := { s.msys with
      cells := writeBytes (entries.foldl (fun m (a, e) => writeBytes m a (bytesLE 8 e)) s.msys.cells) placedFrame (bytesLE 8 (w % 2 ^ 32))
      l2 := s.msys.l2.filter fun (k, _) => l2LineOf k ≠ placedFrame / 128
      poison := s.msys.poison.filter fun a => a / 16 ≠ placedFrame / 128
      tables := s.msys.tables ++ [table 0, table 1, table 2]
      leases := s.msys.leases.put (leaseKey 0 0) lease }
    slew := s.slew.put 0 { held }
    cur := some { core := 0, slot := 0, path := 0, access := w % 2 = 1 ∧ w / 2 % 32 = 25 } }

end Sys2Proof.Machine
end

