-- ==== Sys2Proof/Safety.lean ====
section
/-! DEFINITION. The vocabulary of the claims: when a step goes on, when a path issues an instruction normally,
and what an issue that retires leaves as it was. -/

namespace Sys2Proof.Machine

/-- A state from which the next step goes on. -/
def Safe (s : State) : Prop := ∃ t, step s = .next t

/-- The memory of the device stands in its canonical form. -/
def State.memoryOk (s : State) : Prop := Memory.wf s.msys.cells = true

/-- Everything the instruction of a path reads as it issues. -/
def State.issuing (s : State) (c : Cur) (g : Group) : IssueCtx :=
  { s := { s with cur := none }, c, g, p := g.path c.path, gr := ({ s with cur := none } : State).grid g.grid }

/-- The path `c` of group `g` issues an instruction that uses the port as `inf` says: its group stands, it owes
no late fault (R337), its clause holds the parcel (R262), its watchdog does not run out (R134), and the quarter
holds the current reservation of a 4-beat instruction (R141). -/
structure Issues (s : State) (c : Cur) (g : Group) (inf : Info) : Prop where
  cur : s.cur = some c
  execute : c.access = false
  group : s.group? c.core c.slot = some g
  path : c.path < 8
  late : g.lateOf c.path = none
  clause : (s.issuing c g).structureError inf = false
  watchdog : ((s.grid g.grid).desc.wdog && !inf.yieldd && decide (g.watchdog ≤ 1)) = false
  current : inf.draws = true → ({ s with cur := none } : State).vectorResv c.core g.quarter = true

/-- Parcels and bytes that the issue takes its path past (R265). -/
def Info.parcels (inf : Info) : Nat := if inf.sp then 2 else 1
def Info.bytes (inf : Info) : Nat := inf.size + if inf.sp then 4 else 0

/-- A group after an issue, but for its paths: `h` with one more issue counted (R126, R134, R252). -/
def Group.issuedAs (h : Group) (wdog : Bool) (safe : Option W32) (k : Group) : Prop :=
  k = { h with issued := min (2 ^ 32 - 1) (h.issued + 1), watchdog := if wdog then h.watchdog - 1 else h.watchdog
               atSafe := safe, paths := k.paths }

/-- Paths of `k` are those of `h`, the path `n` moved by `f`, but for run counts (R127), the breakpoint just passed (R255) and the
count of instructions retired. -/
def Group.pathsAs (h : Group) (n : Nat) (f : Path → Path) (k : Group) : Prop :=
  ∀ i, i < 8 → ∃ r b m, k.path i = { (if i = n then f (h.path i) else h.path i) with run := r, bpSkip := b, done := m }

/-- The live-mask word that a safe point carries (R130, R265). -/
def State.safeWord (s : State) (c : Cur) (g : Group) (inf : Info) : Option W32 :=
  if inf.sp then some (s.issuing c g).maskWord else none

/-- What counting an issue from state `s` leaves of its effect `e`: the group changes only in its counts and its
paths, the issuing path as `f` says; every other group, core, register and unit is as in `e`, but for the ISSUE
instance and the meters that are charged, the own-context counters, and the quarter's current reservations. -/
structure Counted (s e t : State) (c : Cur) (g : Group) (inf : Info) (f : Path → Path) (safe : Option W32) : Prop where
  group : ∃ h k, e.group? c.core c.slot = some h ∧ t.group? c.core c.slot = some k ∧
    h.issuedAs ((s.grid g.grid).desc.wdog && !inf.yieldd) safe k ∧ h.pathsAs c.path f k
  groups : ∀ core slot, (core, slot) ≠ (c.core, c.slot) → t.group? core slot = e.group? core slot
  cores : ∀ n, t.core n = { e.core n with groups := (t.core n).groups, slots := (t.core n).slots }
  slots : (t.core c.core).slots.map (fun x => (x.1, x.2.ctx, x.2.salt)) = (e.core c.core).slots.map fun x => (x.1, x.2.ctx, x.2.salt)
  others : ∀ n, n ≠ c.core → t.core n = e.core n
  rest : t = { e with regs := t.regs, cores := t.cores, srvs := t.srvs, slew := t.slew }
  regs : ∀ r : RegName, (∀ m, r.addr ≠ (RegName.fmeter g.ctx m).addr) → t.reg r = e.reg r
  srvs : ∀ cls inst ctx route, (cls, inst, ctx, route) ≠ (0, 4 * c.core + g.quarter, g.ctx, 0) →
    t.srv? cls inst ctx route = e.srv? cls inst ctx route
  slew : inf.draws = false → t.slew = e.slew

/-- The issue retires with effect `e`: its path goes on at the next parcel (R262, R265). -/
def Retired (s e t : State) (c : Cur) (g : Group) (inf : Info) : Prop :=
  Counted s e t c g inf (fun p => p.step inf.bytes inf.parcels) (s.safeWord c g inf)

/-- The issue retires with effect `e`, and its path goes on at the header of the clause at `pc` (R262, R288). -/
def Transferred (s e t : State) (c : Cur) (g : Group) (inf : Info) (pc : W64) : Prop :=
  Counted s e t c g inf (fun p => p.goto pc) none

/-- The issue takes effect `e`, and its path stays at the instruction until it is released (R292, R294, R295). -/
def Stayed (s e t : State) (c : Cur) (g : Group) (inf : Info) : Prop :=
  Counted s e t c g inf (fun p => p) none

/-! ## Lane instructions -/

/-- The V registers that a lane instruction names are declared and acquired, and no older write to them is in
flight; queues it pops hold an entry and queues it pushes have room; no result-table entry stands for it; and its
result can be placed (R196, R203, R210, R215, R309, R310). -/
structure LaneReady (x : IssueCtx) (o : LaneOp) : Prop where
  legal : x.laneFault o.srcs o.runs [o.dst] = none
  free : x.laneWait o.srcs o.runs [o.dst] = none
  miss : (o.opw.isSome && x.eligible (o.srcs ++ [o.dst]) && x.looksUp o.dst o.mask) = true → (x.s.core x.c.core).lookup (x.laneKey o (o.opw.getD 0)) = none
  place : (x.s.core x.c.core).canPlace x.c.slot x.g.wc = true

/-- A queue after a lane instruction: popped if a source names it, then pushed if the destination does (R309). -/
def IssueCtx.queueAfter (x : IssueCtx) (o : LaneOp) (q : Nat) : OpQueue :=
  let u := if (queuesOf x.d o.srcs).contains q then (x.g.queue q).pop else x.g.queue q
  if queueOf x.d.qmask o.dst = some q then u.push x.d.qdepth x.w o.mask (VReg.ofFn x.w o.lane) else u

/-- What a lane instruction writes: the written lanes of its destination register, or an entry of its
destination queue; the entries its sources pop; the sticky bits XR and MM. An operation in flight no longer writes lanes that it
has written (R308). Everything else stands, but for the physical registers, the mapping, the result table and the counter of lookups. -/
structure LaneWrote (x : IssueCtx) (o : LaneOp) (e : State) : Prop where
  group : ∃ h, e.group? x.c.core x.c.slot = some h ∧
    h = { x.g with v := h.v, vname := h.vname, queues := h.queues
                   gsr := x.g.gsr ||| (if o.xr then 0x10 else 0) ||| (if o.mm then 0x20 else 0) } ∧
    (∀ n, h.vreg n = if queueOf x.d.qmask o.dst = none ∧ n = o.dst then VReg.merge x.w o.mask o.lane (x.g.vreg o.dst) else x.g.vreg n) ∧
    ∀ q, h.queue q = x.queueAfter o q
  groups : ∀ core slot, (core, slot) ≠ (x.c.core, x.c.slot) → e.group? core slot = x.s.group? core slot
  same : e.core x.c.core = { x.s.core x.c.core with
    groups := (e.core x.c.core).groups, slots := (e.core x.c.core).slots
    pvrs := (e.core x.c.core).pvrs, rt := (e.core x.c.core).rt }
  slots : (e.core x.c.core).slots.map (fun y => (y.1, y.2.ctx, y.2.salt)) = (x.s.core x.c.core).slots.map fun y => (y.1, y.2.ctx, y.2.salt)
  others : ∀ n, n ≠ x.c.core → e.core n = x.s.core n
  ops : e.ops = if queueOf x.d.qmask o.dst = none then (x.s.supersede x.c.core x.c.slot o.dst o.mask).ops else x.s.ops
  rest : e = { x.s with cores := e.cores, stamp := e.stamp, ops := e.ops }

end Sys2Proof.Machine
end

