-- ==== Sys2Proof/Safety/Runs.lean ====
section
/-! DEFINITION. How the claims speak of an issue: it retires, transfers, stays, traps or parks; and the results of the
uniform instructions as formulas of their own (R298, R299, R301). -/

namespace Sys2Proof.Machine

/-- The state in which a path's instruction takes effect: as it was, with no path issuing. -/
abbrev State.off (s : State) : State := { s with cur := none }

/-- The instruction takes effect `e` and retires (R262). -/
def Retires (s : State) (c : Cur) (g : Group) (i : Instr) (inf : Info) (e : State) : Prop :=
  ∃ t, exec i s = .next t ∧ Retired s e t c g inf

/-- The instruction takes effect `e` and its path goes on at the clause header at `pc` (R288). -/
def Transfers (s : State) (c : Cur) (g : Group) (i : Instr) (inf : Info) (e : State) (pc : W64) : Prop :=
  ∃ t, exec i s = .next t ∧ Transferred s e t c g inf pc

/-- The instruction takes effect `e` and its path waits there. -/
def Stays (s : State) (c : Cur) (g : Group) (i : Instr) (inf : Info) (e : State) : Prop :=
  ∃ t, exec i s = .next t ∧ Stayed s e t c g inf

/-- The instruction raises a fault at its path's PC, and does nothing else (R275, R137, R139). -/
def Traps (s : State) (c : Cur) (g : Group) (i : Instr) (cls : Nat) (va : W64) (detail : Nat) : Prop :=
  exec i s = .next (s.off.takeFault c.core c.slot c.path (g.path c.path).pc cls va detail)

/-- The instruction does nothing but have its path wait for `a`; it will issue again (R97, R198). -/
def Parks (s : State) (c : Cur) (i : Instr) (a : Await) : Prop := exec i s = .next (s.off.parkPath c a)

/-- The issuing group changed by `f`, and nothing else. -/
def State.withGroup (s : State) (c : Cur) (f : Group → Group) : State := s.off.updGroup c.core c.slot f

/-- The issuing path changed by `f`, and nothing else. -/
def State.withPath (s : State) (c : Cur) (f : Path → Path) : State := s.off.updPath c.core c.slot c.path f

/-- A uniform instruction as the claims see it: S registers it reads and writes, and its result (R298). -/
structure UniForm where
  a : Nat
  b : Nat
  d : Nat
  op : W32 → W32 → W32 → W32

def uaForm (f : UA) (op : W32 → W32 → W32 → W32) : UniForm := { a := f.a.toNat, b := f.b.toNat, d := f.d.toNat, op }
def uuForm (f : UUn) (op : W32 → W32) : UniForm := { a := f.a.toNat, b := f.a.toNat, d := f.d.toNat, op := fun a _ _ => op a }
def uiForm (f : UI) (op : BitVec 16 → W32 → W32) : UniForm := { a := f.d.toNat, b := f.d.toNat, d := f.d.toNat, op := fun _ _ d => op f.i d }

/-- The number of bits of a word that `f` picks. -/
def countBits (f : Nat → Bool) : Nat := ((List.range 32).filter f).length

/-- Uniform arithmetic on integers, modulo 2³² (R298, R301). -/
def uniResult : Instr → Option UniForm
  | .uadd f => some (uaForm f fun a b _ => BitVec.ofInt 32 (a.toInt + b.toInt))
  | .usub f => some (uaForm f fun a b _ => BitVec.ofInt 32 (a.toInt - b.toInt))
  | .umul f => some (uaForm f fun a b _ => BitVec.ofInt 32 (a.toInt * b.toInt))
  | .umulh f => some (uaForm f fun a b _ => BitVec.ofNat 32 (a.toNat * b.toNat / 2 ^ 32))
  | .umad f => some (uaForm f fun a b d => BitVec.ofInt 32 (a.toInt * b.toInt + d.toInt))
  | .uand f => some (uaForm f fun a b _ => a &&& b)
  | .uor f => some (uaForm f fun a b _ => a ||| b)
  | .uxor f => some (uaForm f fun a b _ => a ^^^ b)
  | .ushl f => some (uaForm f fun a b _ => BitVec.ofNat 32 (a.toNat * 2 ^ b.toNat))
  | .ushr f => some (uaForm f fun a b _ => BitVec.ofNat 32 (a.toNat / 2 ^ b.toNat))
  | .usar f => some (uaForm f fun a b _ => BitVec.ofInt 32 (a.toInt / 2 ^ b.toNat))
  | .umin f => some (uaForm f fun a b _ => BitVec.ofInt 32 (min a.toInt b.toInt))
  | .umax f => some (uaForm f fun a b _ => BitVec.ofInt 32 (max a.toInt b.toInt))
  | .ubfe f => some (uaForm f fun a b _ => BitVec.ofNat 32 (a.toNat / 2 ^ (b.toNat % 32) % 2 ^ (b.toNat / 256 % 32)))
  | .umov f => some (uuForm f fun a => a)
  | .uclz f => some (uuForm f fun a => BitVec.ofNat 32 (countBits fun n => a.toNat / 2 ^ n == 0))
  | .upopc f => some (uuForm f fun a => BitVec.ofNat 32 (countBits fun n => a.getLsbD n))
  | .uli f => some (uiForm f fun i _ => BitVec.ofInt 32 i.toInt)
  | .ulih f => some (uiForm f fun i d => BitVec.ofNat 32 (i.toNat * 2 ^ 16 + d.toNat % 2 ^ 16))
  | .uaddi f => some (uiForm f fun i d => BitVec.ofInt 32 (d.toInt + i.toInt))
  | _ => none

/-- A word as a selector reads it, and half h of a 64-bit value. -/
def halfOf (x : Nat) (h : Nat) : W32 := BitVec.ofNat 32 (x / 2 ^ (32 * h))

/-- The words of a handler's fault record, in order from selector 0x30 (R138, R302). -/
def FaultRec.words (r : FaultRec) : List W32 :=
  [BitVec.ofNat 32 (r.cls % 2 ^ 16 + r.path % 256 * 2 ^ 16 + r.grp % 256 * 2 ^ 24),
   BitVec.ofNat 32 (r.ctx % 2 ^ 16 + if r.trapped then 2 ^ 16 else 0),
   halfOf r.team 0, halfOf r.team 1, halfOf r.pc.toNat 0, halfOf r.pc.toNat 1, halfOf r.mask.toNat 0, halfOf r.mask.toNat 1,
   halfOf r.time 0, halfOf r.time 1, halfOf r.va.toNat 0, halfOf r.va.toNat 1, halfOf r.detail 0, halfOf r.detail 1,
   halfOf r.further 0, 0]

/-- What each selector below 0x100 reads, for a team at (x, y, z) of its grid (R302). -/
def selectorReads (c : Cur) (g : Group) (d : Desc) (x y z : Nat) : List (Nat × W32) :=
  let n (v : Nat) : W32 := BitVec.ofNat 32 v
  let p := g.path c.path
  [(0x00, g.gsr), (0x01, n (16 * 2 ^ g.wc)), (0x02, n g.k.toNat), (0x10, n x), (0x11, n y), (0x12, n z),
   (0x14, n d.gx), (0x15, n d.gy), (0x16, n d.gz), (0x18, n g.num), (0x19, n d.gpt), (0x1A, n c.core), (0x1B, n g.quarter),
   (0x1C, n (if d.pair then c.core % 2 else 0)), (0x1D, n g.ctx), (0x20, n (if d.wdog then g.watchdog else 0)), (0x21, n c.path),
   (0x22, halfOf p.mask.toNat 0), (0x23, halfOf p.mask.toNat 1)] ++
    (List.range 16).zipWith (fun i w => (0x30 + i, if p.hndl then w else 0)) p.frec.words

/-- The relations of UCMP, in the order of their codes (R299). -/
def uniRelation (cc : Nat) (a b : W32) : Bool :=
  match cc with
  | 0 => decide (a.toNat = b.toNat)
  | 1 => decide (a.toNat ≠ b.toNat)
  | 2 => decide (a.toInt < b.toInt)
  | 3 => decide (a.toInt ≤ b.toInt)
  | 4 => decide (b.toInt < a.toInt)
  | 5 => decide (b.toInt ≤ a.toInt)
  | 6 => decide (a.toNat < b.toNat)
  | 7 => decide (a.toNat ≤ b.toNat)
  | 8 => decide (b.toNat < a.toNat)
  | _ => decide (b.toNat ≤ a.toNat)

end Sys2Proof.Machine
end

