-- ==== Sys2Proof/Safety/Access.lean ====
section
/-! DEFINITION. What the claims say of memory instructions: the fields of each form, the lanes' accesses, and what an
instruction that starts an operation leaves (R300, R335 to R343). -/

namespace Sys2Proof.Machine

/-- The size in bytes and the extension of a load or store form: .w8 to .w64, then .sx8 and .sx16 (R335). -/
def regForm (base : Nat) (f : MemReg) : MemOp :=
  { word := base + f.word, sp := f.sp, pred := f.pred, l := f.l, form := f.z.toNat, d := f.d.toNat, b := f.b.toNat, n := some f.n.toNat, imm := 0 }
def immForm (base : Nat) (f : MemImm) : MemOp :=
  { word := base + f.word, sp := f.sp, pred := f.pred, l := f.l, form := f.z.toNat, d := f.d.toNat, b := f.b.toNat, n := none
    imm := f.i.toNat * 2 ^ f.z.toNat }

/-- Global loads (R338). -/
def globalLoad : Instr → Option MemOp
  | .ldgReg f => some (regForm 37 f)
  | .ldgImm f => some (immForm 39 f)
  | .ldgSxReg f => some { word := 293 + f.word, sp := f.sp, pred := f.pred, l := f.l, form := 4 + f.z.toNat, d := f.d.toNat, b := f.b.toNat, n := some f.n.toNat, imm := 0 }
  | .ldgSxImm f => some { word := 295 + f.word, sp := f.sp, pred := f.pred, l := f.l, form := 4 + f.z.toNat, d := f.d.toNat, b := f.b.toNat, n := none, imm := f.i.toNat * 2 ^ f.z.toNat }
  | _ => none

/-- Global stores (R338). -/
def globalStore : Instr → Option MemOp
  | .stgReg f => some (regForm 549 f)
  | .stgImm f => some (immForm 551 f)
  | _ => none

/-- How a memory instruction uses the port; its current is within the quarter's standing quantum (R141, R307). -/
def memInf (sp : BitVec 1) (g : Group) : Info := { sp := sp == 1, beats := beatsOf g, moves := true }

/-- How an instruction that moves between registers and a unit uses the port (R307). -/
def unitInf (sp : BitVec 1) (g : Group) : Info := { sp := sp == 1, beats := beatsOf g }

/-- V registers that an access of a form names from d on. -/
def MemOp.run (m : MemOp) : Nat := if m.form = 3 then 2 else 1

/-- The accesses of the written lanes: (S[b+1] ‖ S[b]) plus SInt(Vn), or plus the immediate (R152). -/
def MemOp.accesses (m : MemOp) (x : IssueCtx) : List LaneAcc :=
  (lanesOf x.w (x.g.written x.p m.pred.toNat)).map fun l =>
    { lane := l, addr := (x.g.spair m.b + match m.n with
        | some f => BitVec.ofInt 64 ((x.vsrc f).lane l).toInt
        | none => BitVec.ofNat 64 m.imm).toNat }

/-- An instruction's registers and queues are ready: no fault, and nothing to wait for (R199, R215, R309). -/
structure MemReady (x : IssueCtx) (m : MemOp) (store : Bool) : Prop where
  legal : x.memFault m.n.toList m.d m.run = none
  base : x.sWait [m.b, m.b + 1] = none
  free : x.memWait m.n.toList m.d m.run store (!store) = none

/-- An access is in order: under a remote binding its route is open; otherwise every lane may access its bytes, reading (1), writing
(2) or both (3) (R165, R342). -/
def IssueCtx.allowed (x : IssueCtx) (ls : List LaneAcc) (size need : Nat) : Prop :=
  if x.g.rOn then x.s.routeOpen x.g.ctx x.g.route = true else x.accessFault? ls size need = none

/-- The operation that a load or store starts, counted on counter `ctr` and on the flag that L selects (R174, R263). -/
def MemOp.started (m : MemOp) (x : IssueCtx) (kind : OpKind) (ctr : Nat) (ls : List LaneAcc) : Op :=
  { core := x.c.core, slot := x.c.slot, gen := x.g.gen, path := x.c.path, pid := x.p.born, grp := x.g.num, pc := x.p.pc
    ctx := x.g.ctx, team := x.g.team, kind, ctr := some ctr, flag := x.flagOf m.l, lanes := ls, size := formBytes m.form }

/-- HBM and L2 hold the same bytes for every server group, read one by one. -/
def SameBytes (s t : State) : Prop := ∀ sg a, t.msys.homeByte sg a = s.msys.homeByte sg a

/-- Scratchpad bytes of a team. -/
def State.spad (s : State) (team off : Nat) : Byte := match s.team? team with | some t => t.spByte off | none => 0

/-- The lanes of a scratchpad access: SInt(Vn) + imm (R153). -/
def SpOp.accesses (m : SpOp) (x : IssueCtx) : List LaneAcc :=
  (lanesOf x.w (x.g.written x.p m.pred.toNat)).map fun l => { lane := l, addr := (((x.vsrc m.n).lane l).toInt + m.imm).toNat }

/-- Scratchpad loads and stores (R339). -/
def spLoad : Instr → Option SpOp
  | .ldsp f => some { word := 41 + f.word, sp := f.sp, pred := f.pred, l := f.l, form := f.z.toNat, d := f.d.toNat, n := f.n.toNat, imm := f.i.toNat * 2 ^ f.z.toNat }
  | .ldspSx f => some { word := 297 + f.word, sp := f.sp, pred := f.pred, l := f.l, form := 4 + f.z.toNat, d := f.d.toNat, n := f.n.toNat, imm := f.i.toNat * 2 ^ f.z.toNat }
  | _ => none
def spStore : Instr → Option SpOp
  | .stsp f => some { word := 553 + f.word, sp := f.sp, pred := f.pred, l := f.l, form := f.z.toNat, d := f.d.toNat, n := f.n.toNat, imm := f.i.toNat * 2 ^ f.z.toNat }
  | _ => none

def SpOp.run (m : SpOp) : Nat := if m.form = 3 then 2 else 1

/-- A scratchpad access performs at its retirement: registers ready, every lane inside the team's pages and on the group's own core,
no line to fill, no earlier access in flight that it meets, and its flag below 255 (R153, R161, R180, R339). -/
structure SpReady (x : IssueCtx) (m : SpOp) (t : Team) (store : Bool) : Prop where
  team : x.s.team? x.g.team = some t
  legal : x.memFault [m.n] m.d m.run = none
  free : x.memWait [m.n] m.d m.run store (!store) = none
  inside : x.spLanes (x.g.written x.p m.pred.toNat) m.n m.imm (formBytes m.form) 1 = .ok (m.accesses x)
  filled : ∀ ln ∈ touchedLines (m.accesses x) (formBytes m.form), t.lineFilling ln = false ∧ t.lineI ln = false
  near : t.isFar x.c.core (m.accesses x) (formBytes m.form) = false
  first : x.spWait store (m.accesses x) (formBytes m.form) = none
  flag : ∀ f, x.flagOf m.l = some f → x.g.flag f < 255

/-- Two places of a width are free on a core, so that two results can be placed one after the other (R203). -/
def Core.twoFree (k : Core) (wc : Nat) : Prop :=
  ∃ n m, n ≠ m ∧ n < 8192 / 2 ^ wc ∧ m < 8192 / 2 ^ wc ∧ inPositionZero wc n = false ∧ inPositionZero wc m = false ∧
    k.occupants wc n = [] ∧ k.occupants wc m = []

/-- The byte that lane access `l` stores at `a`. -/
def LaneAcc.byteAt (l : LaneAcc) (a : Nat) : Byte := l.x.extractLsb' (8 * (a - l.addr)) 8

end Sys2Proof.Machine
end

