-- ==== Sys2Proof/Safety/Units.lean ====
section
/-! DEFINITION. What the claims say of instructions that start a unit: copies and chains, collectives, and the issues of
an access thread (R349 to R359). -/

namespace Sys2Proof.Machine

/-- The fields of a CPY's operand registers (R349). -/
def cpyReq (g : Group) (b : Nat) : CopyReq :=
  let m := (g.sreg (b + 5)).toNat
  { dst := g.spair b, src := g.spair (b + 2), srcLen := (g.sreg (b + 4)).toNat, dstLen := (g.sreg (b + 4)).toNat
    acq := m.testBit 0, rel := m.testBit 1, scope := BitVec.ofNat 2 (m / 4), ssp := m.testBit 4, dsp := m.testBit 5
    remote := m.testBit 6, fm := m.testBit 7, route := m / 2 ^ 8 % 2 ^ 10 }

/-- The copy unit may take a request: its ranges are allowed, its route is open, and counter, flag and a copy slot have
room (R349, R350). -/
structure CopyReady (x : IssueCtx) (q : CopyReq) (l : BitVec 1) (t : Team) (i : Nat) : Prop where
  team : x.s.team? x.g.team = some t
  near : q.remote = true → q.dsp = false ∧ ((q.acq || q.rel) = true → q.scope = 3) ∧ x.s.routeOpen x.g.ctx q.route = true
  srcSp : q.ssp = true → spRangeOk x.d q.src.toNat q.srcLen = true ∧ t.meetsRegion none q.src.toNat q.srcLen = false
  dstSp : q.dsp = true → spRangeOk x.d q.dst.toNat q.dstLen = true ∧ t.meetsRegion none q.dst.toNat q.dstLen = false
  src : q.ssp = false → x.s.mayRange x.gr 1 q.src.toNat q.srcLen = true
  dst : q.dsp = false → q.remote = false → x.s.mayRange x.gr 2 q.dst.toNat q.dstLen = true
  some : q.dstLen ≠ 0
  room : x.room 4 (x.flagOf l) = none
  slot : i < 48 ∧ (x.s.core x.c.core).copies.find i = none ∧ ∀ j, j < i → (x.s.core x.c.core).copies.find j ≠ none

/-- The copy that stands in its slot once it has been taken (R350). -/
def CopyReq.taken (q : CopyReq) (x : IssueCtx) (l : BitVec 1) : Copy :=
  { slot := x.c.slot, gen := x.g.gen, path := x.c.path, pid := x.p.born, pc := x.p.pc, ctx := x.g.ctx, team := x.g.team, id := x.s.stamp
    dst := q.dst, src := q.src, len := q.dstLen, chain := q.chain, rel := q.rel, scope := q.scope, ssp := q.ssp
    dsp := q.dsp, remote := q.remote, fm := q.fm, route := q.route, flag := x.flagOf l
    acqOps := if q.acq then x.coveredSet 2 q.scope.toNat else [], turn := x.s.stamp }

/-- The state after the unit takes a copy in slot i: CPY and the flag rise by one, and the command stands in its path's program order
(R177). -/
def CopyReq.after (q : CopyReq) (x : IssueCtx) (l : BitVec 1) (i : Nat) : State :=
  ((({ x.s with stamp := x.s.stamp + 1 } : State).updCore x.c.core fun k => { k with copies := k.copies.put i (q.taken x l) }).updGroup
    x.c.core x.c.slot fun g => match x.flagOf l with | some k => (g.raise 4 x.s.stamp).addFlag k | none => g.raise 4 x.s.stamp).remember
    x.c.core x.c.slot x.c.path [x.s.stamp]

/-- The descriptor of a collective, by bytes (R355). -/
structure CollFields where
  job : Nat
  op : Nat
  ty : Nat
  hto : Nat
  inst : Nat
  count : Nat
  send : Nat
  recv : Nat
  peers : Nat
  root : Nat
  rest : Bool

def collDesc (img : Nat) : CollFields :=
  let f (lo n : Nat) : Nat := img / 256 ^ lo % 256 ^ n
  { job := f 0 2, op := f 8 1, ty := f 9 1, hto := f 10 2, inst := f 4 4, count := f 16 8, send := f 24 8, recv := f 32 8
    peers := f 40 8, root := f 48 1, rest := f 2 2 == 0 && f 12 4 == 0 && f 49 15 == 0 }

/-- The devices of a peer mask. -/
def CollFields.devices (d : CollFields) : List Nat := (List.range 64).filter fun n => d.peers.testBit n

/-- The descriptor's limits (R355, R356). -/
abbrev CollFields.legal (d : CollFields) (own : Nat) : Prop :=
  d.rest = true ∧ d.op ≤ 4 ∧ d.ty ≤ 3 ∧ 1 ≤ d.count ∧ d.count ≤ 2 ^ 32 ∧ 2 ≤ d.devices.length ∧ own ∈ d.devices ∧
    (d.op = 0 → d.root ∈ d.devices) ∧ (d.op = 4 → d.count % d.devices.length = 0)

/-- The access thread of group `g` issues an instruction (R357). -/
structure AccIssues (s : State) (c : Cur) (g : Group) (a : Acc) : Prop where
  cur : s.cur = some c
  access : c.access = true
  group : s.group? c.core c.slot = some g
  thread : g.acc = some a
  clause : a.left ≠ 0

/-- The instruction takes effect `e` and leaves the thread as `a`. -/
def AccDoes (s : State) (c : Cur) (i : Instr) (e : State) (a : Acc) : Prop := exec i s = .next (e.setAcc c a)

/-- The thread waits, and nothing else changes. -/
def AccWaits (s : State) (c : Cur) (a : Acc) (i : Instr) (w : AccAwait) : Prop :=
  exec i s = .next (s.off.setAcc c { a with await := some w })

/-- The thread raises a fault at its PC (R359). -/
def AccTraps (s : State) (c : Cur) (a : Acc) (i : Instr) (cls : Nat) (va : W64) (det : Nat) : Prop :=
  exec i s = .next (s.off.accessFault c.core c.slot a.pc cls va det)

/-- What the thread's instruction reads. -/
def State.accessing (s : State) (c : Cur) (g : Group) (a : Acc) : AccCtx :=
  { s := s.off, c, g, a, gr := s.grid g.grid }

/-- The thread past one parcel. -/
def Acc.past (a : Acc) : Acc := { a with pc := a.pc + 4, left := a.left - 1, await := none }

end Sys2Proof.Machine
end

