-- ==== Sys2Proof/Safety/Engines.lean ====
section
/-! DEFINITION. What the claims say of the matrix engine and of directions: what each matrix instruction enters into its
bank's queue, what each tile-step does, and what each direction instruction writes (R362 to R391). -/

namespace Sys2Proof.Machine

/-! ## Matrix (R362 to R373) -/

/-- A matrix instruction as the claims see it: S registers it reads, runs of V registers, its limits, its entry, and
how the bank changes as it enters. -/
structure MxForm where
  s : List Nat := []
  runs : IssueCtx → List (Nat × Nat) := fun _ => []
  limits : IssueCtx → Bool := fun _ => true
  op : IssueCtx → Bank → MOp
  after : IssueCtx → Bank → Bank := fun _ b => b

/-- Registers of an n × K fragment of a type, and of an n × n tile of one (R365, R372). -/
def fragCount (x : IssueCtx) (r : BitVec 7) (t : BitVec 3) : Nat := regionN r.toNat * typeK t.toNat * typeBits t.toNat / (32 * x.w)
def tileCount (x : IssueCtx) (r : BitVec 7) (t : BitVec 3) : Nat :=
  (regionN r.toNat * regionN r.toNat * typeBits t.toNat + 32 * x.w - 1) / (32 * x.w)

/-- The registers of step i of an MML from its loop word, where no queue stands for them (R368). -/
def mmlRun (queue : Bool) (w : W32) (reg inc i n : Nat) : List (Nat × Nat) :=
  if queue then [] else [(w.toNat / 2 ^ reg % 64 + i * (w.toNat / 2 ^ inc % 64), n)]

/-- The limits of an MML's loop word: reserved bits, registers under a queue, queues declared and deep enough (R368, R369). -/
def mmlLimits (x : IssueCtx) (w : W32) (entries : Nat) : Bool :=
  let aq := w.toNat / 2 ^ 25 % 4
  let bq := w.toNat / 2 ^ 28 % 4
  decide (w.toNat < 2 ^ 30) &&
    (!w.getLsbD 24 || (w.toNat % 64 == 0 && w.toNat / 2 ^ 12 % 64 == 0 && x.d.qmask.testBit aq)) &&
    (!w.getLsbD 27 || (w.toNat / 2 ^ 6 % 64 == 0 && w.toNat / 2 ^ 18 % 64 == 0 && x.d.qmask.testBit bq)) &&
    ((!w.getLsbD 24 && !w.getLsbD 27) || decide ((if w.getLsbD 24 && w.getLsbD 27 && aq == bq then 2 * entries else entries) ≤ x.d.qdepth))

/-- The matrix instructions that touch no memory. -/
def mxForm : Instr → Option MxForm
  | .mfree => some { op := fun x b => x.mop b .free, after := fun _ b => { b with team := none } }
  | .mzero f => some { op := fun x b => { x.mop b .zero with region := f.r.toNat } }
  | .mmask f => some { s := (List.range 6).map (f.d.toNat + ·), op := fun x b => x.mop b .mask
                       after := fun x b => { b with rowM := x.g.spair f.d.toNat, colM := x.g.spair (f.d.toNat + 2), depM := x.g.spair (f.d.toNat + 4) } }
  | .mma f => some {
      runs := fun x => [(f.a.toNat, fragCount x f.r f.t), (f.b.toNat, fragCount x f.r f.t)]
      op := fun x b => { x.mop b .mma with region := f.r.toNat, ty := f.t.toNat
                                           frags := [(x.runVals (f.a.toNat, fragCount x f.r f.t), x.runVals (f.b.toNat, fragCount x f.r f.t))] } }
  | .mml f =>
      let n (x : IssueCtx) := fragCount x f.r f.t
      let w (x : IssueCtx) := x.g.sreg f.l.toNat
      let a (x : IssueCtx) (i : Nat) := mmlRun ((w x).getLsbD 24) (w x) 0 12 i (n x)
      let b (x : IssueCtx) (i : Nat) := mmlRun ((w x).getLsbD 27) (w x) 6 18 i (n x)
      let steps := List.range (f.k.toNat + 1)
      some {
        s := [f.l.toNat]
        runs := fun x => steps.flatMap (a x) ++ steps.flatMap (b x)
        limits := fun x => mmlLimits x (w x) ((f.k.toNat + 1) * n x)
        op := fun x bk => { x.mop bk .mml with
          region := f.r.toNat, ty := f.t.toNat, steps := f.k.toNat + 1
          loop := w x, aq := if (w x).getLsbD 24 then some ((w x).toNat / 2 ^ 25 % 4) else none
          bq := if (w x).getLsbD 27 then some ((w x).toNat / 2 ^ 28 % 4) else none
          frags := steps.map fun i => ((a x i).flatMap x.runVals, (b x i).flatMap x.runVals) } }
  | .msca f =>
      let n (x : IssueCtx) := (regionN f.r.toNat + x.w - 1) / x.w
      some { runs := fun x => [(f.a.toNat, n x), (f.b.toNat, n x)]
             op := fun x b => { x.mop b .sca with region := f.r.toNat, frags := [(x.runVals (f.a.toNat, n x), x.runVals (f.b.toNat, n x))] } }
  | .mcvt f => some { runs := fun x => [(f.d.toNat, tileCount x f.r f.t)]
                      op := fun x b => { x.mop b .cvt with region := f.r.toNat, ty := f.t.toNat, d := f.d.toNat, mode := f.o.toNat } }
  | _ => none

/-- An entry is put behind bank h of the issuing core, which then stands as `b`; only holds on physical registers
change beside it (R204, R363, R366). -/
structure Entered (x : IssueCtx) (h : Nat) (b : Bank) (m : MOp) (e : State) : Prop where
  bank : ∃ refs, (e.core x.c.core).banks.find h = some { b with q := b.q ++ [{ m with refs }] }
  banks : ∀ n, n ≠ h → (e.core x.c.core).banks.find n = (x.s.core x.c.core).banks.find n
  same : e.core x.c.core = { x.s.core x.c.core with banks := (e.core x.c.core).banks, pvrs := (e.core x.c.core).pvrs }
  others : ∀ n, n ≠ x.c.core → e.core n = x.s.core n
  rest : e = { x.s with cores := e.cores }

/-- Elements of a region's tile-step, for i and j in the region (R217, R365). -/
def State.acc (s : State) (core h k : Nat) : W32 := match (s.core core).banks.find h with | some b => b.elem k | none => 0

/-- The lanes of an MLD or MST: the selected elements, row by row, at A + i·P + 4j (R371). -/
def tileLanes (x : IssueCtx) (b : Bank) (f : MemTileF) (store : Bool) : List LaneAcc :=
  let n := regionN f.r.toNat
  ((List.range n).flatMap fun i => (List.range n).map fun j => (i, j)).filterMap fun (i, j) =>
    if b.rowM.getLsbD i && b.colM.getLsbD j && (!store || x.p.mask.getLsbD ((i * n + j) % x.w)) then
      some { lane := i * n + j
             addr := ((x.g.spair f.b.toNat).toNat + i * (x.g.sreg (f.b.toNat + 2)).toNat + 4 * j) % 2 ^ 64 }
    else none

/-! ## Directions (R378 to R390) -/

/-- A component writer of S and D registers: what it names and reads, and the register value it puts in the pipe. -/
structure DirForm where
  sp : BitVec 1
  d : Nat
  srcs : List Nat
  s : List Nat := []
  ok : IssueCtx → Bool := fun _ => true
  val : IssueCtx → DReg × Bool

def DirForm.inf (F : DirForm) (g : Group) : Info := { sp := F.sp == 1, beats := beatsOf g }

def d3Form (f : D3F) (op : Nat → DReg → DReg → DReg × Bool) : DirForm :=
  { sp := f.sp, d := f.x.toNat, srcs := [f.a.toNat, f.b.toNat], val := fun x => op x.w (x.dread f.a.toNat) (x.dread f.b.toNat) }

/-- DMIX: the weight w in 65536ths (R386). -/
def mixValue (x : IssueCtx) (w : Nat) (d a : DReg) : DReg × Bool :=
  if w = 65536 then (a, false)
  else if d.isZero ∨ d.isUndef ∨ a.isZero ∨ a.isUndef then (dUndef, false)
  else dirMix x.w w d a

def dirForm : Instr → Option DirForm
  | .dmov f => some { sp := f.sp, d := f.x.toNat, srcs := [f.a.toNat], val := fun x => (x.dread f.a.toNat, false) }
  | .dadd f => some (d3Form f fun w a b => dirAdd w false a b)
  | .dsub f => some (d3Form f fun w a b => dirAdd w true a b)
  | .dhad f => some (d3Form f dirHad)
  | .dproj f => some (d3Form f dirProj)
  | .drefl f => some (d3Form f dirRefl)
  | .dmix f => some { sp := f.sp, d := f.x.toNat, srcs := [f.x.toNat, f.a.toNat], s := [f.b.toNat]
                      ok := fun x => decide (0 < (x.g.sreg f.b.toNat).toNat ∧ (x.g.sreg f.b.toNat).toNat ≤ 65536)
                      val := fun x => mixValue x (x.g.sreg f.b.toNat).toNat (x.dread f.x.toNat) (x.dread f.a.toNat) }
  | _ => none

/-- The D registers named lie below DIRS, and those read have no write in the pipe that comes before in program order (R177, R213,
R214). -/
structure DirReady (x : IssueCtx) (names reads : List Nat) : Prop where
  named : ∀ n ∈ names, n < x.d.dirs
  read : ∀ w ∈ x.g.dpipe, w.id ∈ x.p.past → w.d ∉ reads

/-- The write that a component writer of the issuing path puts into the pipe, as `id` (R214). -/
def IssueCtx.dwrite (x : IssueCtx) (id d : Nat) (v : DReg × Bool) : DWrite :=
  { id, d, path := x.c.path, pid := x.p.born, after := x.p.past, val := v.1, dov := v.2, ready := true, back := x.p, nth := x.p.done }

/-- A component write of the issuing path stands in its group's pipe, and in the path's program order (R177, R214). -/
def IssueCtx.piped (x : IssueCtx) (s : State) (d : Nat) (v : DReg × Bool) : State :=
  (({ s with stamp := s.stamp + 1 } : State).updGroup x.c.core x.c.slot fun h => { h with dpipe := h.dpipe ++ [x.dwrite s.stamp d v] }).remember
    x.c.core x.c.slot x.c.path [s.stamp]

/-- Bit j of lane l of register i of an n × n region written out as codes of so many bits, row by row (R372). -/
def imageBit (w n bits : Nat) (code : Nat → Nat → Nat) (i l j : Nat) : Bool :=
  let t := 32 * (w * i + l) + j
  let e := t / bits
  decide (e < n * n) && (code (e / n) (e % n)).testBit (t % bits)

end Sys2Proof.Machine
end

