-- ==== Sys2Proof/Safety/Device.lean ====
section
/-! DEFINITION. What the claims say of the events of the device: management messages, the host port, commands and rings
(R15 to R25, R76 to R94, R117 to R119). -/

namespace Sys2Proof.Machine

/-- An event of the device goes on, and leaves a state of which `P` holds. -/
def Leaves (s : State) (i : Instr) (P : State → Prop) : Prop := ∃ t, exec i s = .next t ∧ P t

/-- The bring-up state (R15). -/
def State.bring (s : State) : Nat := s.rfld .bstat 0 3

/-- One thing more has been sent, or waits for transmission to resume (R79). -/
def Sent (s t : State) (o : Out) : Prop :=
  (t.host.out = s.host.out ++ [o] ∧ t.host.waiting = s.host.waiting) ∨ (t.host.waiting = s.host.waiting ++ [o] ∧ t.host.out = s.host.out)

/-! ## Management (R89, R90) -/

/-- A management message is accepted: a host lane has trained, the message is whole, its sequence is new, its signature
verifies if it must be signed, the bytes outside its operands are zero, and the device is ready if it must be. -/
structure Accepted (s : State) (m : MgmtMsg) (signed early : Bool) (ops : List (Nat × Nat)) : Prop where
  lane : s.rfld .hpstat 0 4 ≠ 0
  sizes : m.command.length = 64 ∧ m.payload.length ≤ 8128 ∧ m.signature.length = 64
  fresh : (s.reg .mseqlast).toNat < m.mseq.toNat
  signed : signed = true → Config.ed25519Verify s.mgmtKey (Config.sha512 (signedBytes m)) m.signature = true
  zeros : reservedOk m ops = true
  ready : early = true ∨ s.bring = 4

/-- The state in which an accepted message acts. -/
def State.taken (s : State) (m : MgmtMsg) : State := s.setReg .mseqlast m.mseq

/-- A message is answered with a status and data. -/
def Answered (s t : State) (m : MgmtMsg) (status : Nat) (data : Bytes) : Prop := Sent s t (.mgmtReply m.mseq status data)

/-- Every register but some is as it was. -/
def RegsBut (s t : State) (rs : List RegName) : Prop := ∀ r : RegName, (∀ q ∈ rs, r.addr ≠ q.addr) → t.reg r = s.reg r

/-- No command, grid, team, lease, ring or reply to come stands in the device for a context. -/
structure Bare (s : State) (ctx : Nat) : Prop where
  grids : ∀ e ∈ s.sched.grids, e.2.ctx ≠ ctx
  teams : ∀ e ∈ s.sched.teams, e.2.ctx ≠ ctx
  cmds : ∀ e ∈ s.sched.cmds, e.2.ctx ≠ ctx
  leases : (∀ e ∈ s.msys.leases, e.1 / 256 ≠ ctx) ∧ ∀ n, n < 255 → (s.lease ctx n).st = 0
  rings : ∀ q, q < 64 → (s.ring q).isSet = true → (s.ring q).ctx ≠ ctx

/-! ## The host port (R76 to R82) -/

/-- A request of a queue pair that comes from its fixed peer in its turn (R79). -/
structure InTurn (s : State) (h : RoceHdr) (q : QPair) : Prop where
  pair : s.host.qps.find h.qpn = some q
  peer : q.peer = h.src ∧ q.peerQp = h.srcQp
  turn : h.psn = q.rxPsn

/-- The state after a request in its turn of n packets has been counted. -/
def State.counted (s : State) (h : RoceHdr) (q : QPair) (n : Nat) : State :=
  s.putQp h.qpn { q with rxPsn := q.rxPsn + BitVec.ofNat 24 n }

/-- An operation has been started as the next one of the device, and its requests stand in the grid, each from the gateway at its
home slice's own router (R28, R37). -/
structure ThroughGate (s t : State) (o : Op) (rs : List GateReq) : Prop where
  op : t.ops.find s.stamp = some { o with left := rs.length }
  sent : ∀ (j : Nat) (r : GateReq), rs[j]? = some r → ∃ p pa, t.pkts.find (s.stamp + 1 + j) = some p ∧ s.translate o.ctx r.va = some pa ∧
    p.opId = s.stamp ∧ p.op = r.code ∧ p.addr = pa ∧ p.mask = r.mask ∧ p.data = r.data ∧
    p.drt = sliceRtr (sliceOfChannel (channelOf pa)) ∧ p.dep = slicePort (sliceOfChannel (channelOf pa)) ∧ p.srt = p.drt ∧ p.sep = 15 ∧ p.stage = .net p.drt

/-- Each line of a list of requests has a translation. -/
def State.reaches (s : State) (ctx : Nat) (rs : List GateReq) : Prop := ∀ r ∈ rs, (s.translate ctx r.va).isSome = true

/-- The oldest and only request of a queue pair is carried out by an operation that is over (R82). -/
structure JobOver (s : State) (qpn : Nat) (w : PortWork) (o : Op) : Prop where
  job : ∃ q id, s.host.qps.find qpn = some q ∧ q.jobs = [{ work := w, op := some id }] ∧ s.ops.find id = some o
  finished : o.left = 0

/-! ## Commands (R81 to R88) -/

/-- A command of an opcode that starts now (R85). -/
structure Starts (s : State) (id : Nat) (c : Cmd) (opc : Nat) : Prop where
  here : s.sched.cmds.find id = some c
  opc : c.opc = opc
  now : s.startable id c = true
  good : ¬ (c.fence = true ∧ c.fenceFail = true)

/-- The state in which a command that starts acts. -/
def State.begun (s : State) (id : Nat) (c : Cmd) : State :=
  (s.updCmd id fun c => { c with st := .started, started := s.now }).showPend c.queue

/-- A command has completed: it is gone, and its queue's completion count rose by one (R81, R86). -/
def Completed (s t : State) (id : Nat) (c : Cmd) : Prop :=
  t.sched.cmds.find id = none ∧ t.rfld (.hqdone c.queue) 0 32 = (s.rfld (.hqdone c.queue) 0 32 + 1) % 2 ^ 32

end Sys2Proof.Machine
end

