-- ==== Sys2Proof/Safety/Events.lean ====
section
/-! DEFINITION. What the claims say of the events of the network, the memory system and the links (R35 to R50, R53 to
R75, R156, R157). -/

namespace Sys2Proof.Machine

/-- A packet that its home slice serves now: it has come there, no older one of its line is still served, and the slice is in
service (R24, R35, R157; log 89). -/
structure AtHome (s : State) (id : Nat) (p : Pkt) (op : Nat) : Prop where
  here : s.pkts.find id = some p
  stage : p.stage = .home
  op : p.op = op
  first : s.behind id p = false
  serves : s.boot.outOfService.contains (true, sliceOfChannel (channelOf p.addr)) = false

/-- A packet that has come to its core, for a request of the core's own (R34). -/
structure AtCore (s : State) (id : Nat) (p : Pkt) (op : Nat) : Prop where
  here : s.pkts.find id = some p
  stage : p.stage = .core
  op : p.op = op
  own : s.lodra.serving.find id = none
  near : p.sys = none

/-- A burst of the packet's line has been asked of its channel, and nothing else done but counting (R156, R256). -/
structure Asked (s t : State) (id : Nat) (p : Pkt) (write : Bool) (mask : BitVec 128) (d : Line) : Prop where
  pkts : t.pkts = s.pkts.put id { p with stage := .burst, missed := true }
  msys : t.msys = { s.msys with bursts := s.msys.bursts ++
    [{ chan := channelOf p.addr, ctx := p.ctx, line := p.line, write, data := d, mask, pkt := some id,
       poison := if write = true ∧ (p.op = 2 ∨ p.op = 3) then p.poison else 0 }] }
  rest : t = { s with pkts := t.pkts, msys := t.msys, mon := t.mon }

/-- The packet goes back to where it came from as an answer of type `op` that carries what `f` puts there (R35). -/
def Replied (s t : State) (id : Nat) (p : Pkt) (op : Nat) (f : Pkt → Pkt) : Prop :=
  t.ops = s.ops ∧ t.regs = s.regs ∧ ∃ n, t.pkts = s.pkts.put id
    (f { p with op, drt := p.srt, dep := p.sep, srt := p.drt, sep := p.dep, stage := .net p.drt, arr := n, came := s.now, inp := p.dep })

/-- One more packet of an operation is over, with a failure if `fail` tells of one (R39, R174). -/
def OneLess (t : State) (id : Nat) (o : Op) (fail : Option (Nat × W64 × Nat)) : Prop :=
  t.ops.find id = some { o with left := o.left - 1, fail := match o.fail with | some x => some x | none => fail }

/-- The operand of an atomic at byte i of a line, and the line's byte j after it, whose bytes were `base` (R340). -/
def atomOld (p : Pkt) (d : Line) : W64 := BitVec.ofNat 64 (d.toNat / 2 ^ (8 * (p.addr % 128)) % 2 ^ (8 * atomSize p.aop))
def atomByte (p : Pkt) (l : LaneAcc) (d : Line) (base : Nat → Byte) (j : Nat) : Byte :=
  let i := p.addr % 128
  if i ≤ j ∧ j < i + atomSize p.aop then (atomNew p.aop (atomOld p d) l.x l.y).extractLsb' (8 * (j - i)) 8 else base j

/-- An atomic packet of one lane whose operand lies in its line, at a line of which L2 holds those bytes unpoisoned (R156). -/
structure AtomHit (s : State) (p : Pkt) (l : LaneAcc) (k : L2Line) : Prop where
  lane : p.lanes = [l]
  inside : p.addr % 128 + atomSize p.aop ≤ 128
  ways : s.l2Mask p.ctx ≠ 0
  line : s.msys.l2Find (s.ctxSg p.ctx) p.line = some k
  there : p.needs &&& ~~~k.valid = 0
  sent : p.poison = 0
  clean : k.poison.getLsbD (p.addr % 128 / 8) = false

/-- L2 does not hold the bytes that the packet needs for its server group, or gives its context no way (R106, R156). -/
def State.misses (s : State) (p : Pkt) : Prop :=
  s.l2Mask p.ctx = 0 ∨ ∀ k, s.msys.l2Find (s.ctxSg p.ctx) p.line = some k → p.needs &&& ~~~k.valid ≠ 0

/-- A table entry at a level of a walk ends it with a fault: it is not valid, has a reserved bit set, C64 above level 0, or is a leaf
at level 3 (R166); or it names a table below level 0, which there is none of. -/
def badEntry (level : Nat) (e : W64) : Prop :=
  e.getLsbD 0 = false ∨ fld e 5 7 ≠ 0 ∨ fld e 39 25 ≠ 0 ∨ (e.getLsbD 4 = true ∧ level ≠ 0) ∨ (e.getLsbD 3 = true ∧ level = 3) ∨ (e.getLsbD 3 = false ∧ level = 0)

/-- The walker of a unit has gone on to a table entry: it reads it by one request of the management context, of class 0 and past L2
(R102, R166, R167). -/
structure WalkReads (s t : State) (u : Nat) (k : Walk) : Prop where
  walk : (t.walker u).walk = some k
  op : t.ops = s.ops.put s.stamp { core := 256, kind := .walkRead u, ctx := mgmtCtx, left := 1, lanes := [{ lane := 0, addr := k.entry }], size := 8 }
  sent : ∃ q, t.pkts = s.pkts.put (s.stamp + 1) q ∧ q.op = 1 ∧ q.cls = 0 ∧ q.ctx = mgmtCtx ∧ q.addr = k.entry ∧ q.opId = s.stamp

/-- What RECV is to hold where the peers' descriptors agree, of every peer's SEND in peer order: sums and maxima are taken pairwise, in
some order (R239, R356). -/
def Coll.holds (c : Coll) (own : Nat) (sends : List (Nat × Bytes)) (bs : Bytes) : Prop :=
  ∃ order : List Bytes, order.Perm (sends.map Prod.snd) ∧
    let sum := collReduce c.ty c.op c.count order
    let part := c.count / sends.length * collSize c.ty
    (c.op = 0 → bs = ((sends.find? fun e => e.1 == c.root).map Prod.snd).getD []) ∧ (c.op = 1 ∨ c.op = 2 → bs = sum) ∧
      (c.op = 3 → bs = sends.flatMap Prod.snd) ∧ (c.op = 4 → bs = (sum.drop (part * (sends.filter fun e => e.1 < own).length)).take part)

/-! ## Cores and engines -/

/-- A request comes before another in grant order: of a class-0 context before others, then the older, then matrix, vector, copy, then the
lower core and quarter (R143). -/
def State.GrantsFirst (s : State) (a b : Resv) : Prop :=
  a.since < 2 ^ 64 ∧ b.since < 2 ^ 64 ∧ a.core < 256 ∧ b.core < 256 ∧ a.quarter < 4 ∧ b.quarter < 4 ∧
    ((s.firstClass a = true ∧ s.firstClass b = false) ∨ s.firstClass a = s.firstClass b ∧ (a.since < b.since ∨ a.since = b.since ∧
      (a.unit.order < b.unit.order ∨ a.unit = b.unit ∧ (a.core < b.core ∨ a.core = b.core ∧ a.quarter < b.quarter))))

/-- A free reservation is retired before another: that which became free first, then the lower core, then matrix, vector, copy (R143). -/
def Resv.RetiresFirst (a b : Resv) : Prop :=
  a.core < 256 ∧ b.core < 256 ∧ a.quarter < 4 ∧ b.quarter < 4 ∧
    (a.since < b.since ∨ a.since = b.since ∧ (a.core < b.core ∨ a.core = b.core ∧ (a.unit.order < b.unit.order ∨ a.unit = b.unit ∧ a.quarter < b.quarter)))

/-- A core in service on which nothing stands: no group, no team, no context slot in use. -/
structure State.bareCore (s : State) (c : Nat) : Prop where
  groups : (s.core c).groups = []
  slots : (s.core c).slots = []
  teams : s.teamsOn c = []
  serves : s.boot.remap ≠ some (c / 2) ∧ s.boot.outOfService.contains (false, c / 2) = false

/-- A path that stops waiting and goes on past the instruction it waited in (R294, R295). -/
def Path.goneOn (p : Path) : Path := { p with wait := .none, pc := p.pc + 4, left := p.left - 1 }

/-- One path of one group has changed, and no other group of the device. -/
structure PathChanged (s t : State) (core slot path : Nat) (g : Group) (p : Path) : Prop where
  group : ∃ h, t.group? core slot = some h ∧ h = { g with paths := h.paths } ∧ h.path path = p ∧ ∀ i, i ≠ path → h.path i = g.path i
  groups : ∀ c sl, (c, sl) ≠ (core, slot) → t.group? c sl = s.group? c sl
  memory : t.msys = s.msys

/-- The paths of one group have changed as `f` says, and nothing else of it. -/
def PathsAre (t : State) (core slot : Nat) (g : Group) (f : Nat → Path) : Prop :=
  ∃ h, t.group? core slot = some h ∧ h = { g with paths := h.paths } ∧ ∀ i, i < 8 → h.path i = f i

/-- A server instance that stands at an engine (R98). -/
def State.stands (s : State) (v : Srv) (r : SrvRef) : Prop := (s.srvs.find? fun u => u.is r.cls r.inst r.ctx r.route) = some v

/-- The instance has become `v`, and nothing else has changed. -/
def SrvIs (s t : State) (r : SrvRef) (v : Srv) : Prop := t.stands v r ∧ t = { s with srvs := t.srvs }

/-- A franking meter has risen by x (R112). -/
def Metered (s t : State) (ctx cls x : Nat) : Prop := t.reg (.fmeter ctx cls) = s.reg (.fmeter ctx cls) + BitVec.ofNat 64 x

end Sys2Proof.Machine
end

