-- ==== Sys2Proof/Safety/Lane.lean ====
section
/-! DEFINITION. What the claims say each lane instruction writes: tables from an instruction to its operands and its
value, with integer results as integers (R312 to R316). -/

namespace Sys2Proof.Machine

/-- A lane instruction as the claims see it: its size and S bit, the checks beyond those of its V fields, and what it
writes. -/
structure LaneForm where
  size : Nat := 4
  sp : BitVec 1 := 0
  ok : IssueCtx → Bool := fun _ => true
  op : IssueCtx → LaneOp

def LaneForm.inf (F : LaneForm) (g : Group) : Info := { size := F.size, sp := F.sp == 1, beats := beatsOf g }

/-- Lane results on signed and on unsigned integers, taken modulo 2³². -/
def sInt (f : Int → Int → Int) (a b _d : W32) : W32 := BitVec.ofInt 32 (f a.toInt b.toInt)
def uInt (f : Int → Int → Int) (a b _d : W32) : W32 := BitVec.ofInt 32 (f a.toNat b.toNat)

/-- The integer nearest to x in [lo, hi] (R234). -/
def clamp (lo hi x : Int) : Int := max lo (min hi x)

/-- An element as an integer, signed or not. -/
def elemInt {n : Nat} (signed : Bool) (x : BitVec n) : Int := if signed then x.toInt else x.toNat

/-- The two halves, and the four bytes, of a lane taken apart (R316). -/
def halves (signed : Bool) (f : Int → Int → Int) (a b _d : W32) : W32 :=
  let e (k : Nat) : BitVec 16 := BitVec.ofInt 16 (f (elemInt signed (a.extractLsb' (16 * k) 16)) (elemInt signed (b.extractLsb' (16 * k) 16)))
  e 1 ++ e 0
def bytes (signed : Bool) (f : Int → Int → Int) (a b _d : W32) : W32 :=
  let e (k : Nat) : BitVec 8 := BitVec.ofInt 8 (f (elemInt signed (a.extractLsb' (8 * k) 8)) (elemInt signed (b.extractLsb' (8 * k) 8)))
  e 3 ++ e 2 ++ e 1 ++ e 0

/-- d plus the four products of bytes (R312, R316). -/
def dotBytes (signed : Bool) (a b d : W32) : W32 :=
  let p (k : Nat) : Int := elemInt signed (a.extractLsb' (8 * k) 8) * elemInt signed (b.extractLsb' (8 * k) 8)
  BitVec.ofInt 32 (d.toInt + p 0 + p 1 + p 2 + p 3)

/-- The operands that most lane instructions share (R305, R209). -/
def laneOp (x : IssueCtx) (base word : Nat) (srcs : List Nat) (dst : Nat) (pred : BitVec 2) : LaneOp :=
  { opw := some (BitVec.ofNat 32 (base + word)), srcs, dst, mask := x.g.written x.p pred.toNat, lane := fun _ => 0 }

/-- The formats of R266 and R271 with their operands a, b and d. -/
def vaForm (base : Nat) (f : VA) (v : W32 → W32 → W32 → W32) : LaneForm :=
  { sp := f.sp, op := fun x => { laneOp x base f.word [f.a.toNat, f.b.toNat] f.d.toNat f.pred with
      lane := fun l => v ((x.vsrc f.a.toNat).lane l) ((x.vsrc f.b.toNat).lane l) 0 } }
def vuForm (base : Nat) (f : VA) (v : W32 → W32 → W32 → W32) : LaneForm :=
  { sp := f.sp, ok := fun x => (x.sWait [f.b.toNat]).isNone
    op := fun x => { laneOp x base f.word [f.a.toNat] f.d.toNat f.pred with
      uval := (x.g.sreg f.b.toNat).setWidth 64, lane := fun l => v ((x.vsrc f.a.toNat).lane l) (x.g.sreg f.b.toNat) 0 } }
def va3Form (base : Nat) (f : VA) (v : W32 → W32 → W32 → W32) : LaneForm :=
  { sp := f.sp, op := fun x => { laneOp x base f.word [f.a.toNat, f.b.toNat] f.d.toNat f.pred with
      rmw := true, lane := fun l => v ((x.vsrc f.a.toNat).lane l) ((x.vsrc f.b.toNat).lane l) ((x.vold f.d.toNat).lane l) } }
def vu3Form (base : Nat) (f : VA) (v : W32 → W32 → W32 → W32) : LaneForm :=
  { sp := f.sp, ok := fun x => (x.sWait [f.b.toNat]).isNone
    op := fun x => { laneOp x base f.word [f.a.toNat] f.d.toNat f.pred with
      rmw := true, uval := (x.g.sreg f.b.toNat).setWidth 64
      lane := fun l => v ((x.vsrc f.a.toNat).lane l) (x.g.sreg f.b.toNat) ((x.vold f.d.toNat).lane l) } }
def unForm (base : Nat) (f : VUn) (v : W32 → W32 → W32 → W32) (word : Nat := f.word) : LaneForm :=
  { sp := f.sp, op := fun x => { laneOp x base word [f.a.toNat] f.d.toNat f.pred with
      lane := fun l => v ((x.vsrc f.a.toNat).lane l) 0 0 } }
def constForm (base : Nat) (sp : BitVec 1) (pred : BitVec 2) (d : BitVec 6) (v : Nat → W32) (word : Nat) : LaneForm :=
  { sp, op := fun x => { laneOp x base word [] d.toNat pred with lane := v } }
/-- A 16-bit parcel is its 32-bit form with A = D and B = A; its D names no queue (R271, R309). -/
def nForm (base : Nat) (f : NF) (v : W32 → W32 → W32 → W32) : LaneForm :=
  { size := 2, ok := fun x => decide (f.d.toNat < x.d.vbase + x.d.vext)
    op := fun x => { laneOp x base (f.d.toNat * 2048 + f.d.toNat * 131072 + f.a.toNat * 8388608) [f.d.toNat, f.a.toNat] f.d.toNat 0 with
      lane := fun l => v ((x.g.vreg f.d.toNat).lane l) ((x.g.vreg f.a.toNat).lane l) 0 } }
def nMovForm (base : Nat) (f : NF) : LaneForm :=
  { size := 2, ok := fun x => decide (f.d.toNat < x.d.vbase + x.d.vext)
    op := fun x => { laneOp x base (f.d.toNat * 2048 + f.a.toNat * 131072) [f.a.toNat] f.d.toNat 0 with
      lane := (x.g.vreg f.a.toNat).lane } }

/-- Integer lane instructions (R312 to R316, R271). -/
def laneInteger : Instr → Option LaneForm
  | .vadd f => some (vaForm 1 f (sInt (fun a b => a + b)))
  | .vaddVu f => some (vuForm 3 f (sInt (fun a b => a + b)))
  | .vsub f => some (vaForm 65 f (sInt (fun a b => a - b)))
  | .vsubVu f => some (vuForm 67 f (sInt (fun a b => a - b)))
  | .vmul f => some (vaForm 129 f (sInt (fun a b => a * b)))
  | .vmulVu f => some (vuForm 131 f (sInt (fun a b => a * b)))
  | .vmulhS32 f => some (vaForm 193 f (sInt (fun a b => a * b / 2 ^ 32)))
  | .vmulhS32Vu f => some (vuForm 195 f (sInt (fun a b => a * b / 2 ^ 32)))
  | .vand f => some (vaForm 321 f (fun a b _ => a &&& b))
  | .vandVu f => some (vuForm 323 f (fun a b _ => a &&& b))
  | .vor f => some (vaForm 385 f (fun a b _ => a ||| b))
  | .vorVu f => some (vuForm 387 f (fun a b _ => a ||| b))
  | .vxor f => some (vaForm 449 f (fun a b _ => a ^^^ b))
  | .vxorVu f => some (vuForm 451 f (fun a b _ => a ^^^ b))
  | .vshl f => some (vaForm 577 f (uInt (fun a b => a * 2 ^ b.toNat)))
  | .vshlVu f => some (vuForm 579 f (uInt (fun a b => a * 2 ^ b.toNat)))
  | .vshr f => some (vaForm 641 f (uInt (fun a b => a / 2 ^ b.toNat)))
  | .vshrVu f => some (vuForm 643 f (uInt (fun a b => a / 2 ^ b.toNat)))
  | .vsar f => some (vaForm 705 f (fun a b _ => BitVec.ofInt 32 (a.toInt / 2 ^ b.toNat)))
  | .vsarVu f => some (vuForm 707 f (fun a b _ => BitVec.ofInt 32 (a.toInt / 2 ^ b.toNat)))
  | .vminS32 f => some (vaForm 769 f (sInt (fun a b => min a b)))
  | .vminS32Vu f => some (vuForm 771 f (sInt (fun a b => min a b)))
  | .vmaxS32 f => some (vaForm 833 f (sInt (fun a b => max a b)))
  | .vmaxS32Vu f => some (vuForm 835 f (sInt (fun a b => max a b)))
  | .vaddsS32 f => some (vaForm 961 f (sInt (fun a b => clamp (-(2 ^ 31)) (2 ^ 31 - 1) (a + b))))
  | .vaddsS32Vu f => some (vuForm 963 f (sInt (fun a b => clamp (-(2 ^ 31)) (2 ^ 31 - 1) (a + b))))
  | .vsubsS32 f => some (vaForm 1025 f (sInt (fun a b => clamp (-(2 ^ 31)) (2 ^ 31 - 1) (a - b))))
  | .vsubsS32Vu f => some (vuForm 1027 f (sInt (fun a b => clamp (-(2 ^ 31)) (2 ^ 31 - 1) (a - b))))
  | .vbfe f => some (vaForm 1345 f (fun a b _ => BitVec.ofNat 32 (a.toNat / 2 ^ (b.toNat % 32) % 2 ^ (b.toNat / 256 % 32))))
  | .vbfeVu f => some (vuForm 1347 f (fun a b _ => BitVec.ofNat 32 (a.toNat / 2 ^ (b.toNat % 32) % 2 ^ (b.toNat / 256 % 32))))
  | .vmulhZ32 f => some (vaForm 13 f (uInt (fun a b => a * b / 2 ^ 32)))
  | .vmulhZ32Vu f => some (vuForm 15 f (uInt (fun a b => a * b / 2 ^ 32)))
  | .vminZ32 f => some (vaForm 77 f (uInt (fun a b => min a b)))
  | .vminZ32Vu f => some (vuForm 79 f (uInt (fun a b => min a b)))
  | .vmaxZ32 f => some (vaForm 141 f (uInt (fun a b => max a b)))
  | .vmaxZ32Vu f => some (vuForm 143 f (uInt (fun a b => max a b)))
  | .vaddsZ32 f => some (vaForm 205 f (uInt (fun a b => clamp 0 (2 ^ 32 - 1) (a + b))))
  | .vaddsZ32Vu f => some (vuForm 207 f (uInt (fun a b => clamp 0 (2 ^ 32 - 1) (a + b))))
  | .vsubsZ32 f => some (vaForm 269 f (uInt (fun a b => clamp 0 (2 ^ 32 - 1) (a - b))))
  | .vsubsZ32Vu f => some (vuForm 271 f (uInt (fun a b => clamp 0 (2 ^ 32 - 1) (a - b))))
  | .vmad f => some (va3Form 257 f (fun a b d => BitVec.ofInt 32 (a.toInt * b.toInt + d.toInt)))
  | .vmadVu f => some (vu3Form 259 f (fun a b d => BitVec.ofInt 32 (a.toInt * b.toInt + d.toInt)))
  | .vbfi f => some (va3Form 1409 f bfi)
  | .vbfiVu f => some (vu3Form 1411 f bfi)
  | .vdot4S8 f => some (va3Form 1729 f (dotBytes true))
  | .vdot4S8Vu f => some (vu3Form 1731 f (dotBytes true))
  | .vdot4Z8 f => some (va3Form 333 f (dotBytes false))
  | .vdot4Z8Vu f => some (vu3Form 335 f (dotBytes false))
  | .vnot f => some (unForm 513 f (fun a _ _ => BitVec.ofInt 32 (-1 - a.toInt)))
  | .vabs f => some (unForm 897 f (fun a _ _ => BitVec.ofInt 32 a.toInt.natAbs))
  | .vmov f => some (unForm 1217 f (fun a _ _ => a))
  | .vclz f => some (unForm 1473 ⟨f.sp, f.pred, f.a, f.d⟩ (fun a _ _ => perElem (cntWidth f.w.toNat) (clz (cntWidth f.w.toNat)) a) f.word)
  | .vctz f => some (unForm 1537 ⟨f.sp, f.pred, f.a, f.d⟩ (fun a _ _ => perElem (cntWidth f.w.toNat) (ctz (cntWidth f.w.toNat)) a) f.word)
  | .vffs f => some (unForm 1601 ⟨f.sp, f.pred, f.a, f.d⟩ (fun a _ _ => perElem (cntWidth f.w.toNat) (ffs (cntWidth f.w.toNat)) a) f.word)
  | .vpopc f => some (unForm 1665 ⟨f.sp, f.pred, f.a, f.d⟩ (fun a _ _ => perElem (cntWidth f.w.toNat) (popc (cntWidth f.w.toNat)) a) f.word)
  | .vli f => some (constForm 1281 f.sp f.pred f.d (fun _ => BitVec.ofInt 32 (f.i ++ f.j).toInt) f.word)
  | .vaddN f => some (nForm 1 f (sInt (fun a b => a + b)))
  | .vsubN f => some (nForm 65 f (sInt (fun a b => a - b)))
  | .vmulN f => some (nForm 129 f (sInt (fun a b => a * b)))
  | .vandN f => some (nForm 321 f (fun a b _ => a &&& b))
  | .vorN f => some (nForm 385 f (fun a b _ => a ||| b))
  | .vxorN f => some (nForm 449 f (fun a b _ => a ^^^ b))
  | .vshlN f => some (nForm 577 f (uInt (fun a b => a * 2 ^ b.toNat)))
  | .vshrN f => some (nForm 641 f (uInt (fun a b => a / 2 ^ b.toNat)))
  | .vsarN f => some (nForm 705 f (fun a b _ => BitVec.ofInt 32 (a.toInt / 2 ^ b.toNat)))
  | .vminS32N f => some (nForm 769 f (sInt (fun a b => min a b)))
  | .vmaxS32N f => some (nForm 833 f (sInt (fun a b => max a b)))
  | .vmovN f => some (nMovForm 1217 f)
  | _ => none

/-- Packed 16-bit and 8-bit lane instructions (R316). -/
def lanePacked : Instr → Option LaneForm
  | .vaddI16x2 f => some (vaForm 525 f (halves true (fun a b => a + b)))
  | .vaddI16x2Vu f => some (vuForm 527 f (halves true (fun a b => a + b)))
  | .vsubI16x2 f => some (vaForm 589 f (halves true (fun a b => a - b)))
  | .vsubI16x2Vu f => some (vuForm 591 f (halves true (fun a b => a - b)))
  | .vmulI16x2 f => some (vaForm 653 f (halves true (fun a b => a * b)))
  | .vmulI16x2Vu f => some (vuForm 655 f (halves true (fun a b => a * b)))
  | .vminS16x2 f => some (vaForm 717 f (halves true (fun a b => min a b)))
  | .vminS16x2Vu f => some (vuForm 719 f (halves true (fun a b => min a b)))
  | .vmaxS16x2 f => some (vaForm 781 f (halves true (fun a b => max a b)))
  | .vmaxS16x2Vu f => some (vuForm 783 f (halves true (fun a b => max a b)))
  | .vaddsS16x2 f => some (vaForm 973 f (halves true (fun a b => clamp (-(2 ^ 15)) (2 ^ 15 - 1) (a + b))))
  | .vaddsS16x2Vu f => some (vuForm 975 f (halves true (fun a b => clamp (-(2 ^ 15)) (2 ^ 15 - 1) (a + b))))
  | .vsubsS16x2 f => some (vaForm 1037 f (halves true (fun a b => clamp (-(2 ^ 15)) (2 ^ 15 - 1) (a - b))))
  | .vsubsS16x2Vu f => some (vuForm 1039 f (halves true (fun a b => clamp (-(2 ^ 15)) (2 ^ 15 - 1) (a - b))))
  | .vminZ16x2 f => some (vaForm 845 f (halves false (fun a b => min a b)))
  | .vminZ16x2Vu f => some (vuForm 847 f (halves false (fun a b => min a b)))
  | .vmaxZ16x2 f => some (vaForm 909 f (halves false (fun a b => max a b)))
  | .vmaxZ16x2Vu f => some (vuForm 911 f (halves false (fun a b => max a b)))
  | .vaddsZ16x2 f => some (vaForm 1101 f (halves false (fun a b => clamp 0 (2 ^ 16 - 1) (a + b))))
  | .vaddsZ16x2Vu f => some (vuForm 1103 f (halves false (fun a b => clamp 0 (2 ^ 16 - 1) (a + b))))
  | .vsubsZ16x2 f => some (vaForm 1165 f (halves false (fun a b => clamp 0 (2 ^ 16 - 1) (a - b))))
  | .vsubsZ16x2Vu f => some (vuForm 1167 f (halves false (fun a b => clamp 0 (2 ^ 16 - 1) (a - b))))
  | .vaddI8x4 f => some (vaForm 1229 f (bytes true (fun a b => a + b)))
  | .vaddI8x4Vu f => some (vuForm 1231 f (bytes true (fun a b => a + b)))
  | .vsubI8x4 f => some (vaForm 1293 f (bytes true (fun a b => a - b)))
  | .vsubI8x4Vu f => some (vuForm 1295 f (bytes true (fun a b => a - b)))
  | .vmulI8x4 f => some (vaForm 1357 f (bytes true (fun a b => a * b)))
  | .vmulI8x4Vu f => some (vuForm 1359 f (bytes true (fun a b => a * b)))
  | .vminS8x4 f => some (vaForm 1421 f (bytes true (fun a b => min a b)))
  | .vminS8x4Vu f => some (vuForm 1423 f (bytes true (fun a b => min a b)))
  | .vmaxS8x4 f => some (vaForm 1485 f (bytes true (fun a b => max a b)))
  | .vmaxS8x4Vu f => some (vuForm 1487 f (bytes true (fun a b => max a b)))
  | .vaddsS8x4 f => some (vaForm 1677 f (bytes true (fun a b => clamp (-(2 ^ 7)) (2 ^ 7 - 1) (a + b))))
  | .vaddsS8x4Vu f => some (vuForm 1679 f (bytes true (fun a b => clamp (-(2 ^ 7)) (2 ^ 7 - 1) (a + b))))
  | .vsubsS8x4 f => some (vaForm 1741 f (bytes true (fun a b => clamp (-(2 ^ 7)) (2 ^ 7 - 1) (a - b))))
  | .vsubsS8x4Vu f => some (vuForm 1743 f (bytes true (fun a b => clamp (-(2 ^ 7)) (2 ^ 7 - 1) (a - b))))
  | .vminZ8x4 f => some (vaForm 1549 f (bytes false (fun a b => min a b)))
  | .vminZ8x4Vu f => some (vuForm 1551 f (bytes false (fun a b => min a b)))
  | .vmaxZ8x4 f => some (vaForm 1613 f (bytes false (fun a b => max a b)))
  | .vmaxZ8x4Vu f => some (vuForm 1615 f (bytes false (fun a b => max a b)))
  | .vaddsZ8x4 f => some (vaForm 1805 f (bytes false (fun a b => clamp 0 (2 ^ 8 - 1) (a + b))))
  | .vaddsZ8x4Vu f => some (vuForm 1807 f (bytes false (fun a b => clamp 0 (2 ^ 8 - 1) (a + b))))
  | .vsubsZ8x4 f => some (vaForm 1869 f (bytes false (fun a b => clamp 0 (2 ^ 8 - 1) (a - b))))
  | .vsubsZ8x4Vu f => some (vuForm 1871 f (bytes false (fun a b => clamp 0 (2 ^ 8 - 1) (a - b))))
  | _ => none

/-- Floating-point lane instructions (R317 to R321, R271). -/
def laneFloat : Instr → Option LaneForm
  | .faddF32 f => some (vaForm 5 f (fun a b _ => fp32.add 0 a b))
  | .faddF32Vu f => some (vuForm 7 f (fun a b _ => fp32.add 0 a b))
  | .faddF32Rz f => some (vaForm 57 f (fun a b _ => fp32.add 1 a b))
  | .faddF32RzVu f => some (vuForm 59 f (fun a b _ => fp32.add 1 a b))
  | .faddF32Ru f => some (vaForm 313 f (fun a b _ => fp32.add 2 a b))
  | .faddF32RuVu f => some (vuForm 315 f (fun a b _ => fp32.add 2 a b))
  | .faddF32Rd f => some (vaForm 569 f (fun a b _ => fp32.add 3 a b))
  | .faddF32RdVu f => some (vuForm 571 f (fun a b _ => fp32.add 3 a b))
  | .faddF16x2 f => some (vaForm 901 f (fun a b _ => map2H (fp16.add 0) a b))
  | .faddF16x2Vu f => some (vuForm 903 f (fun a b _ => map2H (fp16.add 0) a b))
  | .faddBf16x2 f => some (vaForm 1157 f (fun a b _ => map2H (bf16.add 0) a b))
  | .faddBf16x2Vu f => some (vuForm 1159 f (fun a b _ => map2H (bf16.add 0) a b))
  | .fsubF32 f => some (vaForm 69 f (fun a b _ => fp32.sub 0 a b))
  | .fsubF32Vu f => some (vuForm 71 f (fun a b _ => fp32.sub 0 a b))
  | .fsubF32Rz f => some (vaForm 121 f (fun a b _ => fp32.sub 1 a b))
  | .fsubF32RzVu f => some (vuForm 123 f (fun a b _ => fp32.sub 1 a b))
  | .fsubF32Ru f => some (vaForm 377 f (fun a b _ => fp32.sub 2 a b))
  | .fsubF32RuVu f => some (vuForm 379 f (fun a b _ => fp32.sub 2 a b))
  | .fsubF32Rd f => some (vaForm 633 f (fun a b _ => fp32.sub 3 a b))
  | .fsubF32RdVu f => some (vuForm 635 f (fun a b _ => fp32.sub 3 a b))
  | .fsubF16x2 f => some (vaForm 965 f (fun a b _ => map2H (fp16.sub 0) a b))
  | .fsubF16x2Vu f => some (vuForm 967 f (fun a b _ => map2H (fp16.sub 0) a b))
  | .fsubBf16x2 f => some (vaForm 1221 f (fun a b _ => map2H (bf16.sub 0) a b))
  | .fsubBf16x2Vu f => some (vuForm 1223 f (fun a b _ => map2H (bf16.sub 0) a b))
  | .fmulF32 f => some (vaForm 133 f (fun a b _ => fp32.mul 0 a b))
  | .fmulF32Vu f => some (vuForm 135 f (fun a b _ => fp32.mul 0 a b))
  | .fmulF32Rz f => some (vaForm 185 f (fun a b _ => fp32.mul 1 a b))
  | .fmulF32RzVu f => some (vuForm 187 f (fun a b _ => fp32.mul 1 a b))
  | .fmulF32Ru f => some (vaForm 441 f (fun a b _ => fp32.mul 2 a b))
  | .fmulF32RuVu f => some (vuForm 443 f (fun a b _ => fp32.mul 2 a b))
  | .fmulF32Rd f => some (vaForm 697 f (fun a b _ => fp32.mul 3 a b))
  | .fmulF32RdVu f => some (vuForm 699 f (fun a b _ => fp32.mul 3 a b))
  | .fmulF16x2 f => some (vaForm 1029 f (fun a b _ => map2H (fp16.mul 0) a b))
  | .fmulF16x2Vu f => some (vuForm 1031 f (fun a b _ => map2H (fp16.mul 0) a b))
  | .fmulBf16x2 f => some (vaForm 1285 f (fun a b _ => map2H (bf16.mul 0) a b))
  | .fmulBf16x2Vu f => some (vuForm 1287 f (fun a b _ => map2H (bf16.mul 0) a b))
  | .fminF32 f => some (vaForm 261 f (fun a b _ => fp32.minMax false a b))
  | .fminF32Vu f => some (vuForm 263 f (fun a b _ => fp32.minMax false a b))
  | .fminF16x2 f => some (vaForm 825 f (fun a b _ => map2H (fp16.minMax false) a b))
  | .fminF16x2Vu f => some (vuForm 827 f (fun a b _ => map2H (fp16.minMax false) a b))
  | .fminBf16x2 f => some (vaForm 953 f (fun a b _ => map2H (bf16.minMax false) a b))
  | .fminBf16x2Vu f => some (vuForm 955 f (fun a b _ => map2H (bf16.minMax false) a b))
  | .fmaxF32 f => some (vaForm 325 f (fun a b _ => fp32.minMax true a b))
  | .fmaxF32Vu f => some (vuForm 327 f (fun a b _ => fp32.minMax true a b))
  | .fmaxF16x2 f => some (vaForm 889 f (fun a b _ => map2H (fp16.minMax true) a b))
  | .fmaxF16x2Vu f => some (vuForm 891 f (fun a b _ => map2H (fp16.minMax true) a b))
  | .fmaxBf16x2 f => some (vaForm 1017 f (fun a b _ => map2H (bf16.minMax true) a b))
  | .fmaxBf16x2Vu f => some (vuForm 1019 f (fun a b _ => map2H (bf16.minMax true) a b))
  | .fscale f => some (vaForm 645 f (fun a b _ => fscale a b))
  | .fscaleVu f => some (vuForm 647 f (fun a b _ => fscale a b))
  | .fdot2F16 f => some (va3Form 773 f (fdot2 fp16))
  | .fdot2F16Vu f => some (vu3Form 775 f (fdot2 fp16))
  | .fdot2Bf16 f => some (va3Form 837 f (fdot2 bf16))
  | .fdot2Bf16Vu f => some (vu3Form 839 f (fdot2 bf16))
  | .faccF16x2 f => some (va3Form 1093 f (map3H (fp16.acc 0)))
  | .faccF16x2Vu f => some (vu3Form 1095 f (map3H (fp16.acc 0)))
  | .faccBf16x2 f => some (va3Form 1349 f (map3H (bf16.acc 0)))
  | .faccBf16x2Vu f => some (vu3Form 1351 f (map3H (bf16.acc 0)))
  | .faccF32 f => some (va3Form 197 f (fp32.acc 0))
  | .faccF32Vu f => some (vu3Form 199 f (fp32.acc 0))
  | .faccF32Rz f => some (va3Form 249 f (fp32.acc 1))
  | .faccF32RzVu f => some (vu3Form 251 f (fp32.acc 1))
  | .faccF32Ru f => some (va3Form 505 f (fp32.acc 2))
  | .faccF32RuVu f => some (vu3Form 507 f (fp32.acc 2))
  | .faccF32Rd f => some (va3Form 761 f (fp32.acc 3))
  | .faccF32RdVu f => some (vu3Form 763 f (fp32.acc 3))
  | .fneg f => some (unForm 389 f (fun a _ _ => fneg a))
  | .fabs f => some (unForm 453 f (fun a _ _ => fabs a))
  | .fclass f => some (unForm 581 f (fun a _ _ => fclass a))
  | .rcp f => some (unForm 1413 f (fun a _ _ => special FV.rcp a))
  | .rsq f => some (unForm 1477 f (fun a _ _ => special FV.rsq a))
  | .sqrt f => some (unForm 1541 f (fun a _ _ => special FV.sqrt a))
  | .exp2 f => some (unForm 1605 f (fun a _ _ => special FV.exp2 a))
  | .log2 f => some (unForm 1669 f (fun a _ _ => special FV.log2 a))
  | .sin f => some (unForm 1733 f (fun a _ _ => special FV.sin a))
  | .cos f => some (unForm 1797 f (fun a _ _ => special FV.cos a))
  | .tanh f => some (unForm 1861 f (fun a _ _ => special FV.tanh a))
  | .frnd f => some (unForm 709 ⟨f.sp, f.pred, f.a, f.d⟩ (fun a _ _ => frnd f.o.toNat a) f.word)
  | .faddF32N f => some (nForm 5 f (fun a b _ => fp32.add 0 a b))
  | .fsubF32N f => some (nForm 69 f (fun a b _ => fp32.sub 0 a b))
  | .fmulF32N f => some (nForm 133 f (fun a b _ => fp32.mul 0 a b))
  | .fmaxF32N f => some (nForm 325 f (fun a b _ => fp32.minMax true a b))
  | _ => none

/-- Conversion and packing (R322 to R329). -/
def laneConvert : Instr → Option LaneForm
  | .cvtToF32 f => some { sp := f.sp, op := fun x =>
      { laneOp x 9 f.word [f.a.toNat] f.d.toNat f.pred with
        opw := if f.t = 12 then none else some (BitVec.ofNat 32 (9 + f.word))
        lane := fun l => fp32.code 32 0 (cvtElem x.g.cb f.t.toNat f.i.toNat ((x.vsrc f.a.toNat).lane l)) } }
  | .cvtFromF32 f => some (unForm 73 ⟨f.sp, f.pred, f.a, f.d⟩ (fun a _ _ => cvtTo f.t.toNat f.o.toNat (fp32.value a.toNat)) f.word)
  | .cvtInt f => some (unForm 137 ⟨f.sp, f.pred, f.a, f.d⟩ (fun a _ _ => cvtInt f.x.toNat f.y.toNat a) f.word)
  | .cvtF16F8 f => some { sp := f.sp, op := fun x =>
      let wide := if f.f = 1 then bf16 else fp16
      let narrow := if f.e = 1 then e5m2 else e4m3
      { laneOp x 201 f.word [f.a.toNat] f.d.toNat f.pred with
        rmw := f.w = 0
        lane := fun l =>
          let a := (x.vsrc f.a.toNat).lane l
          if f.w = 1 then widenPair narrow wide f.h.toNat a else narrowPair wide narrow f.o.toNat f.h.toNat a ((x.vold f.d.toNat).lane l) } }
  | .pack2 f => some { sp := f.sp, op := fun x =>
      let t := if f.t = 1 then bf16 else fp16
      let half (k l : Nat) : BitVec 16 := t.code 16 f.o.toNat (fp32.value ((x.g.vreg (f.a.toNat + k)).lane l).toNat)
      { laneOp x 265 f.word [] f.d.toNat f.pred with
        runs := [(f.a.toNat, 2)], lane := fun l => half 1 l ++ half 0 l } }
  | .pack4 f => some { sp := f.sp, op := fun x =>
      let ty := 2 * f.t.toNat + f.tlo.toNat
      let m := f.o.toNat
      let v (k l : Nat) : FV := fp32.value ((x.g.vreg (f.a.toNat + k)).lane l).toNat
      let old := x.vold f.d.toNat
      let codes (t : Fmt) (l : Nat) : W32 :=
        setByte (setByte (setByte (setByte 0 0 (t.enc m (v 0 l))) 1 (t.enc m (v 1 l))) 2 (t.enc m (v 2 l))) 3 (t.enc m (v 3 l))
      let nibs (l : Nat) : W32 :=
        setNib (setNib (setNib (setNib (old.lane l) 0 (e2m1.enc m (v 0 l))) 1 (e2m1.enc m (v 1 l))) 2 (e2m1.enc m (v 2 l))) 3
          (e2m1.enc m (v 3 l))
      let lns : VReg := BitVec.ofNat 2048 (if ty = 2 then stream6 0 (fun e => lnsEnc m (v (e % 4) (e / 4))) (4 * x.w) else 0)
      { runs := [(f.a.toNat, 4)], dst := f.d.toNat, rmw := ty = 3
        mask := if ty = 2 then fullMask x.w else x.g.written x.p f.pred.toNat
        lane := fun l => if ty = 0 then codes e4m3 l else if ty = 1 then codes e5m2 l else if ty = 2 then lns.lane l else nibs l } }
  | .unpk f => some { sp := f.sp, op := fun x =>
      let t := if f.o = 1 then fp16 else bf16
      let e (k l : Nat) : BitVec 16 := t.code 16 0 (cvtElem x.g.cb (unpkType f.y.toNat) (2 * f.j.toNat + k) ((x.vsrc f.a.toNat).lane l))
      { laneOp x 393 f.word [f.a.toNat] f.d.toNat f.pred with
        opw := if f.y = 6 then none else some (BitVec.ofNat 32 (393 + f.word)), lane := fun l => e 1 l ++ e 0 l } }
  | .pk6 f => some { sp := f.sp, op := fun x =>
      let r := (x.vold f.d.toNat).setStream (f.j.toNat * x.w) x.w fun l => ((x.vsrc f.a.toNat).lane l).toNat % 64
      { laneOp x 457 f.word [f.a.toNat] f.d.toNat f.pred with rmw := true, mask := fullMask x.w, lane := r.lane } }
  | .upk6 f => some { sp := f.sp, op := fun x =>
      { laneOp x 521 f.word [f.a.toNat] f.d.toNat f.pred with
        lane := fun l => BitVec.ofNat 32 ((x.vsrc f.a.toNat).code6 (f.j.toNat * x.w + l)) } }
  | .cbenc f => some { sp := f.sp, op := fun x =>
      { laneOp x 0 0 [f.a.toNat] f.d.toNat f.pred with
        opw := none, rmw := true
        lane := fun l => setNib ((x.vold f.d.toNat).lane l) f.n.toNat (cbEnc x.g.cb (fp32.value ((x.vsrc f.a.toNat).lane l).toNat)) } }
  | _ => none

/-- Selection, cross-lane reads, combinations and the ballot (R315, R331 to R333). -/
def laneCross : Instr → Option LaneForm
  | .vsel f => some { sp := f.sp, op := fun x =>
      { srcs := [f.a.toNat, f.b.toNat], dst := f.d.toNat, mask := x.p.mask
        lane := fun l => if (x.g.p.get 0 f.pred.toNat).getLsbD l then (x.vsrc f.a.toNat).lane l else (x.vsrc f.b.toNat).lane l } }
  | .vselVu f => some { sp := f.sp, ok := fun x => (x.sWait [f.b.toNat]).isNone, op := fun x =>
      { srcs := [f.a.toNat], dst := f.d.toNat, mask := x.p.mask
        lane := fun l => if (x.g.p.get 0 f.pred.toNat).getLsbD l then (x.vsrc f.a.toNat).lane l else x.g.sreg f.b.toNat } }
  | .shfl f => some { sp := f.sp, op := fun x =>
      { laneOp x 713 f.word [f.a.toNat, f.b.toNat] f.d.toNat f.pred with
        xr := (lanesOf x.w (x.g.written x.p f.pred.toNat)).any fun l => x.w ≤ ((x.vsrc f.b.toNat).lane l).toNat
        mm := x.badMember f.pred.toNat
        lane := fun l => crossLane x.w (x.vsrc f.a.toNat) ((x.vsrc f.b.toNat).lane l).toNat } }
  | .shflVu f => some { sp := f.sp, ok := fun x => (x.sWait [f.b.toNat]).isNone, op := fun x =>
      { laneOp x 715 f.word [f.a.toNat] f.d.toNat f.pred with
        uval := (x.g.sreg f.b.toNat).setWidth 64
        xr := (lanesOf x.w (x.g.written x.p f.pred.toNat)).any fun _ => x.w ≤ (x.g.sreg f.b.toNat).toNat
        mm := x.badMember f.pred.toNat
        lane := fun _ => crossLane x.w (x.vsrc f.a.toNat) (x.g.sreg f.b.toNat).toNat } }
  | .bcast f => some { sp := f.sp, op := fun x =>
      { laneOp x 841 f.word [f.a.toNat] f.d.toNat f.pred with
        xr := (lanesOf x.w (x.g.written x.p f.pred.toNat)).any fun _ => x.w ≤ f.k.toNat
        lane := fun _ => crossLane x.w (x.vsrc f.a.toNat) f.k.toNat } }
  | .lanei f => some (constForm 905 f.sp f.pred f.d (fun l => BitVec.ofNat 32 l) f.word)
  | .redu f => some { sp := f.sp, op := fun x =>
      { laneOp x 969 f.word [f.a.toNat] f.d.toNat f.pred with
        mm := x.badMember f.pred.toNat
        lane := fun _ => combineOver f.o.toNat (x.vsrc f.a.toNat) (lanesOf x.w (x.g.written x.p f.pred.toNat)) } }
  | .scan f => some { sp := f.sp, op := fun x =>
      { laneOp x 1033 f.word [f.a.toNat] f.d.toNat f.pred with
        mm := x.badMember f.pred.toNat
        lane := fun l => combineOver f.o.toNat (x.vsrc f.a.toNat)
          ((lanesOf x.w (x.g.written x.p f.pred.toNat)).filter fun k => k < l || (k == l && f.e == 0)) } }
  | .vote f => if f.o ≠ 2 then none else some { sp := f.sp, op := fun x =>
      let m := x.g.written x.p f.pred.toNat
      let b := x.g.preg x.p f.a.toNat &&& m
      { dst := f.d.toNat, mask := m, mm := x.badMember f.pred.toNat
        lane := fun l => if x.w = 64 ∧ l % 2 = 1 then b.extractLsb' 32 32 else b.extractLsb' 0 32 } }
  | _ => none

/-- A lane instruction whose result is a predicate (R305, R315, R318, R332, R334). -/
structure PredForm where
  sp : BitVec 1
  srcs : List Nat := []
  ok : IssueCtx → Bool := fun _ => true
  pd : Nat
  pred : BitVec 2
  mm : IssueCtx → Bool := fun _ => false
  bit : IssueCtx → Nat → Bool

def PredForm.inf (F : PredForm) (g : Group) : Info := { sp := F.sp == 1, beats := beatsOf g }

def cmpForm (f : VCmpF) (cc : Nat → W32 → W32 → Bool) : PredForm :=
  { sp := f.sp, srcs := [f.a.toNat, f.b.toNat], pd := f.d.toNat, pred := f.pred
    bit := fun x l => cc f.c.toNat ((x.vsrc f.a.toNat).lane l) ((x.vsrc f.b.toNat).lane l) }
def cmpVuForm (f : VCmpF) (cc : Nat → W32 → W32 → Bool) : PredForm :=
  { sp := f.sp, srcs := [f.a.toNat], ok := fun x => (x.sWait [f.b.toNat]).isNone, pd := f.d.toNat, pred := f.pred
    bit := fun x l => cc f.c.toNat ((x.vsrc f.a.toNat).lane l) (x.g.sreg f.b.toNat) }
def predForm (f : PredF) (op : Bool → Bool → Bool) : PredForm :=
  { sp := f.sp, pd := f.d.toNat, pred := f.pred
    bit := fun x l => op ((x.g.preg x.p f.a.toNat).getLsbD l) ((x.g.preg x.p f.b.toNat).getLsbD l) }

/-- VOTE any (0) and all (1) over the active member lanes (R332). -/
def voteBit (o : Nat) (p m : W64) : Bool := if o = 0 then p &&& m != 0 else p &&& m == m

/-- Instructions that write a predicate. -/
def lanePred : Instr → Option PredForm
  | .vcmp f => some (cmpForm f ccInt)
  | .vcmpVu f => some (cmpVuForm f ccInt)
  | .fcmp f => some (cmpForm f ccFloat)
  | .fcmpVu f => some (cmpVuForm f ccFloat)
  | .pand f => some (predForm f and)
  | .por f => some (predForm f or)
  | .pxor f => some (predForm f xor)
  | .pnot f => some (predForm ⟨f.sp, f.pred, 0, f.a, f.d⟩ fun a _ => !a)
  | .pmov f => some (predForm ⟨f.sp, f.pred, 0, f.a, f.d⟩ fun a _ => a)
  | .vote f => if f.o = 2 then none else some { sp := f.sp, pd := f.d.toNat, pred := f.pred, mm := (fun x => x.badMember f.pred.toNat), bit := fun x _ => voteBit f.o.toNat (x.g.preg x.p f.a.toNat) (x.g.written x.p f.pred.toNat) }
  | _ => none

/-- The group after an instruction that writes a predicate: the written lanes of Pd take the new bits (R305). -/
def PredForm.after (F : PredForm) (x : IssueCtx) : Group :=
  let m := x.g.written x.p F.pred.toNat
  let new := (x.g.p.get 0 F.pd &&& ~~~m) ||| (laneMask x.w (F.bit x) &&& m)
  { x.g with p := SMap.set 0 x.g.p F.pd new, gsr := x.g.gsr ||| if F.mm x then 0x20 else 0
             queues := (queuesOf x.d F.srcs).foldl (fun qs q => qs.put q (SMap.get {} qs q).pop) x.g.queues }

end Sys2Proof.Machine
end

