-- ==== Sys2Proof/Certificates/Slice0/Obligations.lean ====
section
/-! DEFINITION. What is claimed of the machine: one statement for each of OBLIGATIONS.json, named as there. -/

open Sys2Proof Sys2Proof.Machine

/-- O1. Every integer lane instruction of the table laneInteger writes its result, computed on integers modulo 2^32 or clamped, into the written lanes of its destination register or queue, and retires. It completes whenever it is well coded, its path issues, and its registers and queues are ready; nothing else changes but what counting the issue charges. Every packed integer lane instruction of the table lanePacked computes each half or byte on its own, as integers wrapped or clamped to the element, and retires. It completes whenever it is well coded, its path issues, and its registers and queues are ready; nothing else changes but what counting the issue charges. -/
def Obligations.LaneIntegerResults : Prop :=
  (∀ (i : Instr) (F : LaneForm) (s : State) (c : Cur) (g : Group), laneInteger i = some F → i.illegalCode = none →
    Issues s c g (F.inf g) → F.ok (s.issuing c g) = true → LaneReady (s.issuing c g) (F.op (s.issuing c g)) →
    ∃ e t, exec i s = .next t ∧ LaneWrote (s.issuing c g) (F.op (s.issuing c g)) e ∧ Retired s e t c g (F.inf g)) ∧
  (∀ (i : Instr) (F : LaneForm) (s : State) (c : Cur) (g : Group), lanePacked i = some F → i.illegalCode = none →
    Issues s c g (F.inf g) → F.ok (s.issuing c g) = true → LaneReady (s.issuing c g) (F.op (s.issuing c g)) →
    ∃ e t, exec i s = .next t ∧ LaneWrote (s.issuing c g) (F.op (s.issuing c g)) e ∧ Retired s e t c g (F.inf g))

/-- O2. Every floating-point lane instruction of the table laneFloat writes its result in the written lanes and retires. It completes whenever it is well coded, its path issues, and its registers and queues are ready; nothing else changes but what counting the issue charges. Every conversion, packing and codebook instruction of the table laneConvert writes its result and retires. It completes whenever it is well coded, its path issues, and its registers and queues are ready; nothing else changes but what counting the issue charges. -/
def Obligations.LaneFloatResults : Prop :=
  (∀ (i : Instr) (F : LaneForm) (s : State) (c : Cur) (g : Group), laneFloat i = some F → i.illegalCode = none →
    Issues s c g (F.inf g) → F.ok (s.issuing c g) = true → LaneReady (s.issuing c g) (F.op (s.issuing c g)) →
    ∃ e t, exec i s = .next t ∧ LaneWrote (s.issuing c g) (F.op (s.issuing c g)) e ∧ Retired s e t c g (F.inf g)) ∧
  (∀ (i : Instr) (F : LaneForm) (s : State) (c : Cur) (g : Group), laneConvert i = some F → i.illegalCode = none →
    Issues s c g (F.inf g) → F.ok (s.issuing c g) = true → LaneReady (s.issuing c g) (F.op (s.issuing c g)) →
    ∃ e t, exec i s = .next t ∧ LaneWrote (s.issuing c g) (F.op (s.issuing c g)) e ∧ Retired s e t c g (F.inf g))

/-- O3. VSEL, SHFL, BCAST, LANEI, REDU, SCAN and VOTE.ballot write their result, with the sticky bits XR and MM, and retire. It completes whenever it is well coded, its path issues, and its registers and queues are ready; nothing else changes but what counting the issue charges. -/
def Obligations.LaneCrossResults : Prop :=
  ∀ (i : Instr) (F : LaneForm) (s : State) (c : Cur) (g : Group), laneCross i = some F → i.illegalCode = none →
    Issues s c g (F.inf g) → F.ok (s.issuing c g) = true → LaneReady (s.issuing c g) (F.op (s.issuing c g)) →
    ∃ e t, exec i s = .next t ∧ LaneWrote (s.issuing c g) (F.op (s.issuing c g)) e ∧ Retired s e t c g (F.inf g)

/-- O4. VCMP, FCMP, VOTE any and all, PAND, POR, PXOR, PNOT and PMOV write the written lanes of Pd and nothing else, and retire. -/
def Obligations.LanePredicateResults : Prop :=
  ∀ (i : Instr) (F : PredForm) (s : State) (c : Cur) (g : Group), lanePred i = some F → i.illegalCode = none →
    Issues s c g (F.inf g) → F.ok (s.issuing c g) = true → (s.issuing c g).laneFault F.srcs [] [] = none →
    (s.issuing c g).laneWait F.srcs [] [] = none →
    Retires s c g i (F.inf g) (s.withGroup c fun _ => F.after (s.issuing c g))

/-- O5. Every uniform instruction of the table uniResult writes its result into S[D] when its registers are not pending, changes no other register, flag, memory byte or unit, and retires. A uniform instruction of the table one of whose S registers is pending parks its path on that register: nothing is written or charged. UCMP with a relation code of 0 to 9 sets Kk to a cc b; USEL writes S[D] with a if Kk is 1 and with b otherwise. A relation code of 10 or more traps as illegal with code 4. -/
def Obligations.UniformResults : Prop :=
  (∀ (i : Instr) (U : UniForm) (s : State) (c : Cur) (g : Group), uniResult i = some U → i.illegalCode = none →
    Issues s c g {} → (s.issuing c g).sWait [U.a, U.b, U.d] = none →
    Retires s c g i {} (s.withGroup c fun h => h.setS U.d (U.op (g.sreg U.a) (g.sreg U.b) (g.sreg U.d)))) ∧
  (∀ (i : Instr) (U : UniForm) (s : State) (c : Cur) (g : Group) (w : Await), uniResult i = some U → i.illegalCode = none →
    Issues s c g {} → (s.issuing c g).sWait [U.a, U.b, U.d] = some w → Parks s c i w) ∧
  ((∀ (f : UCmpF) (s : State) (c : Cur) (g : Group), (Instr.ucmp f).illegalCode = none → Issues s c g {} →
    (s.issuing c g).sWait [f.a.toNat, f.b.toNat] = none → Retires s c g (.ucmp f) {} (s.withGroup c fun h =>
      h.setK f.k.toNat (uniRelation f.c.toNat (g.sreg f.a.toNat) (g.sreg f.b.toNat)))) ∧
  (∀ (f : UCmpF) (s : State) (c : Cur) (g : Group), 10 ≤ f.c.toNat → Issues s c g {} → Traps s c g (.ucmp f) 1 0 4) ∧
  (∀ (f : USelF) (s : State) (c : Cur) (g : Group), (Instr.usel f).illegalCode = none → Issues s c g {} →
    (s.issuing c g).sWait [f.a.toNat, f.b.toNat, f.d.toNat] = none → Retires s c g (.usel f) {} (s.withGroup c fun h =>
      h.setS f.d.toNat (if g.kreg f.k.toNat then g.sreg f.a.toNat else g.sreg f.b.toNat))))

/-- O6. URDS of a selector below 0x100 writes S[D] with what R302 says the selector reads, one by one: the group, its team's place in the grid, the core, the path and the words of the handler's fault record. Of a selector from 0x100 on, an even one takes a snapshot of its counter as it stands and writes the low half; an odd one writes the high half of the group's snapshot if that is of the same counter, and of the counter as it stands otherwise; counter 15 and counters from 21 on read 0. A selector of GSR parks while a direction write that came before is in the pipe, and one R302 does not list is illegal with code 2. RDPM writes the postmark into a pair; UWRS of GSR writes NORU and clears the sticky bits written as 1, and UWRS of K writes K0 to K3. RACQ sets GSR.EXT when the block is not acquired and the core's pool has room, has no effect when it is acquired or VEXT is 0, and parks when the pool has no room; RREL has no effect when the block is not acquired, and otherwise, with no write to the block in flight, makes every extended register read 0 and clears EXT. -/
def Obligations.StateSelectors : Prop :=
  ((∀ (f : UI) (s : State) (c : Cur) (g : Group) (t : Team) (x y z : Nat) (v : W32), (Instr.urds f).illegalCode = none → Issues s c g {} →
    (s.issuing c g).sWait [f.d.toNat] = none → s.team? g.team = some t →
    let d := (s.grid g.grid).desc
    x < d.gx → y < d.gy → t.idx = x + d.gx * (y + d.gy * z) → (f.i.toNat, v) ∈ selectorReads c g d x y z →
    (f.i = 0 → ∀ w ∈ g.dpipe, w.id ∉ (g.path c.path).past) →
    Retires s c g (.urds f) {} (s.withGroup c fun h => h.setS f.d.toNat v)) ∧
  (∀ (f : UI) (s : State) (c : Cur) (g : Group) (e : Nat), (Instr.urds f).illegalCode = none → Issues s c g {} →
    (s.issuing c g).sWait [f.d.toNat] = none → e < 128 →
    let v := s.off.counterNow c.core g e
    (f.i.toNat = 0x100 + 2 * e → Retires s c g (.urds f) {} (s.withGroup c fun h =>
      ({ h with snap := some (e, v) } : Group).setS f.d.toNat (halfOf v.toNat 0))) ∧
    (f.i.toNat = 0x101 + 2 * e → (∀ u, g.snap = some (e, u) → Retires s c g (.urds f) {} (s.withGroup c fun h =>
        h.setS f.d.toNat (halfOf u.toNat 1))) ∧
      ((∀ u, g.snap ≠ some (e, u)) → Retires s c g (.urds f) {} (s.withGroup c fun h => h.setS f.d.toNat (halfOf v.toNat 1)))) ∧
    (e = 15 ∨ 21 ≤ e → v = 0)) ∧
  (∀ (f : UI) (s : State) (c : Cur) (g : Group), (Instr.urds f).illegalCode = none → Issues s c g {} →
    (s.issuing c g).sWait [f.d.toNat] = none → f.i = 0 → (∃ w ∈ g.dpipe, w.id ∈ (g.path c.path).past) → Parks s c (.urds f) .dpipes) ∧
  (∀ (f : UI) (s : State) (c : Cur) (g : Group), f.d.toNat < 192 → Issues s c g {} →
    (∀ v, (f.i.toNat, v) ∉ selectorReads c g {} 0 0 0) → (f.i.toNat < 0x100 ∨ 0x200 ≤ f.i.toNat) → Traps s c g (.urds f) 1 0 2) ∧
  (∀ (f : RdpmF) (s : State) (c : Cur) (g : Group), (Instr.rdpm f).illegalCode = none → Issues s c g {} →
    (s.issuing c g).sWait [f.d.toNat, f.d.toNat + 1] = none → Retires s c g (.rdpm f) {} (s.withGroup c fun h =>
      (h.setS f.d.toNat (BitVec.ofNat 32 s.now)).setS (f.d.toNat + 1) (BitVec.ofNat 32 (s.now / 2 ^ 32)))) ∧
  (∀ (f : UI) (s : State) (c : Cur) (g : Group), (Instr.uwrs f).illegalCode = none → Issues s c g {} →
    (s.issuing c g).sWait [f.d.toNat] = none → f.i = 2 → Retires s c g (.uwrs f) {} (s.withGroup c fun h =>
      { h with k := (g.sreg f.d.toNat).setWidth 4 })) ∧
  (∀ (f : UI) (s : State) (c : Cur) (g : Group), (Instr.uwrs f).illegalCode = none → Issues s c g {} →
    (s.issuing c g).sWait [f.d.toNat] = none → f.i = 0 → ∃ w : W32, Retires s c g (.uwrs f) {} (s.withGroup c fun h => { h with gsr := w }) ∧
      ∀ n : Nat, w.getLsbD n = if n = 2 then (g.sreg f.d.toNat).getLsbD 2
        else if 4 ≤ n ∧ n ≤ 7 then g.gsr.getLsbD n && !(g.sreg f.d.toNat).getLsbD n else g.gsr.getLsbD n)) ∧
  (∀ (s : State) (c : Cur) (g : Group), Issues s c g {} →
    let vext := (s.grid g.grid).desc.vext
    (g.gsrBit 3 = true ∨ vext = 0 → Retires s c g .racq {} s.off) ∧
    (g.gsrBit 3 = false → vext ≠ 0 → s.off.poolFits c.core g.wc vext = true →
      Retires s c g .racq {} (s.withGroup c fun h => { h with gsr := h.gsr ||| 8 })) ∧
    (g.gsrBit 3 = false → vext ≠ 0 → s.off.poolFits c.core g.wc vext = false → Parks s c .racq .pool) ∧
    (g.gsrBit 3 = false → Retires s c g .rrel {} s.off) ∧
    (g.gsrBit 3 = true → (∀ r, r < vext → (s.issuing c g).vPending ((s.grid g.grid).desc.vbase + r) = false) →
      ∃ e h, Retires s c g .rrel {} e ∧ e.group? c.core c.slot = some h ∧
        h = { g with gsr := g.gsr &&& ~~~8, v := h.v, vname := h.vname } ∧
        ∀ n, h.vreg n = if (s.grid g.grid).desc.vbase ≤ n ∧ n < (s.grid g.grid).desc.vbase + vext then 0 else g.vreg n))

/-- O7. BRA transfers to PC + 2 x SInt(OFF) if its condition holds on every lane of the path and otherwise retires to the next clause; BRAK does so by Kk or NOT Kk. A target that fails its check traps at the branch, and nothing else changes; a branch that is not taken checks no target (that branches other than JMPI and RET check theirs so is the model's reading: log 78, DEDUCED). The order is R289's for JMPI and RET and, by log 78 (DEDUCED), that of every transfer. An odd target or one with a bit of [63:52] set is class 1 with code 6; then a target whose parcel, of two bytes or four as its bit 0 says, is outside the fetch rights is class 3 with the address; then a parcel that is no clause header is class 1 with code 6; any other target passes. With t the lanes on which the condition holds: t = 0 retires; t = the mask transfers; otherwise with a free entry the path keeps m AND NOT t, the lowest free entry takes mask t, the target and a LINK to the path; with no free entry class 15 is raised and nothing changes. What the path had issued before the BRX is before what either path issues after it. The target is checked before the table (log 78, DEDUCED). -/
def Obligations.BranchesTaken : Prop :=
  ((∀ (f : BraF) (s : State) (c : Cur) (g : Group), (Instr.bra f).illegalCode = none → Issues s c g { last := true } →
    let p := g.path c.path
    let dest := p.pc + BitVec.ofInt 64 (2 * f.o.toInt)
    let taken := ∀ l : Nat, p.mask.getLsbD l = true → (g.preg p f.n.toNat).getLsbD l = decide (f.g ≠ 1)
    (taken → (s.issuing c g).targetFault dest = none → Transfers s c g (.bra f) { last := true } s.off dest) ∧
    (taken → ∀ cls va det, (s.issuing c g).targetFault dest = some (cls, va, det) → Traps s c g (.bra f) cls va det) ∧
    (¬ taken → Retires s c g (.bra f) { last := true } s.off)) ∧
  (∀ (f : BrakF) (s : State) (c : Cur) (g : Group), Issues s c g { last := true } →
    let dest := (g.path c.path).pc + BitVec.ofInt 64 (2 * f.o.toInt)
    let taken := g.kreg f.k.toNat = decide (f.g ≠ 1)
    (taken → (s.issuing c g).targetFault dest = none → Transfers s c g (.brak f) { last := true } s.off dest) ∧
    (taken → ∀ cls va det, (s.issuing c g).targetFault dest = some (cls, va, det) → Traps s c g (.brak f) cls va det) ∧
    (¬ taken → Retires s c g (.brak f) { last := true } s.off))) ∧
  (∀ (x : IssueCtx) (a : W64),
    let misplaced := a.toNat % 2 = 1 ∨ 2 ^ 52 ≤ a.toNat
    let first := x.s.virtRead x.g.ctx a.toNat 1
    let right := x.s.mayFetch x.gr false a.toNat 2 = true ∧ (first % 2 = 1 → x.s.mayFetch x.gr false a.toNat 4 = true)
    let header := first % 64 = 63
    (misplaced → x.targetFault a = some (1, 0, 6)) ∧ (¬ misplaced → ¬ right → x.targetFault a = some (3, a, 0)) ∧
    (¬ misplaced → right → ¬ header → x.targetFault a = some (1, 0, 6)) ∧ (¬ misplaced → right → header → x.targetFault a = none)) ∧
  (∀ (f : BraF) (s : State) (c : Cur) (g : Group), (Instr.brx f).illegalCode = none → Issues s c g { last := true } →
    let p := g.path c.path
    let dest := p.pc + BitVec.ofInt 64 (2 * f.o.toInt)
    let t := p.mask &&& (if f.g = 1 then ~~~(g.preg p f.n.toNat) else g.preg p f.n.toNat)
    (t = 0 → Retires s c g (.brx f) { last := true } s.off) ∧
    (t = p.mask → t ≠ 0 → (s.issuing c g).targetFault dest = none → Transfers s c g (.brx f) { last := true } s.off dest) ∧
    (t ≠ 0 → ∀ cls va det, (s.issuing c g).targetFault dest = some (cls, va, det) → Traps s c g (.brx f) cls va det) ∧
    (t ≠ p.mask → t ≠ 0 → (s.issuing c g).targetFault dest = none → (∀ i, i < 8 → (g.path i).valid = true) →
      Traps s c g (.brx f) 15 0 0) ∧
    (∀ i, t ≠ p.mask → t ≠ 0 → (s.issuing c g).targetFault dest = none → i < 8 → (g.path i).valid = false →
      (∀ j, j < i → (g.path j).valid = true) → p.valid = true →
      ∃ e h, Retires s c g (.brx f) { last := true } e ∧ e.group? c.core c.slot = some h ∧ h = { g with paths := h.paths } ∧
        h.path i = { valid := true, mask := t, pc := dest, link := c.path, linkv := true, hndl := p.hndl, frec := p.frec, born := s.stamp, past := p.past } ∧
        h.path c.path = { p with mask := p.mask &&& ~~~t } ∧ (∀ j, j < 8 → j ≠ i → j ≠ c.path → h.path j = g.path j) ∧
        (∀ n sl, (n, sl) ≠ (c.core, c.slot) → e.group? n sl = s.group? n sl) ∧ e.msys = s.msys ∧ e.regs = s.regs))

/-- O8. CALL writes the address of the next clause header into pair c and transfers to its target; JMPI and RET transfer to the address in pair c and clear HNDL. A target that fails its check traps and changes nothing; a pending pair parks. Of a JOIN at address J by a path p, while every other path that waits at a JOIN has a child or a parent that does not wait at one: with a child, none of them at a JOIN, p waits; with no child and a parent that waits at J, p is freed and its lanes and what it has issued join the parent's, which then goes on at the next clause if it is a root and p was its last child, and waits on if it has another; with no child and a parent that waits at a JOIN elsewhere, p goes on at the next clause; with a parent that waits at none, p waits; a root with no child goes on. If p is a root whose one child waits at a JOIN and has no child, then a child at J merges into p and p goes on, and a child elsewhere goes on while p waits. In any group JOIN retires and settles the paths that wait at JOINs and the barriers that they kept. EXIT on no lane has no effect; on some lanes it removes them from the path; on all of them it frees the path, whose children take its LINK and LINKV, and ends the group that has no other path. -/
def Obligations.CallsAndReturns : Prop :=
  ((∀ (f : CallF) (s : State) (c : Cur) (g : Group), Issues s c g { last := true } →
    let k := 2 * f.c.toNat
    let p := g.path c.path
    let dest := p.pc + BitVec.ofInt 64 (2 * f.o.toInt)
    (∀ w, (s.issuing c g).sWait [k, k + 1] = some w → Parks s c (.call f) w) ∧
    ((s.issuing c g).sWait [k, k + 1] = none → (s.issuing c g).targetFault dest = none → ∃ h, h.spair k = p.pc + 4 ∧
      (∀ r, r ≠ k → r ≠ k + 1 → h.sreg r = g.sreg r) ∧ h = { g with s := h.s } ∧
      Transfers s c g (.call f) { last := true } (s.withGroup c fun _ => h) dest) ∧
    ((s.issuing c g).sWait [k, k + 1] = none → ∀ cls va det, (s.issuing c g).targetFault dest = some (cls, va, det) →
      Traps s c g (.call f) cls va det)) ∧
  (∀ (f : JmpF) (s : State) (c : Cur) (g : Group), Issues s c g { last := true } →
    let k := 2 * f.c.toNat
    ∀ i, (i = Instr.jmpi f ∨ i = Instr.ret f) →
      (∀ w, (s.issuing c g).sWait [k, k + 1] = some w → Parks s c i w) ∧
      ((s.issuing c g).sWait [k, k + 1] = none → (s.issuing c g).targetFault (g.spair k) = none →
        Transfers s c g i { last := true } (s.withPath c fun p => { p with hndl := false }) (g.spair k)) ∧
      ((s.issuing c g).sWait [k, k + 1] = none → ∀ cls va det, (s.issuing c g).targetFault (g.spair k) = some (cls, va, det) →
        Traps s c g i cls va det))) ∧
  ((∀ (s : State) (c : Cur) (g : Group), Issues s c g { last := true } → Stays s c g .join { last := true }
    (((s.withPath c fun p => { p with wait := .join }).settleJoins c.core c.slot 16).settleBarriers c.core c.slot)) ∧
  (∀ (s : State) (c : Cur) (g : Group), Issues s c g { last := true } → g.paths.length = 8 →
    let n := c.path
    let p := g.path n
    let child (i q : Nat) := q < 8 ∧ (g.path q).valid = true ∧ (g.path q).linkv = true ∧ (g.path q).link = i
    let waits (i : Nat) := (g.path i).valid = true ∧ (g.path i).wait = .join
    let still (i : Nat) := waits i → (∃ q, child i q) ∨ ((g.path i).linkv = true ∧ (g.path (g.path i).link).wait ≠ .join)
    let on (q : Path) : Path := { q with wait := .none, pc := q.pc + 4, left := 0 }
    let merged (q r : Path) : Path := { q with mask := q.mask ||| r.mask, past := (q.past ++ r.past).eraseDups }
    let joins (P : Nat → Path → Prop) := ∃ e h, Stays s c g .join { last := true } e ∧ e.group? c.core c.slot = some h ∧
      h = { g with paths := h.paths } ∧ (∀ i, i < 8 → P i (h.path i)) ∧
      (∀ m sl, (m, sl) ≠ (c.core, c.slot) → e.group? m sl = s.group? m sl) ∧ e.msys = s.msys ∧ e.regs = s.regs ∧ e.ops = s.ops
    let lone (x : Path) := joins fun i h => h = if i = n then x else g.path i
    p.valid = true → p.wait = .none →
    ((∀ i, i < 8 → i ≠ n → still i) →
      ((∃ q, child n q) → (∀ q, child n q → (g.path q).wait ≠ .join) → lone { p with wait := .join }) ∧
      ((∀ q, ¬ child n q) → p.linkv = false → lone (on p)) ∧
      ((∀ q, ¬ child n q) → p.linkv = true → (g.path p.link).wait ≠ .join → lone { p with wait := .join }) ∧
      ((∀ q, ¬ child n q) → p.linkv = true → (g.path p.link).wait = .join → (g.path p.link).pc ≠ p.pc → lone (on p)) ∧
      ((∀ q, ¬ child n q) → p.linkv = true → p.link < 8 → waits p.link → (g.path p.link).pc = p.pc →
        ((∃ q, q ≠ n ∧ child p.link q) → joins fun i h => if i = n then h.valid = false else
          h = if i = p.link then merged (g.path i) p else g.path i) ∧
        ((∀ q, child p.link q → q = n) → (g.path p.link).linkv = false → joins fun i h => if i = n then h.valid = false else
          h = if i = p.link then on (merged (g.path i) p) else g.path i))) ∧
    (∀ r, r ≠ n → p.linkv = false → (∀ i, i < 8 → i ≠ n → i ≠ r → still i) → child n r → (∀ q, child n q → q = r) → waits r →
      (∀ q, ¬ child r q) →
      ((g.path r).pc = p.pc → joins fun i h => if i = r then h.valid = false else h = if i = n then on (merged p (g.path r)) else g.path i) ∧
      ((g.path r).pc ≠ p.pc → joins fun i h =>
        h = if i = n then { p with wait := .join } else if i = r then on (g.path r) else g.path i))) ∧
  (∀ (f : ExitF) (s : State) (c : Cur) (g : Group), Issues s c g { last := true } →
    let p := g.path c.path
    let lanes := p.mask &&& g.preg p f.n.toNat
    (lanes = 0 → Retires s c g (.exit f) { last := true } s.off) ∧
    (lanes ≠ 0 → lanes ≠ p.mask → Retires s c g (.exit f) { last := true } (s.withGroup c fun h =>
      { h with exited := h.exited ||| lanes, paths := (h.updPath c.path fun q => { q with mask := q.mask &&& ~~~lanes }).paths })) ∧
    (lanes ≠ 0 → lanes = p.mask → (∀ i, i < 8 → (g.path i).valid = true → (g.path i).wait ≠ .join) →
      ∃ t, exec (.exit f) s = .next t ∧
        ((∃ i, i < 8 ∧ i ≠ c.path ∧ (g.path i).valid = true) → ∃ e h, Stayed s e t c g { last := true } ∧
          e.group? c.core c.slot = some h ∧ h = { g with exited := g.exited ||| lanes, paths := h.paths } ∧
          (h.path c.path).valid = false ∧
          (∀ i, i < 8 → i ≠ c.path → h.path i = if (g.path i).valid = true ∧ (g.path i).linkv = true ∧ (g.path i).link = c.path
            then { g.path i with link := p.link, linkv := p.linkv } else g.path i) ∧
          (∀ m sl, (m, sl) ≠ (c.core, c.slot) → e.group? m sl = s.group? m sl) ∧ e.msys = s.msys ∧ e.regs = s.regs) ∧
        ((∀ i, i < 8 → i ≠ c.path → (g.path i).valid = false) → ∀ k, t.group? c.core c.slot = some k →
          k.done = true ∧ k.acc = none ∧ k.gsrBit 3 = false ∧ k.exited = g.exited ||| lanes ∧ ∀ i, i < 8 → (k.path i).valid = false))))

/-- O9. On a path at a clause boundary a header of LEN above 0 sets the length, the flags it selects and the flags it waits for, moves the path past it, and charges nothing; LEN 0 is illegal with code 6 and a header inside a clause is illegal with code 1. On an access thread it opens the clause if it selects and waits for no flag. -/
def Obligations.ClauseHeaders : Prop :=
  (∀ (f : Hdr) (s : State) (c : Cur) (g : Group), s.cur = some c → s.group? c.core c.slot = some g → c.access = false →
    g.lateOf c.path = none →
    ((g.path c.path).left = 0 → f.len ≠ 0 → exec (.clauseHeader f) s = .next (s.withPath c fun p => { p with
      pc := p.pc + 4, left := f.len.toNat, seta := f.seta, setb := f.setb, waitMask := f.wait, entry := decide (f.wait ≠ 0) })) ∧
    ((g.path c.path).left = 0 → f.len = 0 → Traps s c g (.clauseHeader f) 1 0 6) ∧
    ((g.path c.path).left ≠ 0 → Traps s c g (.clauseHeader f) 1 0 1)) ∧
  (∀ (f : Hdr) (s : State) (c : Cur) (g : Group) (a : Acc), s.cur = some c → s.group? c.core c.slot = some g → c.access = true →
    g.acc = some a → a.left = 0 → f.len ≠ 0 → f.wait = 0 → f.seta = 15 → f.setb = 15 →
    exec (.clauseHeader f) s = .next (s.withGroup c fun h => { h with acc := some { a with pc := a.pc + 4, left := f.len.toNat } }))

/-- O10. NOP retires with no effect; TRAP n raises class 16 at its PC with detail n; BKPT with DBGEN 0 retires with no effect and with DBGEN 1 retires and applies the stop of BKSCOPE. -/
def Obligations.PlainAndTrappingControl : Prop :=
  (∀ (s : State) (c : Cur) (g : Group), Issues s c g {} → Retires s c g .nop {} s.off) ∧
  (∀ (f : TrapF) (s : State) (c : Cur) (g : Group), Issues s c g {} → Traps s c g (.trap f) 16 0 f.n.toNat) ∧
  (∀ (s : State) (c : Cur) (g : Group), Issues s c g {} → s.rfld (.dbgcfg g.ctx) 0 1 = 0 → Retires s c g .bkpt {} s.off) ∧
  (∀ (s : State) (c : Cur) (g : Group), Issues s c g {} → s.rfld (.dbgcfg g.ctx) 0 1 = 1 →
    Retires s c g .bkpt {} (s.off.debugStop c.core c.slot c.path (s.rfld (.dbgcfg g.ctx) 13 2) 1 0))

/-- O11. YIELDD with OFF above 0 and an exponent of at most 13 sets the watchdog count to OFF x 2^COND in a grid with WDOG, and ends the run of its path; SLEEP with OFF 0 only yields, and otherwise parks until OFF x 2^COND ns from now. WAITMEM on an address its grid may read: if the word at the home slice satisfies the relation it retires with no effect; otherwise the path waits, with a watch and 64 us if its slice has one of 64 free and with a re-read after 1 us if not; an address it may not read raises class 3, and a read that fails (an address without a page, a slice out of service, a poisoned word) the class of its failure. -/
def Obligations.YieldsAndSleeps : Prop :=
  ((∀ (f : DelayF) (s : State) (c : Cur) (g : Group), (Instr.yieldd f).illegalCode = none → Issues s c g { yieldd := true } →
    Retires s c g (.yieldd f) { yieldd := true } (s.withGroup c fun h =>
      ({ h with watchdog := if (s.grid g.grid).desc.wdog then f.o.toNat * 2 ^ f.e.toNat else h.watchdog } : Group).updPath c.path fun p =>
        { p with run := 256 })) ∧
  (∀ (f : DelayF) (s : State) (c : Cur) (g : Group), Issues s c g {} →
    (f.o = 0 → Retires s c g (.sleep f) {} (s.withPath c fun p => { p with run := 256 })) ∧
    (f.o ≠ 0 → Stays s c g (.sleep f) {} (s.withPath c fun p =>
      { p with wait := .sleep (s.now + f.o.toNat * 2 ^ f.e.toNat) })))) ∧
  (∀ (f : WaitmemF) (s : State) (c : Cur) (g : Group), Issues s c g {} →
    let a := g.spair (2 * f.c.toNat) &&& ~~~3
    let v := g.sreg f.v.toNat
    (s.issuing c g).sWait [2 * f.c.toNat, 2 * f.c.toNat + 1, f.v.toNat] = none →
    (s.off.mayAccess (s.grid g.grid) 1 a.toNat 4 = false → Traps s c g (.waitmem f) 3 a 0) ∧
    (s.off.mayAccess (s.grid g.grid) 1 a.toNat 4 = true → ∀ cls det, s.off.homeWord g.ctx a.toNat = .error (cls, det) →
      Traps s c g (.waitmem f) cls a det) ∧
    (s.off.mayAccess (s.grid g.grid) 1 a.toNat 4 = true → ∀ w : W32, s.off.homeWord g.ctx a.toNat = .ok w →
      ((w = v ↔ f.e = 1) → Retires s c g (.waitmem f) {} s.off) ∧
      (¬ (w = v ↔ f.e = 1) → ∀ sl, s.off.watchSlice g.ctx a.toNat = some sl →
        let watch := decide (s.off.watches sl < 64)
        Stays s c g (.waitmem f) {} (s.withPath c fun p =>
          { p with wait := .mem a.toNat v (f.e == 1) watch (s.now + if watch then 64000 else 1000) }))))

/-- O12. With a group that has not yet arrived in the phase, a BARA records its path's arrival, and once every valid path of the group has arrived, the group's; BAR does the same and waits. In a group that has arrived both park until the phase ends. A BARW waits if its group has arrived and otherwise retires with no effect. An explicit count outside 1 to GPT raises class 1 with code 4. -/
def Obligations.BarrierArrivals : Prop :=
  (∀ (f : BarF) (s : State) (c : Cur) (g : Group) (t : Team), (Instr.bar f).illegalCode = none → Issues s c g {} →
    s.team? g.team = some t → (f.x = 1 → (s.issuing c g).sWait [f.v.toNat] = none) →
    let y := t.bar f.b.toNat
    (y.groups.contains g.num = true → Parks s c (.bara f) (.barPhase f.b.toNat y.phase) ∧ Parks s c (.bar f) (.barPhase f.b.toNat y.phase)) ∧
    (y.groups.contains g.num = false →
    let all := ∀ i, i < 8 → i ≠ c.path → (g.path i).valid = true → y.paths.contains (g.num, i) = true
    let n := (g.sreg f.v.toNat).toInt
    let ok := f.x = 1 → 1 ≤ n ∧ n ≤ ((s.grid g.grid).desc.gpt : Int)
    let e (y' : Barrier) := s.off.updTeam g.team fun t => t.setBar f.b.toNat y'
    let y1 : Barrier := { y with paths := if y.paths.contains (g.num, c.path) then y.paths else y.paths ++ [(g.num, c.path)] }
    let y2 : Barrier := { y1 with groups := y.groups ++ [g.num], arrivals := y.arrivals + 1, expected := if y.expected = 0 ∧ f.x = 1 then n.toNat else y.expected }
    (all → ¬ ok → Traps s c g (.bara f) 1 0 4 ∧ Traps s c g (.bar f) 1 0 4) ∧
    (¬ all → Retires s c g (.bara f) {} (e y1) ∧
      Stays s c g (.bar f) {} ((e y1).updPath c.core c.slot c.path fun p => { p with wait := .barrier f.b.toNat })) ∧
    (all → ok → Retires s c g (.bara f) {} (e y2) ∧
      Stays s c g (.bar f) {} ((e y2).updPath c.core c.slot c.path fun p => { p with wait := .barrier f.b.toNat })))) ∧
  (∀ (f : BarwF) (s : State) (c : Cur) (g : Group) (t : Team), Issues s c g {} → s.team? g.team = some t →
    ((t.bar f.b.toNat).groups.contains g.num = false → Retires s c g (.barw f) {} s.off) ∧
    ((t.bar f.b.toNat).groups.contains g.num = true →
      Stays s c g (.barw f) {} (s.withPath c fun p => { p with wait := .barrier f.b.toNat })))

/-- O13. An LDG of any form whose registers are ready, that no result-table entry stands for, that waits for no earlier store and has room on GLD and its flag, retires having started one load operation on the lines of its lanes' addresses: at home if it is local and its lanes may be read, on its group's route if a remote binding is on and the route open. Its result goes to its registers, which are its own from then on, or to the queue that D names, which fills. Under a binding whose route is not open it raises class 8. No byte of HBM or L2 changes. (That it waits for an earlier store to the bytes: log 117.) An STG of either form that is ready, that waits for no earlier load and has room on GST and its flag, retires having started one store operation that carries each lane's address and data, at home if it is local and its lanes may be written, on its group's route if a remote binding is on and the route open; no byte of HBM or L2 changes before its writes reach their home slices. Under a binding whose route is not open it raises class 8. With no lane to write it only retires. (That it waits for an earlier load of the bytes: log 117, DEDUCED.) A local LDG or STG with ready registers whose lowest failing lane may not be accessed raises that lane's fault; nothing is written, charged or started. -/
def Obligations.GlobalAccesses : Prop :=
  (∀ (i : Instr) (m : MemOp) (s : State) (c : Cur) (g : Group), globalLoad i = some m → i.illegalCode = none →
    Issues s c g (memInf m.sp g) → MemReady (s.issuing c g) m false →
    let x := s.issuing c g
    let ls := m.accesses x
    let size := formBytes m.form
    let mask := g.written (g.path c.path) m.pred.toNat
    let pages := touchedPages ls size
    let key := x.loadKey m.word m.n (g.spair m.b) mask m.d none pages
    let may := m.run = 1 ∧ g.rOn = false ∧ x.eligible (m.d :: m.n.toList) = true
    let look := may ∧ x.looksUp m.d mask = true
    (g.rOn = true → s.off.routeOpen g.ctx g.route = false → Traps s c g i 8 0 0) ∧
    (x.allowed ls size 1 → ls ≠ [] → x.storeWait g.rOn ls size = none → x.room 0 (x.flagOf m.l) = none →
      (look → (s.core c.core).lookup key = none) →
      let q := queueOf x.d.qmask m.d
      let o : Op := { m.started x (match q with | some k => .loadQ k m.form | none => .load m.d m.form) 0 ls with
        key := if look ∧ pages.length ≤ 4 then some key else none, named := if may then (s.core c.core).births key else [] }
      let u := (if look then s.off.own c.core g.ctx 2 1 else s.off).popQueues x m.n.toList
      let u := match q with
        | some k => u.updGroup c.core c.slot fun h => h.setQueue k { (h.queue k) with fills := (h.queue k).fills + 1 }
        | none => (runRegs (m.d, m.run)).foldl (fun u r => u.supersede c.core c.slot r mask) u
      let e := if g.rOn then u.startRemote o g.route g.fm (remoteReads o) else u.startOp o fun id s => s.reads id o (touchedLines ls size)
      SameBytes s e ∧ ((∃ h, e.group? c.core c.slot = some h) → Retires s c g i (memInf m.sp g) e))) ∧
  (∀ (i : Instr) (m : MemOp) (s : State) (c : Cur) (g : Group), globalStore i = some m → i.illegalCode = none →
    Issues s c g (memInf m.sp g) → MemReady (s.issuing c g) m true →
    let x := s.issuing c g
    let ls := (m.accesses x).map fun l => { l with x := x.storeData m.d m.run l.lane }
    let size := formBytes m.form
    let pops := if m.run = 1 then m.d :: m.n.toList else m.n.toList
    (g.rOn = true → s.off.routeOpen g.ctx g.route = false → Traps s c g i 8 0 0) ∧
    (x.allowed ls size 2 → (ls = [] → Retires s c g i (memInf m.sp g) (s.off.popQueues x pops)) ∧
      (ls ≠ [] → x.loadWait g.rOn ls size = none → x.room 1 (x.flagOf m.l) = none →
        let o : Op := { m.started x .store 1 ls with pages := if g.rOn then [] else touchedPages ls size }
        let u := (s.off.popQueues x pops).chose
        let e := if g.rOn then u.startRemote o g.route g.fm (remoteWrites o u.free) else u.startOp o fun id s => s.laneWrites id o u.free
        SameBytes s e ∧ ((∃ h, e.group? c.core c.slot = some h) → Retires s c g i (memInf m.sp g) e)))) ∧
  ((∀ (i : Instr) (m : MemOp) (s : State) (c : Cur) (g : Group) (cls : Nat) (va : W64) (det : Nat), globalLoad i = some m → i.illegalCode = none →
    Issues s c g (memInf m.sp g) → MemReady (s.issuing c g) m false → g.rOn = false →
    (s.issuing c g).accessFault? (m.accesses (s.issuing c g)) (formBytes m.form) 1 = some (cls, va, det) → Traps s c g i cls va det) ∧
  (∀ (i : Instr) (m : MemOp) (s : State) (c : Cur) (g : Group) (cls : Nat) (va : W64) (det : Nat), globalStore i = some m → i.illegalCode = none →
    Issues s c g (memInf m.sp g) → MemReady (s.issuing c g) m true → g.rOn = false →
    (s.issuing c g).accessFault? ((m.accesses (s.issuing c g)).map fun l => { l with x := (s.issuing c g).storeData m.d m.run l.lane })
      (formBytes m.form) 2 = some (cls, va, det) → Traps s c g i cls va det))

/-- O14. ULD and UST access the word at (S[A+1] || S[A]) + SInt(S[B]) with bits [1:0] taken as zero. When ready and allowed, ULD starts its read on GLD and UST its write of S[D] on GST; no byte changes at the issue. An access that is not allowed raises its fault. (The waits for earlier accesses to the word: log 117.) A local PREF that is ready and allowed retires having sent one prefetch request for each line its written lanes name, counted on GLD; with no lane, or under a remote binding, it only retires. -/
def Obligations.UniformMemory : Prop :=
  (∀ (f : UA) (s : State) (c : Cur) (g : Group), illegalUaMem f = none → Issues s c g {} →
    let x := s.issuing c g
    let a := 4 * ((g.spair f.a.toNat + BitVec.ofInt 64 (g.sreg f.b.toNat).toInt).toNat / 4)
    let l : LaneAcc := { lane := 0, addr := a, x := (g.sreg f.d.toNat).setWidth 64 }
    x.sWait [f.a.toNat, f.a.toNat + 1, f.b.toNat, f.d.toNat] = none →
    (∀ cls va det, x.accessFault? [l] 4 1 = some (cls, va, det) → Traps s c g (.uld f) cls va det) ∧
    (∀ cls va det, x.accessFault? [l] 4 2 = some (cls, va, det) → Traps s c g (.ust f) cls va det) ∧
    (x.accessFault? [l] 4 1 = none → x.storeWait false [l] 4 = none → x.room 0 none = none →
      let o : Op := { x.op (.uload f.d.toNat) with ctr := some 0, lanes := [l], size := 4 }
      let e := s.off.startOp o fun id s => s.reads id o [a / 128]
      SameBytes s e ∧ ((∃ h, e.group? c.core c.slot = some h) → Retires s c g (.uld f) {} e)) ∧
    (x.accessFault? [l] 4 2 = none → x.loadWait false [l] 4 = none → x.room 1 none = none →
      let o : Op := { x.op .store with ctr := some 1, lanes := [l], size := 4, pages := touchedPages [l] 4 }
      let e := s.off.startOp o fun id s => s.laneWrites id o 0
      SameBytes s e ∧ ((∃ h, e.group? c.core c.slot = some h) → Retires s c g (.ust f) {} e))) ∧
  (∀ (f : PrefF) (s : State) (c : Cur) (g : Group), (Instr.pref f).illegalCode = none → Issues s c g (memInf f.sp g) →
    let x := s.issuing c g
    let ls := (lanesOf x.w (g.written (g.path c.path) f.pred.toNat)).map fun l =>
      ({ lane := l, addr := (g.spair f.b.toNat + BitVec.ofInt 64 ((x.vsrc f.n.toNat).lane l).toInt).toNat } : LaneAcc)
    x.laneFault [f.n.toNat] [] [] = none → x.sWait [f.b.toNat, f.b.toNat + 1] = none → x.vWait (plainRegs x.d [f.n.toNat]) = none →
    x.popWait [f.n.toNat] = none →
    (g.rOn = true ∨ ls = [] → Retires s c g (.pref f) (memInf f.sp g) (s.off.popQueues x [f.n.toNat])) ∧
    (g.rOn = false → ls ≠ [] → x.accessFault? ls 1 1 = none → x.room 0 (x.flagOf f.l) = none →
      let o : Op := { x.op .pref with ctr := some 0, flag := x.flagOf f.l, lanes := ls, size := 1 }
      let e := (s.off.popQueues x [f.n.toNat]).startOp o fun id s => (touchedLines ls 1).map fun ln => s.request id o 6 (128 * ln)
      SameBytes s e ∧ ((∃ h, e.group? c.core c.slot = some h) → Retires s c g (.pref f) (memInf f.sp g) e)))

/-- O15. An ATOM or RED whose registers are ready and whose lanes are aligned and, if it is local, allowed, that waits for no earlier load and has room on its counter and flag, retires having sent one request of its operation for each active lane, at home or, under a remote binding, on its group's route. Lanes are checked in order of their numbers, and the first that fails raises its fault: class 3 with detail 2 if it is misaligned, else that of its access. Under a remote binding a scope other than 3 is illegal with code 4, and a route that is not open raises class 8. (The order of alignment and access within a lane, and the wait for earlier loads: logs 20 and 117.) -/
def Obligations.AtomicsStart : Prop :=
  ∀ (f : AtomF) (ret : Bool) (s : State) (c : Cur) (g : Group), (if ret then (Instr.atom f).illegalCode else (Instr.red f).illegalCode) = none →
    let i := if ret then Instr.atom f else Instr.red f
    let inf := memInf f.sp g
    Issues s c g inf →
    let x := s.issuing c g
    let op := f.o.toNat
    let d := f.d.toNat
    let run := atomRun op
    let size := atomSize op
    let ls := (lanesOf x.w x.p.mask).map fun l => ({ lane := l, addr := (g.spair f.b.toNat + BitVec.ofInt 64 ((x.vsrc f.n.toNat).lane l).toInt).toNat
                                                     x := (x.atomData d op l).1, y := (x.atomData d op l).2 } : LaneAcc)
    let ctr := if ret then 0 else 1
    let good (l : LaneAcc) := l.addr % size = 0 ∧ (g.rOn = false → x.laneAccess size (if ret then 3 else 2) l = none)
    let q := if ret = true ∧ run = 1 then queueOf x.d.qmask d else none
    x.memFault [f.n.toNat] d run = none → x.sWait [f.b.toNat, f.b.toNat + 1] = none → x.memWait [f.n.toNat] d run true ret = none →
    (g.rOn = true → f.c ≠ 3 → Traps s c g i 1 0 4) ∧
    (g.rOn = true → f.c = 3 → s.off.routeOpen g.ctx g.route = false → Traps s c g i 8 0 0) ∧
    ((g.rOn = true → f.c = 3 ∧ s.off.routeOpen g.ctx g.route = true) →
      (∀ pre l post, ls = pre ++ l :: post → (∀ m ∈ pre, good m) →
        (l.addr % size ≠ 0 → Traps s c g i 3 (BitVec.ofNat 64 l.addr) 2) ∧
        (l.addr % size = 0 → g.rOn = false → ∀ cls va det, x.laneAccess size (if ret then 3 else 2) l = some (cls, va, det) →
          Traps s c g i cls va det)) ∧
      ((∀ l ∈ ls, good l) → x.loadWait g.rOn ls size = none → x.room ctr (x.flagOf f.l) = none →
        let o : Op := { x.op (if ret then .atom d op else .red) with ctr := some ctr, flag := x.flagOf f.l, lanes := ls, size, pages := if g.rOn then [] else touchedPages ls size }
        let u := s.off.popQueues x (if run = 1 then [d, f.n.toNat] else [f.n.toNat])
        let u := match q with
          | some k => u.updGroup c.core c.slot fun h => h.setQueue k { (h.queue k) with fills := (h.queue k).fills + 1 }
          | none => u
        let e := if g.rOn then u.startRemote o g.route g.fm (remoteAtoms o op ret) else u.startOp o fun id s => ls.map fun l =>
          { s.request id o (if ret then 4 else 5) l.addr with lanes := [l], aop := op }
        SameBytes s e ∧ ((∃ h, e.group? c.core c.slot = some h) → Retires s c g i inf e)))

/-- O16. An LDSP of any form that can perform on its own core, that no result-table entry stands for, writes each written lane with the number its form reads at SInt(Vn) + imm of the team's scratchpad, extended as the form says (a .w64 form writes the upper word to V(d+1)), and retires; no scratchpad byte changes. An STSP that can perform changes a byte of the team's scratchpad only if a written lane's access covers it; the byte then holds the data of a lane that covers it; every other byte of every team, HBM and L2 are unchanged. -/
def Obligations.ScratchpadAccesses : Prop :=
  (∀ (i : Instr) (m : SpOp) (s : State) (c : Cur) (g : Group) (t : Team), spLoad i = some m → i.illegalCode = none →
    Issues s c g (memInf m.sp g) →
    let x := s.issuing c g
    let mask := g.written (g.path c.path) m.pred.toNat
    SpReady x m t false → (s.core c.core).canPlace c.slot g.wc = true →
    (m.run = 1 → x.eligible [m.d, m.n] = true → x.looksUp m.d mask = true →
      (s.core c.core).lookup (x.loadKey m.word (some m.n) 0 mask m.d (some g.team) (touchedPages (m.accesses x) (formBytes m.form))) = none) →
    let val (l : Nat) : Nat := readLE t.spByte (((x.vsrc m.n).lane l).toInt + m.imm).toNat (formBytes m.form)
    let low (l : Nat) : W32 := if mask.getLsbD l then loadLow m.form (val l) else 0
    (m.form ≠ 3 → ∃ e, Retires s c g i (memInf m.sp g) e ∧ LaneWrote x { srcs := [m.n], dst := m.d, mask, lane := low } e) ∧
    (m.form = 3 → (s.core c.core).twoFree g.wc →
      ∃ e h, Retires s c g i (memInf m.sp g) e ∧ e.group? c.core c.slot = some h ∧ e.sched = s.sched ∧
        ∀ n, h.vreg n = if n = m.d + 1 then VReg.merge x.w mask (fun l => BitVec.ofNat 32 (val l / 2 ^ 32)) (g.vreg n)
          else if n = m.d then VReg.merge x.w mask low (g.vreg n) else g.vreg n)) ∧
  (∀ (i : Instr) (m : SpOp) (s : State) (c : Cur) (g : Group) (t : Team), spStore i = some m → i.illegalCode = none →
    Issues s c g (memInf m.sp g) →
    let x := s.issuing c g
    SpReady x m t true →
    let ls := (m.accesses x).map fun l => { l with x := x.storeData m.d m.run l.lane }
    let covers (l : LaneAcc) (a : Nat) : Prop := l.addr ≤ a ∧ a < l.addr + formBytes m.form
    ∃ e, Retires s c g i (memInf m.sp g) e ∧ SameBytes s e ∧
      (∀ tm a, tm ≠ g.team → e.spad tm a = s.spad tm a) ∧
      ∀ a, ((∀ l ∈ ls, ¬ covers l a) → e.spad g.team a = s.spad g.team a) ∧
        ((∃ l ∈ ls, covers l a) → ∃ l ∈ ls, covers l a ∧ e.spad g.team a = l.byteAt a))

/-- O17. An ATSP that can perform leaves the team as performing its lanes one after another in some order leaves it, gives each active lane the value its location held before its turn, and retires. -/
def Obligations.ScratchpadAtomics : Prop :=
  ∀ (f : AtspF) (s : State) (c : Cur) (g : Group) (t : Team), (Instr.atsp f).illegalCode = none → Issues s c g (memInf f.sp g) →
    let x := s.issuing c g
    let op := f.o.toNat
    let d := f.d.toNat
    let size := atomSize op
    let ls := (lanesOf x.w x.p.mask).map fun l => ({ lane := l, addr := (((x.vsrc f.n.toNat).lane l).toInt + (f.i.toNat * size : Nat)).toNat } : LaneAcc)
    let full := ls.map fun l => { l with x := (x.atomData d op l.lane).1, y := (x.atomData d op l.lane).2 }
    x.s.team? g.team = some t → x.memFault [f.n.toNat] d (atomRun op) = none → x.memWait [f.n.toNat] d (atomRun op) true true = none →
    x.spLanes x.p.mask f.n.toNat (f.i.toNat * size) size size = .ok ls → (∀ ln ∈ touchedLines ls size, t.lineFilling ln = false ∧ t.lineI ln = false) → t.isFar c.core ls size = false →
    x.spWait true ls size = none → (∀ k, x.flagOf f.l = some k → g.flag k < 255) →
    queueOf x.d.qmask d = none → (s.core c.core).canPlace c.slot g.wc = true →
    (atomRegs d op ≠ [d] → (s.core c.core).twoFree g.wc) →
    ∃ e h order, List.Perm order full ∧ Retires s c g (.atsp f) (memInf f.sp g) e ∧ e.team? g.team = some (t.atomics op size order).1 ∧
      e.group? c.core c.slot = some h ∧ SameBytes s e ∧ (∀ n, n ∉ atomRegs d op → h.vreg n = g.vreg n) ∧
      ∀ l, l ∈ lanesOf x.w x.p.mask → ∃ old, (l, old) ∈ (t.atomics op size order).2 ∧ (h.vreg d).lane l = old.setWidth 32 ∧
        (atomRegs d op ≠ [d] → (h.vreg (d + 1)).lane l = (old >>> 32).setWidth 32)

/-- O18. A FENCE on a token that is free, with no dirty line to write back, makes the token outstanding over the covered set and retires; on an outstanding token it parks and notes which fence that is bound to, and on one with an unreported write-back fault it raises class 13 at that fence's PC. FWAIT parks on an outstanding token and notes which fence it is bound to, retires on a complete one, retires when a sibling has bound the token to another fence since its issue, and raises class 13 at the FENCE's PC for an unreported write-back fault. WAITC retires if its counter is at most UInt(Sv), and otherwise waits for that of the operations counted then, whatever a sibling issues after it. -/
def Obligations.FencesAndCounters : Prop :=
  (∀ (f : FenceF) (s : State) (c : Cur) (g : Group) (tm : Team), (Instr.fence f).illegalCode = none → Issues s c g { sp := f.sp == 1 } →
    let x := s.issuing c g
    let tok := g.tokens.get {} f.t.toNat
    (tok.out = true → exec (.fence f) s =
      .next ((s.withPath c fun p => { p with fwait := some (p.pc, tok.bound) }).parkPath c (.token f.t.toNat))) ∧
    (tok.out = false → ∀ va, tok.wbFault = some va → exec (.fence f) s =
      .next ((s.withGroup c fun h => { h with tokens := h.tokens.erase f.t.toNat }).takeFault c.core c.slot c.path tok.pc 13 va 0)) ∧
    (tok.out = false → tok.wbFault = none → s.team? g.team = some tm →
      (2 ≤ f.k.toNat → (tm.dirtyLines fun _ r => decide ((if r.sys then 3 else 2) ≤ f.g.toNat)) = []) →
      ∃ e h, Retires s c g (.fence f) { sp := f.sp == 1 } e ∧ e.group? c.core c.slot = some h ∧ h = { g with tokens := h.tokens } ∧
        SameBytes s e ∧ ∀ n, h.tokens.get {} n = if n = f.t.toNat then
          { out := true, kind := f.k, scope := f.g, pc := (g.path c.path).pc, bound := s.stamp, covers := x.coveredSet f.k.toNat f.g.toNat, wbFault := none }
          else g.tokens.get {} n)) ∧
  (∀ (f : FwaitF) (s : State) (c : Cur) (g : Group), Issues s c g { sp := f.sp == 1 } →
    let tok := g.tokens.get {} f.t.toNat
    let p := g.path c.path
    let rebound := (∃ n, p.fwait = some (p.pc, n) ∧ n ≠ tok.bound)
    let gone := s.withPath c fun p => { p with fwait := none }
    (rebound → Retires s c g (.fwait f) { sp := f.sp == 1 } gone) ∧
    (¬ rebound → tok.out = true → exec (.fwait f) s =
      .next ((s.withPath c fun p => { p with fwait := some (p.pc, tok.bound) }).parkPath c (.token f.t.toNat))) ∧
    (¬ rebound → tok.out = false → tok.wbFault = none → Retires s c g (.fwait f) { sp := f.sp == 1 } gone) ∧
    (¬ rebound → tok.out = false → ∀ va, tok.wbFault = some va → exec (.fwait f) s =
      .next ((s.withGroup c fun h => { h with tokens := h.tokens.erase f.t.toNat }).takeFault c.core c.slot c.path tok.pc 13 va 0))) ∧
  (∀ (f : WaitcF) (s : State) (c : Cur) (g : Group), (Instr.waitc f).illegalCode = none → Issues s c g { sp := f.sp == 1 } →
    (s.issuing c g).sWait [f.v.toNat] = none →
    (g.ctr f.c.toNat ≤ (g.sreg f.v.toNat).toNat → Retires s c g (.waitc f) { sp := f.sp == 1 } s.off) ∧
    ((g.sreg f.v.toNat).toNat < g.ctr f.c.toNat → Stays s c g (.waitc f) { sp := f.sp == 1 } (s.withPath c fun p =>
      { p with wait := .counter f.c.toNat (g.sreg f.v.toNat).toNat ((g.ctrs.get [] f.c.toNat).map Prod.fst) (f.sp == 1) })))

/-- O19. SPMAP of a region that is not mapped, on a range that is aligned, inside the team's pages, free of other regions, readable and idle, sets the region and retires; with length 0 it only retires; a region that was mapped there and has no dirty line goes first, with its lines; bad operands raise class 1 with code 4 and an unreadable range class 3. On a mapped region none of whose named lines has a fill or an access in flight: SPFILL on no line retires and otherwise starts one fill of its lines; SPWB starts the masked writes of the dirty lines among them; SPINV makes exactly the named lines I and changes no byte. A region that is not mapped raises class 1 with code 4. -/
def Obligations.Regions : Prop :=
  (∀ (f : SpmapF) (s : State) (c : Cur) (g : Group) (t : Team), (Instr.spmap f).illegalCode = none → Issues s c g { sp := f.sp == 1 } →
    let x := s.issuing c g
    let b := f.b.toNat
    let va := g.spair b
    let off := (g.sreg (b + 2)).toNat
    let w := g.sreg (b + 3)
    let len := w.toNat % 2 ^ 20
    let good := va.toNat < 2 ^ 52 ∧ va.toNat % 128 = 0 ∧ off < 2 ^ 19 ∧ off % 128 = 0 ∧ len % 128 = 0 ∧ w.toNat / 2 ^ 20 % 2 ^ 10 = 0 ∧
      spRangeOk x.d off len = true ∧ t.meetsRegion (some f.r.toNat) off len = false
    x.sWait [b, b + 1, b + 2, b + 3] = none → s.team? g.team = some t →
    (¬ good → Traps s c g (.spmap f) 1 0 4) ∧
    (good → len ≠ 0 → s.off.mayAccess (s.grid g.grid) 1 va.toNat len = false → Traps s c g (.spmap f) 3 va 0) ∧
    (good → s.off.spBusy g.team off len = false → t.regions.find f.r.toNat = none →
      (len = 0 → Retires s c g (.spmap f) { sp := f.sp == 1 } s.off) ∧
      (len ≠ 0 → s.off.mayAccess (s.grid g.grid) 1 va.toNat len = true → Retires s c g (.spmap f) { sp := f.sp == 1 }
        (s.off.updTeam g.team fun t => { t with regions := t.regions.put f.r.toNat { off, len, va := va.toNat, sys := w.getLsbD 31, we := w.getLsbD 30 } }))) ∧
    (good → (len ≠ 0 → s.off.mayAccess (s.grid g.grid) 1 va.toNat len = true) → s.off.spBusy g.team off len = false →
      ∀ r, t.regions.find f.r.toNat = some r → s.off.spBusy g.team r.off r.len = false → (t.dirtyLines fun q _ => q == f.r.toNat) = [] →
      ∃ e, Retires s c g (.spmap f) { sp := f.sp == 1 } e ∧ SameBytes s e ∧ e.team? g.team = some { t with
        lines := t.lines.filter fun l => !(r.off / 128 ≤ l.1 && l.1 < (r.off + r.len) / 128)
        regions := if len = 0 then t.regions.erase f.r.toNat else
          (t.regions.erase f.r.toNat).put f.r.toNat { off, len, va := va.toNat, sys := w.getLsbD 31, we := w.getLsbD 30 } })) ∧
  (∀ (s : State) (c : Cur) (g : Group) (t : Team), s.team? g.team = some t →
    (∀ f : RegionLF, illegalRegion f.b f.g = none → Issues s c g { sp := f.sp == 1 } →
      let x := s.issuing c g
      (f.g = 1 → x.sWait [f.b.toNat, f.b.toNat + 1] = none) →
      (t.regions.find f.r.toNat = none → Traps s c g (.spfill f) 1 0 4 ∧ Traps s c g (.spwb f) 1 0 4) ∧
      ∀ r, t.regions.find f.r.toNat = some r →
        let lns := x.regionLines r f.g f.b.toNat
        lns.find? t.lineFilling = none → (∀ o ∈ s.ops, o.2.kind.isSp = true → o.2.team = g.team → ∀ ln ∈ o.2.lines, ln ∉ lns) →
        (lns = [] → Retires s c g (.spfill f) { sp := f.sp == 1 } s.off) ∧
        (lns ≠ [] → x.fillFault t lns = none → x.room 2 (x.flagOf f.l) = none →
          let e := x.startFill s.off t lns (x.flagOf f.l)
          SameBytes s e ∧ ((∃ h, e.group? c.core c.slot = some h) → Retires s c g (.spfill f) { sp := f.sp == 1 } e)) ∧
        (x.room 3 (x.flagOf f.l) = none →
          let e := x.writeBack s.off ((t.dirtyLines fun q _ => q == f.r.toNat).filter fun d => lns.contains d.ln) none (x.flagOf f.l)
          SameBytes s e ∧ ((∃ h, e.group? c.core c.slot = some h) → Retires s c g (.spwb f) { sp := f.sp == 1 } e))) ∧
    (∀ f : RegionF, illegalRegion f.b f.g = none → Issues s c g { sp := f.sp == 1 } →
      let x := s.issuing c g
      (f.g = 1 → x.sWait [f.b.toNat, f.b.toNat + 1] = none) →
      (t.regions.find f.r.toNat = none → Traps s c g (.spinv f) 1 0 4) ∧
      ∀ r, t.regions.find f.r.toNat = some r →
        let lns := x.regionLines r f.g f.b.toNat
        lns.find? t.lineFilling = none → (∀ o ∈ s.ops, o.2.kind.isSp = true → o.2.team = g.team → ∀ ln ∈ o.2.lines, ln ∉ lns) →
        ∃ e, Retires s c g (.spinv f) { sp := f.sp == 1 } e ∧ SameBytes s e ∧
          e.team? g.team = some { t with lines := t.lines.filter fun l => !lns.contains l.1 }))

/-- O20. A CPY whose context holds a COPY instance, with operands in their limits and a unit that is ready, puts its copy in the lowest free slot, raises CPY and its flag, changes nothing else, and retires; length 0 only retires. CHAIN does the same with its operations. Without a COPY instance both raise class 1 with code 9. -/
def Obligations.CopiesStart : Prop :=
  ∀ (f : CpyF) (s : State) (c : Cur) (g : Group) (t : Team) (i : Nat), oddReg f.b = false → Issues s c g { sp := f.sp == 1 } →
    let x := s.issuing c g
    let b := f.b.toNat
    let q := cpyReq g b
    let m := (g.sreg (b + 5)).toNat
    let src := m / 64 % 4
    let dst := m / 256 % 4
    let n := (g.sreg (b + 4)).toNat
    (x.sWait [b, b + 1, b + 2, b + 3, b + 4, b + 5] = none →
      (s.off.hasCopy c.core g.ctx = false → Traps s c g (.cpy f) 1 0 9) ∧
      (s.off.hasCopy c.core g.ctx = true → m < 2 ^ 18 → n ≤ 2 ^ 31 → CopyReady x q f.l t i →
        Retires s c g (.cpy f) { sp := f.sp == 1 } (q.after x f.l i))) ∧
    (x.sWait ((List.range 16).map fun k => b + k) = none →
      (s.off.hasCopy c.core g.ctx = false → Traps s c g (.chain f) 1 0 9) ∧
      ∀ ops, chainOps (decide (src = 3 ∧ dst = 3)) (fun k => g.sreg (b + 8 + k)) ((bytesLE 8 (g.spair (b + 6)).toNat).map BitVec.toNat) = some ops →
        let q' : CopyReq := { q with srcLen := n * chainSize src, dstLen := n * chainSize dst, remote := false, fm := false, route := 0
                                     chain := some { srcTy := src, dstTy := dst, ops } }
        s.off.hasCopy c.core g.ctx = true → m < 2 ^ 10 → n ≤ 2 ^ 28 → CopyReady x q' f.l t i →
          Retires s c g (.chain f) { sp := f.sp == 1 } (q'.after x f.l i))

/-- O21. MBSET.send sets the destination of an MBS register that is not busy, and parks on one that is; a core that is not of the context's partition raises class 7. MBSET.recv binds an MBG register to a queue of the team, opening a free one; a queue of another team raises class 7. MBSET.route sets the remote binding to a valid route of the context that is not draining, and raises class 8 for any other. MBSET.local clears it. MBPOLL sets Kk to whether the queue holds a message, and raises class 7 on an MBG that is not valid. A value with a bit set beyond its fields raises class 1 with code 4, and MBSET.route with a register number that is not 0 code 3. VMOV MBSn, Va on a valid MBS that is not busy sends one message of opcode 0x20 with Va's lanes to its destination and sets BUSY; on a busy one it parks. VMOV Vd, MBGn with a message for this group writes it to every active lane, with 0 in lanes the message lacks, and removes it from the queue; a poisoned message is removed and raises class 6; with no message, or one for a group that has waited longer, its path joins the queue's waiters and parks. An MBS or MBG that is not valid raises class 7. (Which group a message is for: R47.) -/
def Obligations.Mailboxes : Prop :=
  (∀ (s : State) (c : Cur) (g : Group),
    (∀ f : MbsetF, Issues s c g { sp := f.sp == 1 } →
      let x := s.issuing c g
      let v := (g.sreg f.a.toNat).toNat
      let inf : Info := { sp := f.sp == 1 }
      let there := s.off.partHasUnit (s.off.ctxPart g.ctx) (unitOfCore (v % 256)) = true
      let open? := s.off.rteValid (v % 1024) = true ∧ s.off.rteLctx (v % 1024) = g.ctx ∧ s.off.rteDrain (v % 1024) = false
      x.sWait [f.a.toNat] = none →
      (v < 2 ^ 12 → there → (g.mbSend f.n.toNat).busy = false →
        Retires s c g (.mbsetSend f) inf (s.withGroup c fun h => { h with mbs := h.mbs.put f.n.toNat { (h.mbSend f.n.toNat) with dcore := BitVec.ofNat 8 v, dq := BitVec.ofNat 4 (v / 256), svalid := true } })) ∧
      (v < 2 ^ 12 → there → (g.mbSend f.n.toNat).busy = true → Parks s c (.mbsetSend f) (.busy f.n.toNat)) ∧
      (v < 2 ^ 12 → ¬ there → Traps s c g (.mbsetSend f) 7 0 0) ∧
      (2 ^ 12 ≤ v → Traps s c g (.mbsetSend f) 1 0 4) ∧
      (v < 16 → ((s.core c.core).recvQ v).st ≠ 0 → ((s.core c.core).recvQ v).team = g.team →
        Retires s c g (.mbsetRecv f) inf (s.withGroup c fun h => { h with mbg := h.mbg.put f.n.toNat { rq := BitVec.ofNat 4 v, rvalid := true } })) ∧
      (v < 16 → ((s.core c.core).recvQ v).st = 0 →
        Retires s c g (.mbsetRecv f) inf ((s.off.updCore c.core fun k => { k with recv := k.recv.put v { ctx := g.ctx, team := g.team, st := 1 } }).updGroup c.core c.slot fun h => { h with mbg := h.mbg.put f.n.toNat { rq := BitVec.ofNat 4 v, rvalid := true } })) ∧
      (v < 16 → ((s.core c.core).recvQ v).st ≠ 0 → ((s.core c.core).recvQ v).team ≠ g.team → Traps s c g (.mbsetRecv f) 7 0 0) ∧
      (16 ≤ v → Traps s c g (.mbsetRecv f) 1 0 4) ∧
      (f.n = 0 → v < 2 ^ 11 → open? →
        Retires s c g (.mbsetRoute f) inf (s.withGroup c fun h => { h with route := v % 1024, fm := v.testBit 10, rOn := true })) ∧
      (f.n = 0 → v < 2 ^ 11 → ¬ open? → Traps s c g (.mbsetRoute f) 8 0 0) ∧
      (f.n = 0 → 2 ^ 11 ≤ v → Traps s c g (.mbsetRoute f) 1 0 4) ∧
      (f.n ≠ 0 → Traps s c g (.mbsetRoute f) 1 0 3)) ∧
    (∀ f : SafeF, Issues s c g { sp := f.sp == 1 } → Retires s c g (.mbsetLocal f) { sp := f.sp == 1 } (s.withGroup c fun h => { h with rOn := false })) ∧
    (∀ f : MbpollF, Issues s c g { sp := f.sp == 1 } →
      ((g.mbRecv f.n.toNat).rvalid = false → Traps s c g (.mbpoll f) 7 0 0) ∧
      ((g.mbRecv f.n.toNat).rvalid = true → Retires s c g (.mbpoll f) { sp := f.sp == 1 } (s.withGroup c fun h =>
        h.setK f.k.toNat (decide (((s.core c.core).recvQ (g.mbRecv f.n.toNat).rq.toNat).msgs ≠ [])))))) ∧
  (∀ (s : State) (c : Cur) (g : Group),
    (∀ f : MbsF, Issues s c g (unitInf f.sp g) →
      let x := s.issuing c g
      let m := g.mbSend f.n.toNat
      x.laneFault [f.a.toNat] [] [] = none → (m.svalid = false → Traps s c g (.vmovMbs f) 7 0 0) ∧
      (m.svalid = true → x.laneWait [f.a.toNat] [] [] = none → m.busy = true → Parks s c (.vmovMbs f) (.busy f.n.toNat)) ∧
      (m.svalid = true → m.busy = false → x.laneWait [f.a.toNat] [] [] = none →
        ∃ e h p, Retires s c g (.vmovMbs f) (unitInf f.sp g) e ∧ e.group? c.core c.slot = some h ∧ e.pkts = s.pkts.put s.stamp p ∧
          h.mbSend f.n.toNat = { m with busy := true, path := c.path, pid := (g.path c.path).born, pc := (g.path c.path).pc, img := VReg.ofFn x.w (x.vsrc f.a.toNat).lane, retry := none } ∧
          p.op = 0x20 ∧ p.img = VReg.ofFn x.w (x.vsrc f.a.toNat).lane ∧ p.drt = coreRouter m.dcore.toNat ∧ p.dep = corePort m.dcore.toNat ∧
          SameBytes s e ∧ ∀ n, h.vreg n = g.vreg n)) ∧
    (∀ f : MbgF, Issues s c g (unitInf f.sp g) →
      let x := s.issuing c g
      let d := f.d.toNat
      let q := (g.mbRecv f.n.toNat).rq.toNat
      let r := (s.core c.core).recvQ q
      let takes (more : List Msg) : State := s.off.updCore c.core fun k =>
        { k with recv := k.recv.put q { r with msgs := more, waiters := r.waiters.erase (c.slot, c.path) } }
      let mine := ∀ w ws, r.waiters = w :: ws → w.1 = c.slot
      x.laneFault [] [] [d] = none → ((g.mbRecv f.n.toNat).rvalid = false → Traps s c g (.vmovMbg f) 7 0 0) ∧
      ((g.mbRecv f.n.toNat).rvalid = true → x.laneWait [] [] [d] = none →
        (∀ msg more, r.msgs = msg :: more → mine →
          (msg.bad = false → (s.core c.core).canPlace c.slot g.wc = true → ∃ e, Retires s c g (.vmovMbg f) (unitInf f.sp g) e ∧
            LaneWrote { x with s := takes more } { srcs := [], dst := d, mask := (g.path c.path).mask
                                                   lane := fun l => if l < msg.width then msg.img.lane l else 0 } e) ∧
          (msg.bad = true → exec (.vmovMbg f) s = .next ((takes more).takeFault c.core c.slot c.path (g.path c.path).pc 6 0 0))) ∧
        ((r.msgs = [] ∨ ¬ mine) → (c.slot, c.path) ∈ r.waiters → Parks s c (.vmovMbg f) (.msg q)) ∧
        ((r.msgs = [] ∨ ¬ mine) → (c.slot, c.path) ∉ r.waiters → exec (.vmovMbg f) s = .next ((s.off.updCore c.core fun k =>
          { k with recv := k.recv.put q { r with waiters := r.waiters ++ [(c.slot, c.path)] } }).parkPath c (.msg q))))))

/-- O22. A COLL with an aligned, readable descriptor starts the one read of it at its home slice and parks; once it has been read, its path issues the COLL on what came. With a legal descriptor whose ranges are allowed and whose peers have routes, with fewer than two collectives of its team and none of its job and instance, it waits in the hoist state with itself hoisted, and retires; no byte changes. A misaligned or illegal descriptor raises class 1 with code 4, a range without its right class 3, a peer without a route class 8, a job and instance of its team class 10; a third collective of a team parks. (The parking on the read: log 10.) -/
def Obligations.CollectivesStart : Prop :=
  ∀ (f : CollF) (s : State) (c : Cur) (g : Group), (Instr.coll f).illegalCode = none → Issues s c g { sp := f.sp == 1 } →
    let x := s.issuing c g
    let a := g.spair f.b.toNat
    let l : LaneAcc := { lane := 0, addr := a.toNat }
    let p := g.path c.path
    x.sWait [f.b.toNat, f.b.toNat + 1] = none →
    (p.desc = none → a.toNat % 64 ≠ 0 → Traps s c g (.coll f) 1 0 4) ∧
    (p.desc = none → a.toNat % 64 = 0 → ∀ cls va det, x.laneAccess 64 1 l = some (cls, va, det) → Traps s c g (.coll f) cls va det) ∧
    (p.desc = none → a.toNat % 64 = 0 → x.laneAccess 64 1 l = none →
      let o : Op := { x.op .descRead with lanes := [l], size := 64 }
      exec (.coll f) s = .next (((s.withPath c fun p => { p with desc := some .reading }).startOp o fun id s =>
        s.reads id o [a.toNat / 128]).parkPath c .desc)) ∧
    (∀ cls va det, p.desc = some (.failed cls va det) → Traps s c g (.coll f) cls va det) ∧
    (∀ img, p.desc = some (.bytes img) →
      let d := collDesc img
      let own := s.off.devId
      let mine := s.lodra.colls.filter fun y => y.2.team == g.team
      let reads := s.off.mayRange (s.grid g.grid) 1 d.send (d.count * collSize d.ty) = true
      let writes := s.off.mayRange (s.grid g.grid) 2 d.recv (collRecvCount d.op d.count d.devices.length * collSize d.ty) = true
      let routed := ∀ n ∈ d.devices, n ≠ own → (s.off.jobRoute g.ctx d.job n).isSome = true
      let new := ∀ y ∈ mine, ¬ (y.2.job = d.job ∧ y.2.inst = d.inst)
      (¬ d.legal own → Traps s c g (.coll f) 1 0 4) ∧
      (d.legal own → ¬ reads → Traps s c g (.coll f) 3 (BitVec.ofNat 64 d.send) 0) ∧
      (d.legal own → reads → ¬ writes → Traps s c g (.coll f) 3 (BitVec.ofNat 64 d.recv) 0) ∧
      (d.legal own → reads → writes → ¬ routed → Traps s c g (.coll f) 8 0 0) ∧
      (d.legal own → reads → writes → routed → ¬ new → Traps s c g (.coll f) 10 0 0) ∧
      (d.legal own → reads → writes → routed → new → 2 ≤ mine.length → Parks s c (.coll f) .collRoom) ∧
      (d.legal own → reads → writes → routed → new → mine.length < 2 → (∀ k, x.flagOf f.l = some k → g.flag k < 255) →
        ∃ e y h, Retires s c g (.coll f) { sp := f.sp == 1 } e ∧ e.lodra.colls.find s.stamp = some y ∧ SameBytes s e ∧
          e.group? c.core c.slot = some h ∧ (h.path c.path).desc = none ∧
          (∀ k, h.flag k = g.flag k + if x.flagOf f.l = some k then 1 else 0) ∧
          y.job = d.job ∧ y.inst = d.inst ∧ y.op = d.op ∧ y.ty = d.ty ∧ y.count = d.count ∧ y.send = BitVec.ofNat 64 d.send ∧
          y.recv = BitVec.ofNat 64 d.recv ∧ y.peers = BitVec.ofNat 64 d.peers ∧ y.root = d.root ∧
          y.st = .wait ∧ y.hoisted = 1#64 <<< own ∧ y.timer = 0 ∧ y.hto = if d.hto = 0 then 1000 else d.hto))

/-- O23. AFOR at the thread's level with a count of 0 goes on after the ANEXT that closes it; with a count above 0, its flag clear and, with its acquire bit, its earlier accesses performed, opens a level whose body starts at the next parcel; ANEXT of the innermost level repeats it while its count is above 1 and otherwise closes it. A level that is not the innermost traps, and AFOR on a set flag, or for those accesses, waits. ASET sets AXx to an S pair plus SExt(imm) times the group's number; AINC adds SInt(Sa), or nothing, and SExt(imm); AHALT halts the thread; ASIG with the release bit and stores outstanding raises its flag until they perform, and otherwise only goes on. ALDQ on a declared queue with room, an aligned readable address and QFL below 255 starts the load of W words and adds 4 x SInt(imm) to AXx; ASTQ on a queue with an entry and an aligned writable address pops it and starts its store. An undeclared queue raises code 5 and a misaligned address code 4; a full or empty queue waits. (What AFOR and the signal wait for, and that ASIG with nothing outstanding raises no count: logs 23 and 32, DEDUCED.) -/
def Obligations.AccessThreads : Prop :=
  ((∀ (f : AforF) (s : State) (c : Cur) (g : Group) (a : Acc), (Instr.afor f).illegalCode = none → AccIssues s c g a →
    let n := (g.sreg f.a.toNat).toNat
    (f.x.toNat ≠ a.loops.length → AccTraps s c a (.afor f) 1 0 6) ∧
    (f.x.toNat = a.loops.length → n = 0 → ∀ pc left,
      s.off.afterNext g.ctx (a.pc + 4) (a.left - 1) 0 (s.off.slotParcels (s.grid g.grid) (a.pc + 4).toNat) = some (pc, left) →
      AccDoes s c (.afor f) s.off { a.past with pc, left }) ∧
    (f.x.toNat = a.loops.length → 0 < n → (f.k ≠ 15 → g.flag f.k.toNat = 0) → (f.c = 1 → (s.accessing c g a).unperformed = false) →
      AccDoes s c (.afor f) s.off { a.past with loops := a.loops ++ [{ count := n, body := a.pc + 4, left := a.left - 1 }] }) ∧
    (f.x.toNat = a.loops.length → 0 < n → ((f.k ≠ 15 ∧ g.flag f.k.toNat ≠ 0) ∨ (f.c = 1 ∧ (s.accessing c g a).unperformed = true)) → AccWaits s c a (.afor f) (.flag f.k.toNat (f.c == 1)))) ∧
  (∀ (f : AnextF) (s : State) (c : Cur) (g : Group) (a : Acc) (outer : List Loop) (l : Loop), AccIssues s c g a →
    (f.x.toNat + 1 ≠ a.loops.length → AccTraps s c a (.anext f) 1 0 6) ∧
    (f.x.toNat + 1 = a.loops.length → a.loops = outer ++ [l] →
      (1 < l.count → AccDoes s c (.anext f) s.off { a.past with pc := l.body, left := l.left, loops := outer ++ [{ l with count := l.count - 1 }] }) ∧
      (l.count ≤ 1 → AccDoes s c (.anext f) s.off { a.past with loops := outer })))) ∧
  (∀ (s : State) (c : Cur) (g : Group) (a : Acc), AccIssues s c g a →
    (∀ f : AsetF, (Instr.aset f).illegalCode = none → AccDoes s c (.aset f) s.off
      (a.past.setAx f.x.toNat (BitVec.ofInt 64 ((g.spair f.a.toNat).toInt + f.i.toInt * g.num)))) ∧
    (∀ f : AincF, (Instr.ainc f).illegalCode = none → AccDoes s c (.ainc f) s.off
      (a.past.setAx f.x.toNat (BitVec.ofInt 64 ((a.ax.get 0 f.x.toNat).toInt + (if f.f = 1 then 0 else (g.sreg f.a.toNat).toInt) + f.i.toInt)))) ∧
    AccDoes s c .ahalt s.off { a.past with halted := true } ∧
    (∀ f : AsigF, (Instr.asig f).illegalCode = none → g.flag f.k.toNat < 255 →
      (f.c = 0 ∨ a.stores = [] → AccDoes s c (.asig f) s.off a.past) ∧
      (f.c ≠ 0 → a.stores ≠ [] → AccDoes s c (.asig f) (s.withGroup c fun h => h.addFlag f.k.toNat)
        { a.past with sigs := a.sigs ++ [{ flag := f.k.toNat, ops := a.stores }] })) ∧
    (∀ f : AsigF, (Instr.asig f).illegalCode = none → 255 ≤ g.flag f.k.toNat → AccWaits s c a (.asig f) (.flagRoom f.k.toNat))) ∧
  (∀ (f : AldqF) (s : State) (c : Cur) (g : Group) (a : Acc), AccIssues s c g a →
    let x := s.accessing c g a
    let q := f.q.toNat
    let va := a.ax.get 0 f.x.toNat
    let d := (s.grid g.grid).desc
    let a' := a.past.setAx f.x.toNat (va + BitVec.ofInt 64 (4 * f.i.toInt))
    (d.qmask.testBit q = false → AccTraps s c a (.aldq f) 1 0 5 ∧ AccTraps s c a (.astq f) 1 0 5) ∧
    (d.qmask.testBit q = true → va.toNat % 4 ≠ 0 → AccTraps s c a (.aldq f) 1 0 4 ∧ AccTraps s c a (.astq f) 1 0 4) ∧
    (d.qmask.testBit q = true → va.toNat % 4 = 0 →
      ((g.queue q).room d.qdepth = false → AccWaits s c a (.aldq f) (.room q)) ∧
      ((g.queue q).room d.qdepth = true → x.fault? va 1 = none → g.ctr 5 < 255 →
        let o : Op := { x.op (.aldq q) va with ctr := some 5 }
        AccDoes s c (.aldq f) ((s.withGroup c fun h => h.setQueue q { (h.queue q) with fills := (h.queue q).fills + 1 }).startOp o fun id s =>
          s.reads id o (touchedLines o.lanes 4)) a') ∧
      ((g.queue q).len = 0 → AccWaits s c a (.astq f) (.data q)) ∧
      ((g.queue q).len ≠ 0 → x.fault? va 2 = none → 
        let lanes : List LaneAcc := (List.range g.w).map fun l => { lane := l, addr := va.toNat + 4 * l, x := (((g.queue q).front d.qdepth).lane l).setWidth 64 }
        let o : Op := { x.op .astq va with lanes, pages := touchedPages lanes 4 }
        let a2 := { a' with stores := a.stores ++ [s.stamp] }
        AccDoes s c (.astq f) ((s.withGroup c fun h => { h.setQueue q (g.queue q).pop with acc := some a2 }).startOp o fun id s => s.laneWrites id o 0) a2)))

/-- O24. CBSET Va sets entry i of the codebook to half (i mod 2) of lane i/2 of Va, for i = 0 to 15, whatever the mask; it pops Va if that names a queue; every other register, bit and byte is unchanged, and it retires. -/
def Obligations.CodebookLoads : Prop :=
  ∀ (f : CbsetF) (s : State) (c : Cur) (g : Group), Issues s c g (unitInf f.sp g) →
    let x := s.issuing c g
    x.laneFault [f.a.toNat] [] [] = none → x.laneWait [f.a.toNat] [] [] = none →
    ∃ e h, Retires s c g (.cbset f) (unitInf f.sp g) e ∧ e = s.withGroup c (fun _ => h) ∧ h = { g with cb := h.cb, queues := h.queues } ∧
      (f.a.toNat < 60 → ∀ q, h.queue q = g.queue q) ∧
      ∀ i, i < 16 → h.cb.extractLsb' (16 * i) 16 = ((x.vsrc f.a.toNat).lane (i / 2)).extractLsb' (16 * (i % 2)) 16

/-- O25. MFREE, MZERO, MMASK, MMA, MML, MSCA and MCVT of a team that holds no bank raise class 1 with code 4. With a bank whose queue has fewer than 8 entries and with their registers ready, each enters the queue with the values of its registers and the masks in force, changes no register, byte or tile, and retires; MFREE takes the bank from its team and MMASK sets the masks for what enters later. A full queue parks the path. -/
def Obligations.MatrixEntries : Prop :=
  ∀ (i : Instr) (F : MxForm) (s : State) (c : Cur) (g : Group), mxForm i = some F → i.illegalCode = none → Issues s c g {} →
    let x := s.issuing c g
    (s.bankOf c.core g.team = none → Traps s c g i 1 0 4) ∧
    ∀ h b, s.bankOf c.core g.team = some (h, b) → (s.core c.core).banks.find h = some b → x.sWait F.s = none → F.limits x = true →
      x.runsFault (F.runs x) = none → x.vWait ((F.runs x).flatMap runRegs) = none →
      (8 ≤ b.q.length → Parks s c i .bankQueue) ∧
      (b.q.length < 8 → ∃ e, Retires s c g i {} e ∧ Entered x h (F.after x b) (F.op x b) e)

/-- O26. MBANK of a team that holds a bank only retires; without a MATRIX instance of its context it raises class 1 with code 9; otherwise it takes the lower-numbered free bank with its masks all ones, or parks while neither is free. MATRIX_BANK_GRANT of a core with a bank that no team holds and whose queue is empty releases every path of the core that waits for a bank, and no other path; with no such bank it changes nothing. -/
def Obligations.BankAcquisition : Prop :=
  (∀ (s : State) (c : Cur) (g : Group), Issues s c g {} →
    let bank (h : Nat) : Bank := (s.core c.core).banks.get {} h
    let free (h : Nat) := (bank h).team = none ∧ (bank h).q = []
    let ones : W64 := BitVec.allOnes 64
    (s.bankOf c.core g.team ≠ none → Retires s c g .mbank {} s.off) ∧
    (s.bankOf c.core g.team = none → s.srv? 1 c.core g.ctx 0 = none → Traps s c g .mbank 1 0 9) ∧
    (s.bankOf c.core g.team = none → s.srv? 1 c.core g.ctx 0 ≠ none →
      (¬ free 0 → ¬ free 1 → Parks s c .mbank .bankFree) ∧
      ∀ h, h < 2 → free h → (h = 1 → ¬ free 0) → Retires s c g .mbank {}
        (s.off.updCore c.core fun k => { k with banks := k.banks.put h { team := some g.team, rowM := ones, colM := ones, depM := ones } }))) ∧
  (∀ (s : State) (core : Nat),
    let bank (h : Nat) : Bank := (s.core core).banks.get {} h
    let free := ∃ h, h < 2 ∧ (bank h).team = none ∧ (bank h).q = []
    (¬ free → exec (.matrixBankGrant core) s = .next s) ∧
    (free → ∃ t, exec (.matrixBankGrant core) s = .next t ∧ t = { s with cores := t.cores } ∧ (∀ n, n ≠ core → t.core n = s.core n) ∧
      ∀ slot g, s.group? core slot = some g → ∃ g', t.group? core slot = some g' ∧ g' = { g with paths := g'.paths } ∧
        g'.paths = g.paths.map fun p => if p.park = some .bankFree then { p with park := none } else p))

/-- O27. MLD and MST of a team that holds a bank, with an aligned address and pitch and allowed elements, enter the bank's queue: with no element selected they start nothing, and otherwise each starts one operation of one word an element on GLD or GST and its flag. No byte changes at the issue. A misaligned address or pitch raises class 3 with detail 2. (That without its acquire bit an MLD waits for the earlier writes of its elements, and an MST for the earlier loads of them: log 117.) -/
def Obligations.MatrixMemory : Prop :=
  ∀ (f : MemTileF) (store : Bool) (s : State) (c : Cur) (g : Group),
    let i := if store then Instr.mst f else Instr.mld f
    i.illegalCode = none → Issues s c g {} →
    let x := s.issuing c g
    let r := f.b.toNat
    let kind := if store then MKind.st else MKind.ld
    let ctr := if store then 1 else 0
    (s.bankOf c.core g.team = none → Traps s c g i 1 0 4) ∧
    ∀ h b, s.bankOf c.core g.team = some (h, b) → (s.core c.core).banks.find h = some b → x.sWait [r, r + 1, r + 2] = none →
      let ls := tileLanes x b f store
      let m := { x.mop b kind with region := f.r.toNat, rel := f.e == 1 }
      let aligned := (g.spair r).toNat % 4 = 0 ∧ (g.sreg (r + 2)).toNat % 4 = 0
      (¬ aligned → Traps s c g i 3 (g.spair r) 2) ∧
      (aligned → ∀ cls va det, x.accessFault? ls 4 (if store then 2 else 1) = some (cls, va, det) → Traps s c g i cls va det) ∧
      (aligned → x.accessFault? ls 4 (if store then 2 else 1) = none → 8 ≤ b.q.length → Parks s c i .bankQueue) ∧
      (aligned → x.accessFault? ls 4 (if store then 2 else 1) = none → b.q.length < 8 →
        (ls = [] → ∃ e, Retires s c g i {} e ∧ Entered x h b m e) ∧
        (ls ≠ [] → x.room ctr (x.flagOf f.l) = none →
          let acq := if f.c = 1 then x.coveredSet 2 f.g.toNat
            else x.earlier (fun k => if store then k.readsGlobal && k != .mst else k.writes) false ls 4
          let early := store = false ∧ f.c = 0 ∧ acq = []
          let o : Op := { x.op (if store then .mst else .mld) with ctr := some ctr, flag := x.flagOf f.l, lanes := ls, size := 4
                                                                   pages := if store then touchedPages ls 4 else [] }
          let t := s.off.startOp o fun id s => if early then s.reads id o (touchedLines ls 4) else []
          let m' := { m with op := some s.stamp, acqOps := acq, step := if early then 1 else 0 }
          SameBytes s t ∧ ((∃ k, t.group? c.core c.slot = some k) →
            ∃ e, Retires s c g i {} e ∧ e = { t with cores := e.cores } ∧ ∃ refs,
              (e.core c.core).banks.find h = some { b with q := b.q ++ [{ m' with refs }] }) ))

/-- O28. MATRIX_QUEUE_TURN of a bank whose team is not being halted. MZERO sets the accumulators of its region to 0. MMA and MML, their step started, add to each accumulator of the region the FP32 sum of the step's products under the masks; MML leaves the queue with its last step. MSCA adds to each element that the row and column masks select the product of the other tile's element and the two scales, rounded once. No other element of the bank changes. MCVT writes the codes of the region's elements, row by row, into its registers, in the lanes of its mask, if their writes can be placed. An MLD that waits sends its reads once what it acquires has performed, and one that has its words writes them into the selected elements, bit for bit, unless they failed, and is over. An MST sends the words of its elements once what it acquires has performed; its flag falls then if it has no release bit. MMASK only leaves the queue, MFREE empties the bank, and a bank with nothing queued stays as it is. -/
def Obligations.BankTurns : Prop :=
  ∀ (s : State) (core h : Nat) (b : Bank), (s.core core).banks.find h = some b →
    let turn := exec (.matrixQueueTurn core h) s
    (b.q = [] → turn = .next s) ∧
    ∀ m ms, b.q = m :: ms → s.teamHalted m.team = false →
      let r := regionAt m.region
      let w := s.mopWidth core m
      let inside (k : Nat) := ∃ i j, i < r.n ∧ j < r.n ∧ k = r.key i j
      let lane (f : List VReg) (i : Nat) : FV := fp32.value ((f[i / w]?.getD 0).lane (i % w)).toNat
      (m.kind = .zero → ∃ t b', turn = .next t ∧ (t.core core).banks.find h = some b' ∧ b'.q = ms ∧ b'.team = b.team ∧
        ∀ k, (inside k → b'.elem k = 0) ∧ (¬ inside k → b'.elem k = b.elem k)) ∧
      (m.kind = .mask → ∃ t, turn = .next t ∧
        (t.core core).banks.find h = some { b with q := ms, started := false, shadow := none, popped := [] }) ∧
      (m.kind = .free → ∃ t, turn = .next t ∧ (t.core core).banks.find h = some {}) ∧
      (∀ fa fb, (m.kind = .mma ∨ m.kind = .mml) → b.started = true → m.frags[m.step]? = some (fa, fb) →
        ∃ t b', turn = .next t ∧ (t.core core).banks.find h = some b' ∧
          b'.q = (if m.kind = .mml ∧ m.step + 1 ≠ m.steps then { m with step := m.step + 1 } :: ms else ms) ∧
          b'.started = false ∧ b'.team = b.team ∧ (∀ k, ¬ inside k → b'.elem k = b.elem k) ∧
          ∀ i j, i < r.n → j < r.n →
            let n := typeK m.ty
            b'.elem (r.key i j) = fp32.add 0 (b.elem (r.key i j)) (stepSum (decide (m.ty < 2)) ((List.range n).map fun d =>
              if m.rowM.getLsbD i && m.colM.getLsbD j && m.depM.getLsbD d then
                matProduct m.ty (fragElem m.ty (fragImage w fa) (i * n + d)) (fragElem m.ty (fragImage w fb) (j * n + d))
              else .fin false 0 0))) ∧
      (∀ fa fb, m.kind = .sca → b.started = true → m.frags[m.step]? = some (fa, fb) →
        ∃ t b', turn = .next t ∧ (t.core core).banks.find h = some b' ∧ b'.q = ms ∧ b'.team = b.team ∧
          (∀ k, ¬ inside k → b'.elem k = b.elem k) ∧ ∀ i j, i < r.n → j < r.n → b'.elem (r.key i j) =
            if m.rowM.getLsbD i && m.colM.getLsbD j then fp32.code 32 0 ((fp32.value (b.elem (r.key i j)).toNat).add false
              (((fp32.value (b.elem ({ r with t := 1 - r.t }.key i j)).toNat).mul (lane fa i)).mul (lane fb j)))
            else b.elem (r.key i j)) ∧
      (∀ g, m.kind = .cvt → b.started = true → s.group? core m.slot = some g → g.gen = m.gen →
        let n := mcvtCount w r.n m.ty
        (s.writeCvt core m.slot m (b.cvtImage m) w (List.range n)).isSome = true →
        ∃ t b' g', turn = .next t ∧ (t.core core).banks.find h = some b' ∧ b'.q = ms ∧ b'.tiles = b.tiles ∧
          t.group? core m.slot = some g' ∧ (∀ k, (k < m.d ∨ m.d + n ≤ k) → g'.vreg k = g.vreg k) ∧
          ∀ i l, i < n → l < w → (m.mask.getLsbD l = false → (g'.vreg (m.d + i)).lane l = (g.vreg (m.d + i)).lane l) ∧
            (m.mask.getLsbD l = true → ∀ j, j < 32 → ((g'.vreg (m.d + i)).lane l).getLsbD j =
              imageBit w r.n (typeBits m.ty) (fun i j => cvtCode m.ty m.mode (b.elem (r.key i j))) i l j)) ∧
      (∀ id o, m.kind = .ld → m.op = some id → s.ops.find id = some o →
        (m.step = 0 → s.performed m.acqOps = true → ∃ t, turn = .next t ∧
          t = (s.updBank core h fun b => { b with q := { m with step := 1 } :: ms }).sendFor id (s.reads id o (touchedLines o.lanes 4))) ∧
        (m.step ≠ 0 → o.left = 0 → ∃ t b', turn = .next t ∧ (t.core core).banks.find h = some b' ∧ b'.q = ms ∧ b'.team = b.team ∧
          t.ops.find id = none ∧ (o.fail.isSome = true → b'.tiles = b.tiles) ∧
          (o.fail = none → (o.lanes.map LaneAcc.lane).Nodup → (∀ l ∈ o.lanes, l.lane < r.n * r.n) →
            (∀ l ∈ o.lanes, b'.elem (r.key (l.lane / r.n) (l.lane % r.n)) = BitVec.ofNat 32 (o.readN l.addr 4)) ∧
            ∀ k, (∀ l ∈ o.lanes, k ≠ r.key (l.lane / r.n) (l.lane % r.n)) → b'.elem k = b.elem k))) ∧
      (∀ id o, m.kind = .st → m.op = some id → s.ops.find id = some o → m.step = 0 → s.performed m.acqOps = true →
        let o' : Op := { o with lanes := o.lanes.map fun l => { l with x := (b.elem (r.key (l.lane / r.n) (l.lane % r.n))).setWidth 64 } }
        let sent (u : State) (o : Op) : State :=
          (u.updBank core h fun b => { b with q := { m with step := 1 } :: ms }).sendFor id (u.laneWrites id o u.free)
        let u : State := { s.chose with ops := s.ops.put id o' }
        (o.flag = none ∨ m.rel = true → turn = .next (sent u o')) ∧
        (∀ k g, o.flag = some k → m.rel = false → s.group? core m.slot = some g → g.gen = m.gen →
          turn = .next (sent { u.updGroup core m.slot fun g => g.subFlag k with ops := u.ops.put id { o' with flag := none } } { o' with flag := none })))

/-- O29. DMOV, DADD, DSUB, DHAD, DPROJ, DREFL and DMIX with 0 < w <= 65536, with declared registers whose older writes have left the pipe, put one register value with its DOV into the group's pipe, as what the path has issued before it, change no register, and retire; DMIX with w = 0 only retires and with w above 65536 raises class 1 with code 4; a register at or beyond DIRS raises code 5. DIRECTION_PIPE_END takes the first ready write of a group's pipe that no write to its register that comes before it in program order stands before: the register takes components and norm together, GSR.DOV is set if the write overflowed, the write leaves the pipe, and nothing else of the group changes. With no such write nothing changes. -/
def Obligations.DirectionWriters : Prop :=
  ((∀ (i : Instr) (F : DirForm) (s : State) (c : Cur) (g : Group), dirForm i = some F → i.illegalCode = none → Issues s c g (F.inf g) →
    let x := s.issuing c g
    (DirReady x (F.d :: F.srcs) F.srcs → x.sWait F.s = none → F.ok x = true →
      Retires s c g i (F.inf g) (x.piped s.off F.d (F.val x))) ∧
    ((∃ n ∈ F.d :: F.srcs, x.d.dirs ≤ n) → Traps s c g i 1 0 5)) ∧
  (∀ (f : D3F) (s : State) (c : Cur) (g : Group), (Instr.dmix f).illegalCode = none → Issues s c g { sp := f.sp == 1, beats := beatsOf g } →
    let x := s.issuing c g
    DirReady x [f.x.toNat, f.a.toNat] [f.x.toNat, f.a.toNat] → x.sWait [f.b.toNat] = none →
    (65536 < (g.sreg f.b.toNat).toNat → Traps s c g (.dmix f) 1 0 4) ∧
    (g.sreg f.b.toNat = 0 → Retires s c g (.dmix f) { sp := f.sp == 1, beats := beatsOf g } s.off))) ∧
  (∀ (s : State) (core slot : Nat) (g : Group), s.group? core slot = some g →
    (∀ before w after, g.dpipe = before ++ w :: after → w.ready = true →
      (∀ b u c, before = b ++ u :: c → u.ready = false ∨ ∃ v ∈ b, v.d = u.d ∧ v.id ∈ u.after) →
      (∀ u ∈ before, ¬ (u.d = w.d ∧ u.id ∈ w.after)) →
      let e := s.updGroup core slot fun h => { h.setD w.d w.val with dpipe := before ++ after, gsr := if w.dov then h.gsr ||| 0x80 else h.gsr }
      exec (.directionPipeEnd core slot) s = .next (if w.op = 0 then e else e.closeOp w.op)) ∧
    ((∀ w ∈ g.dpipe, w.ready = false) → exec (.directionPipeEnd core slot) s = .next s))

/-- O30. DSCL adds SInt(Sb) to an ordinary direction's norm, saturating it to [-32512, 32767] with GSR.DOV set; DSETN sets the norm. Nothing else changes. DDOT and DDOTF on ready registers write FP32 to S[X] and nothing else: the quiet NaN if a source is undefined, +0 if one is zero or the component products sum to 0, and otherwise the sum over i of ca(i)*cb(i) in units of 2^-30, rounded once, for DDOTF times the magnitude factor of the sum m of the norms: 2 to floor(m / 256) times 2 to (m mod 256) / 256, the latter taken as the FP32 number p * 2^-23 nearest to it. -/
def Obligations.DirectionScalars : Prop :=
  (∀ (s : State) (c : Cur) (g : Group),
    (∀ f : DNormF, (Instr.dscl f).illegalCode = none → Issues s c g { sp := f.sp == 1 } →
      let x := s.issuing c g
      let d := x.dread f.x.toNat
      let n := d.norm.toInt + (g.sreg f.b.toNat).toInt
      DirReady x [f.x.toNat] [f.x.toNat] → x.sWait [f.b.toNat] = none →
      (d.isZero = true ∨ d.isUndef = true → Retires s c g (.dscl f) { sp := f.sp == 1 } (s.withGroup c fun h => h.setD f.x.toNat d)) ∧
      (d.isZero = false → d.isUndef = false → -32512 ≤ n → n ≤ 32767 → Retires s c g (.dscl f) { sp := f.sp == 1 }
        (s.withGroup c fun h => h.setD f.x.toNat { d with norm := BitVec.ofInt 16 n })) ∧
      (d.isZero = false → d.isUndef = false → (n < -32512 ∨ 32767 < n) → Retires s c g (.dscl f) { sp := f.sp == 1 }
        (s.withGroup c fun h => (h.setD f.x.toNat { d with norm := BitVec.ofInt 16 (max (-32512) (min 32767 n)) }).setGsr 7))) ∧
    (∀ f : DNormF, (Instr.dsetn f).illegalCode = none → Issues s c g { sp := f.sp == 1 } →
      let x := s.issuing c g
      let d := x.dread f.x.toNat
      let n := (g.sreg f.b.toNat).setWidth 16
      DirReady x [f.x.toNat] [f.x.toNat] → x.sWait [f.b.toNat] = none →
      ∃ v, Retires s c g (.dsetn f) { sp := f.sp == 1 } (s.withGroup c fun h => h.setD f.x.toNat v) ∧
        v = if 0x8001 ≤ n.toNat ∧ n.toNat ≤ 0x80ff then dUndef else if d.isZero = true then d
          else if n = 0x8000 then dZero else if d.isUndef = true then d else { d with norm := n })) ∧
  (∀ (f : DDotF) (full : Bool) (s : State) (c : Cur) (g : Group),
    let i := if full then Instr.ddotf f else Instr.ddot f
    let inf : Info := { sp := f.sp == 1, beats := beatsOf g }
    i.illegalCode = none → Issues s c g inf →
    let x := s.issuing c g
    let a := x.dread f.a.toNat
    let b := x.dread f.b.toNat
    let dot : Int := ((List.range (2 * g.w)).map fun n => a.comp n * b.comp n).sum
    DirReady x [f.a.toNat, f.b.toNat] [f.a.toNat, f.b.toNat] → x.sWait [f.x.toNat] = none →
    ∃ v, Retires s c g i inf (s.withGroup c fun h => h.setS f.x.toNat v) ∧
      ((a.isUndef = true ∨ b.isUndef = true) → v = 0x7fc00000) ∧
      (a.isUndef = false → b.isUndef = false → (a.isZero = true ∨ b.isZero = true ∨ dot = 0) → v = 0) ∧
      (a.isUndef = false → b.isUndef = false → a.isZero = false → b.isZero = false → dot ≠ 0 →
        (full = false → v = fp32.code 32 f.r.toNat (.fin (decide (dot < 0)) dot.natAbs (-30))) ∧
        (full = true → let m := a.norm.toInt + b.norm.toInt
          ∀ p : Nat, (2 * p - 1) ^ 256 < 2 ^ (24 * 256 + (m % 256).toNat) → 2 ^ (24 * 256 + (m % 256).toNat) < (2 * p + 1) ^ 256 →
            v = fp32.code 32 f.r.toNat (.fin (decide (dot < 0)) (dot.natAbs * p) (m / 256 - 53)))))

/-- O31. DLD and DST access the 4W + 4 bytes at (S[B+1] || S[B]) + 64 X: an address that is not a multiple of 4 raises class 3 with detail 2, an access that is not allowed its fault. DLD starts the reads and enters the pipe with its register not ready; DST starts the write of the register's lanes and then its norm. No byte changes at the issue. (The waits for earlier accesses to the words: log 117.) DFROMV of FP16 or BF16 halves, or of the FP32 lanes of two registers, puts the direction of its 2W elements in the pipe; DTOV writes the elements of a direction, rounded, into the written lanes of one register of pairs or of two registers. Both retire. -/
def Obligations.DirectionMoves : Prop :=
  (∀ (f : DMemF) (s : State) (c : Cur) (g : Group), illegalDmem f = none →
    let inf := memInf f.sp g
    Issues s c g inf →
    let x := s.issuing c g
    let r := f.b.toNat
    let a : W64 := g.spair r + BitVec.ofNat 64 (64 * f.x.toNat)
    let words (d : DReg) : List LaneAcc := (List.range (g.w + 1)).map fun n => { lane := n, addr := a.toNat + 4 * n, x := if n < g.w then (d.comps.lane n).setWidth 64 else d.norm.setWidth 64 }
    x.sWait [r, r + 1] = none → f.a.toNat < x.d.dirs →
    (a.toNat % 4 ≠ 0 → Traps s c g (.dld f) 3 a 2) ∧
    (a.toNat % 4 = 0 → ∀ cls va det, x.accessFault? (words dZero) 4 1 = some (cls, va, det) → Traps s c g (.dld f) cls va det) ∧
    (a.toNat % 4 = 0 → x.accessFault? (words dZero) 4 1 = none → x.storeWait false (words dZero) 4 = none → x.room 0 (x.flagOf f.l) = none →
      let o : Op := { x.op (.dload f.a.toNat) with ctr := some 0, flag := x.flagOf f.l, lanes := words dZero, size := 4 }
      let e := (s.withGroup c fun h => { h with dpipe := h.dpipe ++ [{ id := s.stamp, d := f.a.toNat, path := c.path, pid := (g.path c.path).born, after := (g.path c.path).past, val := dZero, dov := false, ready := false, op := s.stamp }] }).startOp
        o fun id s => s.reads id o (touchedLines (words dZero) 4)
      SameBytes s e ∧ ((∃ h, e.group? c.core c.slot = some h) → Retires s c g (.dld f) inf e)) ∧
    (DirReady x [f.a.toNat] [f.a.toNat] →
      let ls := words (x.dread f.a.toNat)
      (a.toNat % 4 ≠ 0 → Traps s c g (.dst f) 3 a 2) ∧
      (a.toNat % 4 = 0 → ∀ cls va det, x.accessFault? ls 4 2 = some (cls, va, det) → Traps s c g (.dst f) cls va det) ∧
      (a.toNat % 4 = 0 → x.accessFault? ls 4 2 = none → x.loadWait false ls 4 = none → x.room 1 (x.flagOf f.l) = none →
        let o : Op := { x.op .store with ctr := some 1, flag := x.flagOf f.l, lanes := ls, size := 4, pages := touchedPages ls 4 }
        let e := s.off.startOp o fun id s => s.laneWrites id o 0
        SameBytes s e ∧ ((∃ h, e.group? c.core c.slot = some h) → Retires s c g (.dst f) inf e)))) ∧
  ((∀ (f : DfromvF) (s : State) (c : Cur) (g : Group), (Instr.dfromv f).illegalCode = none →
    let inf : Info := { sp := f.sp == 1, beats := beatsOf g }
    Issues s c g inf →
    let x := s.issuing c g
    let b := f.b.toNat
    DirReady x [f.a.toNat] [] →
    (f.t = 0 → x.laneFault [] [(b, 2)] [] = none → x.laneWait [] [(b, 2)] [] = none → Retires s c g (.dfromv f) inf
      (x.piped s.off f.a.toNat
        (dirOf ((List.range (2 * g.w)).map fun i => fp32.value ((g.vreg (b + i % 2)).lane (i / 2)).toNat)))) ∧
    (f.t ≠ 0 → x.laneFault [b] [] [] = none → x.laneWait [b] [] [] = none → Retires s c g (.dfromv f) inf
      (x.piped (s.off.popQueues x [b]) f.a.toNat
        (dirOf ((List.range (2 * g.w)).map fun i => (if f.t = 1 then fp16 else bf16).value
          (((x.vsrc b).lane (i / 2)).extractLsb' (16 * (i % 2)) 16).toNat))))) ∧
  (∀ (f : DtovF) (s : State) (c : Cur) (g : Group), (Instr.dtov f).illegalCode = none → f.t ≠ 0 →
    let inf : Info := { sp := f.sp == 1, beats := beatsOf g }
    Issues s c g inf →
    let x := s.issuing c g
    let d := x.dread f.a.toNat
    let code (n : Nat) : BitVec 16 := (if f.t = 1 then fp16 else bf16).code 16 f.r.toNat (d.shown (f.k == 1) n)
    let o : LaneOp := { dst := f.x.toNat, mask := (g.path c.path).mask, lane := fun l => code (2 * l + 1) ++ code (2 * l) }
    DirReady x [f.a.toNat] [f.a.toNat] → LaneReady x o → ∃ e t, exec (.dtov f) s = .next t ∧ LaneWrote x o e ∧ Retired s e t c g inf) ∧
  (∀ (f : DtovF) (s : State) (c : Cur) (g : Group), (Instr.dtov f).illegalCode = none → f.t = 0 →
    let inf : Info := { sp := f.sp == 1, beats := beatsOf g }
    Issues s c g inf →
    let x := s.issuing c g
    let d := x.dread f.a.toNat
    let v := f.x.toNat
    DirReady x [f.a.toNat] [f.a.toNat] → x.laneFault [] [(v, 2)] [] = none → x.laneWait [] [] [v, v + 1] = none → (s.core c.core).twoFree g.wc →
    queueOf x.d.qmask v = none → ∃ e h, Retires s c g (.dtov f) inf e ∧ e.group? c.core c.slot = some h ∧ h = { g with v := h.v, vname := h.vname } ∧
      ∀ n, h.vreg n = if n = v ∨ n = v + 1 then
        VReg.merge g.w (g.path c.path).mask (fun l => fp32.code 32 f.r.toNat (d.shown (f.k == 1) (2 * l + (n - v)))) (g.vreg n) else g.vreg n))

/-- O32. Each bring-up event in its state moves the device on or to YELLOW: a reset gives REG and keeps the last management sequence; regulators give TIME with the postmark at 0; trained lanes TEST; self-test MEAS, or YELLOW on a failed channel or SRAM; good images READY with their digests; a bad image, a lane or regulator failure or a time limit YELLOW. Locks set PMLOCK and the first sets the postmark; a settled voltage is recorded. (What stays over a reset, that memory then lists nothing, which failure's code and unit stand, that a regulator fault outside REG changes no state, and what a lock does to the postmark are the model's: logs 1, 57, 58, 59, 60, 61, 83 and 113.) -/
def Obligations.BringUp : Prop :=
  ∀ s : State,
    (∀ on, Leaves s (.powerOnReset on) fun t => t.bring = 0 ∧ t.cores = [] ∧ t.msys.cells = [] ∧ t.reg .mseqlast = s.reg .mseqlast ∧
      t.rfld .bstat 24 8 = if on then 0 else s.rfld .bstat 24 8) ∧
    (s.bring = 0 → Leaves s .regulatorsStarted fun t => t.bring = 1 ∧ t.now = 0 ∧ t.rfld .vdstat 0 8 = 255) ∧
    (∀ d, d < 8 → Leaves s (.regulatorFault d) fun t => t.rfld .vdstat d 1 = 0 ∧ t.rfld .vdstat (8 + d) 1 = 1 ∧
      t.bring = if s.bring = 0 then 5 else s.bring) ∧
    (∀ d, d < 8 → Leaves s (.voltageBackInRegulation d) fun t => t.rfld .vdstat d 1 = 1 ∧ RegsBut s t [.vdstat]) ∧
    (s.bring = 1 → Leaves s .hostPortLanesTrained fun t => t.bring = 2 ∧ t.rfld .hpstat 0 4 = 15) ∧
    (s.bring = 1 → ∀ lanes k j, k < 4 → k ∈ lanes → j < 4 → j ∉ lanes → (∀ i, i < j → i ∈ lanes) →
      Leaves s (.hostLaneTrainingFailure lanes) fun t => t.bring = 5 ∧ t.rfld .hpstat 0 4 = 2 ^ j ∧ (s.rfld .bstat 8 8 = 0 → t.rfld .bstat 8 8 = 5)) ∧
    (s.bring ≠ 0 → ∀ time, Leaves s (.ieee1588Lock time) fun t => t.rfld .bstat 3 1 = 1 ∧ t.now = if s.boot.locked then s.now else time.toNat) ∧
    Leaves s .ieee1588LockLoss (fun t => t.rfld .bstat 3 1 = 0 ∧ t.now = s.now ∧ t.boot.ppm = 0) ∧
    (s.bring = 2 → ∀ fs, Leaves s (.selfTestComplete fs) fun t =>
      ((∀ f ∈ fs, ∃ l k, f = .lodraLane l k) → t.bring = 3) ∧
      ((∃ f ∈ fs, f = .otherSram ∨ ∃ c, f = .hbmChannel c) → t.bring = 5)) ∧
    (s.bring = 3 → ∀ images, Leaves s (.firmwareMeasurement images) fun t =>
      ((∀ i ∈ loadOrder images, imageOk i = true) → t.bring = 4 ∧ t.boot.digests = (loadOrder images).map digestOf) ∧
      ((∃ i ∈ loadOrder images, imageOk i = false) → t.bring = 5 ∧ (s.rfld .bstat 8 8 = 0 → t.rfld .bstat 8 8 = 6))) ∧
    (∀ limit, (s.bring, limit) ∈ [(0, 5000000), (1, 2000000000), (2, 1500000000), (3, 300000000)] → s.boot.entered + limit < s.now →
      Leaves s .bringupStateTimeout fun t => t.bring = 5 ∧ (s.rfld .bstat 8 8 = 0 → t.rfld .bstat 8 8 = 2)) ∧
    (∀ q k, s.boot.rise.find q = some k → Leaves s (.voltageSettled q) fun t => t.boot.volt.get 0 q = min (s.boot.volt.get 0 q) (max k ((s.neededVolt q).getD k)) ∧ t.boot.rise.find q = none ∧ t = { s with boot := t.boot })

/-- O33. A verified image of a valid partition, with no update under way, takes its digest's place and its partition is updated; retraining holds one channel for 2 ms and a host lane for 20 us until they are done; a link under recalibration runs without its lane in status 5 and returns to 2; a free spare takes a slice's number, and without one the unit is out of service. (That updates go one after another with their digests replaced at once, that a slice moves in one step, that a unit without a spare stays out of service, and what a host lane's recalibration holds: logs 45, 56, 65 and 89.) -/
def Obligations.Maintenance : Prop :=
  ∀ s : State,
    (∀ part image, s.bring = 4 → s.partValid part = true → image.stage = 2 → image.part = part → imageOk image = true →
      Leaves s (.partitionFirmwareUpdate part image) fun t =>
        (s.boot.updating = none → t.boot.updating = some part ∧ t.boot.digests = replaceDigest s.boot.digests (digestOf image)) ∧
        (s.boot.updating ≠ none → t = { s with boot := { s.boot with updates := s.boot.updates ++ [(part, image)] } })) ∧
    (∀ ch, ch < 64 → s.boot.hbmHeld = none → exec (.hbmChannelRetraining ch) s = .next { s with boot := { s.boot with hbmHeld := some (ch, s.now + 2000000) } }) ∧
    (∀ ch d, s.boot.hbmHeld = some (ch, d) → exec (.hbmChannelRetrainingComplete ch) s = .next { s with boot := { s.boot with hbmHeld := none } }) ∧
    (∀ n k, n < 16 → k < 8 →
      (s.rfld (.lstat n) 9 3 = 2 → Leaves s (.lodraLaneRecalibration n k) fun t =>
        t.rfld (.lstat n) 9 3 = 5 ∧ t.rfld (.lstat n) (1 + k) 1 = 0 ∧ (t.link n).recal = some k ∧ RegsBut s t [.lstat n]) ∧
      (s.rfld (.lstat n) 9 3 = 5 → (s.link n).recal = some k → Leaves s (.lodraLaneRecalibrationComplete n k) fun t =>
        t.rfld (.lstat n) 9 3 = 2 ∧ t.rfld (.lstat n) (1 + k) 1 = 1 ∧ (t.link n).recal = none ∧ RegsBut s t [.lstat n])) ∧
    (∀ k, k < 4 → s.boot.hostLane = none → s.rfld .hpstat k 1 = 1 →
      exec (.hostPortLaneRecalibration k) s = .next { s with boot := { s.boot with hostLane := some (k, s.now + 20000) } }) ∧
    (∀ k d, s.boot.hostLane = some (k, d) → Leaves s (.hostPortLaneRecalibrationComplete k) fun t => t.boot.hostLane = none ∧
      (s.host.pauseUntil ≤ s.now → t.host.out = s.host.out ++ s.host.waiting ∧ t.host.waiting = [])) ∧
    (s.bring = 4 → s.boot.remap = none → ∀ sl u, u < (if sl then 64 else 128) →
      (s.freeSpare (quadOfPart sl u) sl = none → Leaves s (.spareRemap sl u) fun t => (sl, u) ∈ t.boot.outOfService ∧ (sl = true → t = { s with boot := t.boot })) ∧
      (∀ k, sl = true → s.freeSpare (quadOfPart sl u) sl = some k → Leaves s (.spareRemap sl u) fun t =>
        t.rfld .spmap (16 * quadOfPart sl u + k) 1 = 1 ∧ t.boot.spareUse = s.boot.spareUse ++ [(sl, u, k % 2)]))

/-- O34. Each CONFIG subfunction and METERSET on an accepted message does its work and answers: status and register reads, a write set applied in order, or refused with nothing applied, staged firmware bytes, a retest from YELLOW to TEST, a reset to REG, the signed attestation report, a queue pair created or destroyed, a meter raised and never lowered. (The byte layouts of the answers, the order of the refusals, which limits make a set malformed, and what a retest and a reset leave: logs 54, 55, 56, 57, 58, 62, 82, 110 and 111.) -/
def Obligations.ManagementMessages : Prop :=
  ∀ (s : State) (m : MgmtMsg),
    let sub (n : Nat) : Prop := isConfig m n = true
    (sub 0 → Accepted s m false true [(8, 1)] → Leaves s (.configStatusRead m) fun t => t.reg .mseqlast = m.mseq ∧ RegsBut s t [.mseqlast] ∧
      Answered s t m 0 (([.bstat, .vdstat, .spmap, .hpstat] : List RegName).flatMap (fun r => bytesLE 8 (s.reg r).toNat) ++ s.boot.reportBytes)) ∧
    (sub 2 → Accepted s m false false [(8, 1)] → m.payload.length % 8 = 0 → Leaves s (.configRegisterRead m) fun t => RegsBut s t [.mseqlast] ∧
      Answered s t m 0 ((words m.payload (m.payload.length / 8)).flatMap fun a => bytesLE 8 ((s.taken m).readAddr a).toNat)) ∧
    (sub 1 → Accepted s m true false [(8, 1)] → m.payload.length % 24 = 0 → ∀ ws, regWrites (words m.payload (m.payload.length / 8)) = some ws →
      let u := (s.taken m).afterWrites ws
      Leaves s (.configRegisterWriteSet m) fun t =>
        (∀ n, (s.taken m).setProblem u (ws.map RegWrite.name).eraseDups = some n → RegsBut s t [.mseqlast] ∧ Answered s t m n []) ∧
        ((s.taken m).setProblem u (ws.map RegWrite.name).eraseDups = none → RegsBut u t ((List.range 128).map RegName.clend ++ (List.range 48).flatMap (fun n => [RegName.pstat n, .pslst n]) ++
          [.svsta, .svstb, .lsta, .lstb]))) ∧
    (sub 3 → Accepted s m true true [(8, 2), (16, 8)] → cmdField m 9 1 = 0 → Leaves s (.configFirmwareLoad m) fun t => Answered s t m 0 [] ∧
      ∀ i b, m.payload[i]? = some b → t.boot.staged.find (cmdField m 16 8 + i) = some b) ∧
    (sub 4 → Accepted s m true true [(8, 1)] → s.bring = 5 → Leaves s (.configRetest m) fun t => t.bring = (if s.boot.failedLanes = [] then 2 else 5) ∧ t.rfld .bstat 8 8 = 0 ∧
      t.rfld .bstat 24 8 = min 255 (s.rfld .bstat 24 8 + 1) ∧ Answered s t m 0 []) ∧
    (sub 5 → Accepted s m true true [(8, 1)] → Leaves s (.configReset m) fun t => t.bring = 0 ∧ t.cores = [] ∧ t.msys.cells = [] ∧ t.reg .mseqlast = m.mseq ∧
      ∀ n i, n ≤ 256 → i < 6 → t.reg (.fmeter n i) = s.reg (.fmeter n i)) ∧
    (sub 6 → Accepted s m false true [(8, 1), (16, 32)] → Leaves s (.configAttestation m) fun t =>
      let r := s.attestation ((m.command.drop 16).take 32)
      Answered s t m 0 (r ++ Config.identitySign (Config.sha512 r))) ∧
    (sub 7 → Accepted s m true false [(8, 2), (16, 2), (20, 28)] → ∀ n, cmdField m 16 2 = n → 16 ≤ n → n < 257 * 16 →
      cmdField m 20 4 < 2 ^ 24 → cmdField m 24 4 < 2 ^ 24 → cmdField m 28 4 < 2 ^ 24 →
      (cmdField m 9 1 = 0 → s.host.qps.find n = none → Leaves s (.configQueuePair m) fun t => Answered s t m 0 [] ∧ ∃ q, t.host.qps.find n = some q ∧
        q.peer.toNat = cmdField m 32 16 ∧ q.peerQp = cmdField m 20 4 ∧ q.rxPsn.toNat = cmdField m 24 4 ∧ q.txPsn.toNat = cmdField m 28 4 ∧ q.unacked = []) ∧
      (cmdField m 9 1 = 1 → s.host.qps.find n ≠ none → Leaves s (.configQueuePair m) fun t => Answered s t m 0 [] ∧ t.host.qps.find n = none)) ∧
    (cmdField m 0 1 = 0x41 → Accepted s m true false [(8, 3), (16, 8)] → cmdField m 8 2 ≤ 256 → cmdField m 10 1 ≤ 5 → Leaves s (.meterset m) fun t =>
      let r := RegName.fmeter (cmdField m 8 2) (cmdField m 10 1)
      let v := cmdField m 16 8
      ((s.reg r).toNat ≤ v → (t.reg r).toNat = v ∧ RegsBut s t [.mseqlast, r] ∧ Answered s t m 0 []) ∧
      (v < (s.reg r).toNat → RegsBut s t [.mseqlast] ∧ Answered s t m 3 []))

/-- O35. An ended context loses its instances and edges once nothing of it stands; a new partition geometry completes when none of its flits is under way; lines in ways that left a group's mask are gone; each engine of a template has its instance; LENDABLE homes return to OWNED; a queue that leaves its context loses its ring; an invalidation removes the context's translations, or is refused at a lease. (What stays of a destroyed context, which instances a template has, and what becomes of a cluster's homes: logs 63 and 64.) -/
def Obligations.RegisterWritesStart : Prop :=
  ∀ s : State,
    (∀ ctx, s.ctxValid ctx = false → Bare s ctx →
      (∀ i, i < 1024 → s.rteValid i = true → s.rteLctx i ≠ ctx) → Leaves s (.contextDestroy ctx) fun t =>
        (∀ v ∈ t.srvs, v.ctx ≠ ctx) ∧ (∀ e ∈ t.sched.lastCore, e.1 ≠ ctx) ∧ ∀ k, k < 4096 → s.rfld (.edgst k) 0 1 = 1 → s.rfld (.edgst k) 1 9 = ctx → t.reg (.edgst k) = 0) ∧
    (∀ n, (∃ e ∈ s.host.replies, Instr.partitionTableChange n ∈ e.2) → Leaves s (.partitionTableChange n) fun t =>
      (s.partValid n = false → t.slew.find n = none) ∧
      ((∀ e ∈ s.pkts, e.2.part = n → ∀ r, e.2.stage ≠ .net r) → ∀ e ∈ t.host.replies, Instr.partitionTableChange n ∉ e.2) ∧
      ((∃ e ∈ s.pkts, e.2.part = n ∧ ∃ r, e.2.stage = .net r) → t = { s with slew := t.slew })) ∧
    (∀ n old, Leaves s (.wayMaskChange n old) fun t =>
      let gone (b : Nat) := old.getLsbD b = true ∧ (s.reg (.sgmask n)).getLsbD b = false
      (∀ e ∈ t.cores, ∀ l ∈ e.2.l1, ¬ (l.sg = n ∧ gone l.way)) ∧ ∀ ln l, t.msys.l2.find ln = some l → ¬ (l.sg = n ∧ gone (8 + l.way))) ∧
    (∀ ctx cls, cls < 4 → ctx < 256 → s.ctxValid ctx = true → Leaves s (.serverTemplateChange ctx cls) fun t =>
      (∀ v ∈ t.srvs, v.cls = cls → s.ctxValid v.ctx = true → s.holds cls (engineUnit cls v.inst) v.ctx = true) ∧
      ∀ e ∈ s.ctxEngines ctx cls, ((s.srvsAt cls e).length < arbiterSlots cls ∨ ∃ v ∈ s.srvs, v.is cls e ctx 0 = true) → ∃ v ∈ t.srvs, v.is cls e ctx 0 = true) ∧
    (∀ ctx, Leaves s (.serverTemplateChange ctx 4) fun t => t = { s with srvs := t.srvs } ∧
      ∀ v ∈ t.srvs, v.cls = 4 → v.ctx = ctx → s.rteValid v.route = true → (s.reg (.svlink v.route)).getLsbD 52 = true) ∧
    (∀ ctx, s.rfld (.ctxcfg ctx) 15 1 = 0 → s.sched.cmds = [] → (∀ c ∈ s.homes ctx, s.clState c ≤ 1) → Leaves s (.lendClear ctx) fun t =>
      (∀ c ∈ s.homes ctx, t.clState c = 0) ∧ RegsBut s t ((s.homes ctx).map RegName.clend)) ∧
    (∀ q, (s.ring q).isSet = true → s.queueCtx q ≠ some (s.ring q).ctx → (s.ring q).head = (s.ring q).tail →
      Leaves s (.hardwareQueueBind q) fun t => t.ring q = {} ∧ ∀ k, k ≠ q → t.ring k = s.ring k) ∧
    (∀ v : W64, v.getLsbD 9 = true →
      ((∀ e ∈ s.msys.tinvs, e.1 ≠ v) → (∃ e ∈ s.msys.leases, e.1 / 256 = fld v 0 9 ∧ e.2.st ≠ 0 ∧ e.2.base < 2 ^ 52 ∧ 0 < e.2.base + e.2.len) →
        Leaves s (.tinv v) fun t => t.rfld .tinvst 1 1 = 1 ∧ t.rfld .tinvst 0 1 = s.rfld .tinvst 0 1 ∧ t.cores = s.cores ∧ t.msys = s.msys) ∧
      (s.msys.tinvs = [] → (∀ e ∈ s.msys.leases, e.1 / 256 = fld v 0 9 → e.2.st = 0) → (∀ e ∈ s.pkts, e.2.ctx ≠ fld v 0 9) →
        (∀ e ∈ s.msys.walkers, ∀ k, e.2.walk = some k → k.ctx ≠ fld v 0 9) →
        Leaves s (.tinv v) fun t => t.reg .tinvst = 0 ∧ ∀ n, ∀ e ∈ (t.core n).tlb, e.ctx = fld v 0 9 → e ∈ (s.core n).tlb ∧ 2 ^ 52 ≤ e.page * pageBytes e.size))

/-- O36. TRACE_ENABLE clears the trace counts; acknowledged records are counted as written; records of a context that does not trace are dropped; a due sample moves its period on; the shared counters are snapshot at each multiple of 1000 ns; DSEL fills DRD0 with the selected uniform register; DRESUME lets the named paths go on; DCLR clears a quarter's counters. (What a sample holds, and when records count as written: logs 40, 41 and 94.) -/
def Obligations.DebugBlock : Prop :=
  ∀ s : State,
    (∀ ctx, s.rfld (.dbgcfg ctx) 1 1 = 1 → Leaves s (.traceEnable ctx) fun t =>
      t.mon.written.get 0 ctx = 0 ∧ t.mon.lost.get 0 ctx = 0 ∧ t.mon.performed.get 0 ctx = 0) ∧
    (∀ ctx, s.rfld (.dbgcfg ctx) 1 1 = 1 → (∀ e ∈ s.ops, e.2.ctx ≠ ctx) → Leaves s (.traceWrittenUpdate ctx) fun t =>
      t.mon.written.get 0 ctx = s.mon.performed.get 0 ctx) ∧
    (∀ ctx, s.rfld (.dbgcfg ctx) 1 1 = 0 → Leaves s (.traceWrittenUpdate ctx) fun t => ∀ e ∈ t.cores, ∀ r ∈ e.2.trace, r.ctx ≠ ctx) ∧
    (∀ core q ctx, (∃ e ∈ (s.core core).groups, e.2.ctx = ctx) → s.sampleDue core q ctx = true → Leaves s (.sample core q) fun t =>
      t.mon.sampleFrom.get 0 (sampleKey core q ctx) = s.mon.sampleFrom.get 0 (sampleKey core q ctx) - 2 ^ s.rfld (.dbgcfg ctx) 8 5) ∧
    (s.now % 1000 = 0 → (∀ e ∈ s.mon.snaps, e.1 ≠ s.now) → exec .counterSnapshot s =
      .next { s with mon := { s.mon with snaps := (s.now, s.mon.shared) :: s.mon.snaps.take 65536 } }) ∧
    (∀ v : W64, Leaves s (.dsel v) fun t =>
      let w := RegName.written .dsel (s.reg .dsel) v (BitVec.allOnes 64)
      t.reg .dsel = w ∧ (∀ g, fld w 8 3 = 7 → s.group? (fld w 0 8) (fld w 11 14 / 192) = some g → t.reg (.drd 0) = (g.sreg (fld w 11 14 % 192)).setWidth 64) ∧
      t = { s with regs := t.regs }) ∧
    (∀ (v : W64) g, s.group? (fld v 0 8) (fld v 8 6) = some g → g.ctx = fld v 22 9 → Leaves s (.dresume v) fun t => ∃ h, t.group? (fld v 0 8) (fld v 8 6) = some h ∧
      ∀ i, i < 8 → i < g.paths.length → h.path i = if v.getLsbD (14 + i) = true ∧ (g.path i).valid = true ∧ (g.path i).dstop = true
        then { g.path i with dstop := false, bpSkip := some (g.path i).pc } else g.path i) ∧
    (∀ v : W64, Leaves s (.dclr v) fun t => (∀ b, b < 17 → t.reg (.hist (fld v 0 10) b) = 0) ∧ (∀ r, r < 11 → t.reg (.reason (fld v 0 10) r) = 0) ∧
      t = { s with regs := t.regs })

/-- O37. A frame outside a secure association or above the MTU is dropped and counted (of the MTU the spec gives only the number: log 85); a good one goes to its address, a management message on its port. Key agreement by another key changes nothing. Echoes and solicitations of configured addresses are answered. A one-step Sync asks for the delay, stamped as it leaves; its answer sets the rate against the offset, within 200 ppm. A message of one packet in its turn from its fixed peer is carried out at the home slices, entering the grid by their gateways, and answered once that is over, or is NAKed without effect; a doorbell is delivered and acknowledged; acknowledged requests are freed; a sequence NAK or 100 us without acknowledgement sends the rest again; READ data goes to its COPYH's chunk; a pause holds transmission until it ends. (The model's choices here: logs 52, 65, 66, 84, 85, 113.) -/
def Obligations.HostPortFrames : Prop :=
  ∀ s : State,
    (∀ f : Frame, s.portUp = true → f.mka = false →
      ((f.secured = false ∨ f.icvOk = false ∨ 9216 < f.len) → Leaves s (.ethernetFrame f) fun t => t.rfld .hpstat 16 32 = min (2 ^ 32 - 1) (s.rfld .hpstat 16 32 + 1) ∧ t.turns = s.turns) ∧
      (f.secured = true → f.icvOk = true → f.len ≤ 9216 →
        (∀ m i, f.what = .mgmt (s.rfld .hpcfg 0 16) m → f.dst = s.hmaddr → f.dst ≠ 0 → mgmtEvent m = some i → Leaves s (.ethernetFrame f) fun t => t.turns = .ev i :: s.turns) ∧
        (∀ port m, f.what = .mgmt port m → port ≠ s.rfld .hpcfg 0 16 ∨ s.hmaddr = 0 → Leaves s (.ethernetFrame f) fun t =>
          t.rfld .hpstat 16 32 = min (2 ^ 32 - 1) (s.rfld .hpstat 16 32 + 1) ∧ t.turns = s.turns) ∧
        (∀ h key range d, f.what = .rdmaWrite h key range d → s.forGuest f.dst h.qpn = true → Leaves s (.ethernetFrame f) fun t => t.turns = .ev (.rdmaWrite h key range d) :: s.turns) ∧
        (f.what = .other → Leaves s (.ethernetFrame f) fun t => t.rfld .hpstat 16 32 = min (2 ^ 32 - 1) (s.rfld .hpstat 16 32 + 1)))) ∧
    (∀ m : MkaMsg, m.cak ≠ s.host.cak → exec (.mkaFrame m) s = .next s) ∧
    (∀ live, s.portUp = true → Leaves s (.mkaFrame { live, cak := s.host.cak }) fun t => t.rfld .hpstat 4 1 = (if live then 1 else 0) ∧ RegsBut s t [.hpstat]) ∧
    (∀ src dst data, s.portUp = true → s.configured dst = true → Leaves s (.icmpv6Echo src dst data) fun t => Sent s t (.echoReply src dst data)) ∧
    (∀ src dst, s.portUp = true → s.configured dst = true → Leaves s (.neighbourDiscovery src dst) fun t => Sent s t (.neighbourReply src dst)) ∧
    (∀ (m : PtpMsg) t1, m.port = 319 → m.kind = .sync false t1 → Leaves s (.ptpMessage m) fun t => Sent s t (.delayReq m.master m.seq) ∧
      t.host.ptp = { master := m.master, seq := m.seq, came := some s.now, origin := some t1.toNat,
                       asked := if s.host.pauseUntil ≤ s.now ∧ s.boot.hostLane = none then some s.now else none } ∧ t.boot = s.boot) ∧
    (∀ master seq, s.host.pauseUntil ≤ s.now → s.boot.hostLane = none → s.host.waiting = [.delayReq master seq] → s.host.ptp.master = master → s.host.ptp.seq = seq →
      s.host.ptp.asked = none → Leaves s .pfcPauseExpiry fun t => t.host.ptp = { s.host.ptp with asked := some s.now }) ∧
    (∀ (m : PtpMsg) t1 t2 t3 (t4 : BitVec 64), m.port = 320 → m.kind = .delayResp t4 →
      s.host.ptp = { master := m.master, seq := m.seq, came := some t2, origin := some t1, asked := some t3 } → s.rfld .bstat 3 1 ≠ 0 →
      let twice : Int := ((t2 : Int) - t1) - ((t4.toNat : Int) - t3)
      Leaves s (.ptpMessage m) fun t => -200 ≤ t.boot.ppm ∧ t.boot.ppm ≤ 200 ∧ (0 < twice → t.boot.ppm < 0) ∧ (twice < 0 → 0 < t.boot.ppm) ∧ (twice = 0 → t.boot.ppm = 0) ∧
        t.host = { s.host with ptp := {} } ∧ t.regs = s.regs) ∧
    (∀ (h : RoceHdr) (q : QPair), InTurn s h q → q.jobs = [] →
      let ctx := h.qpn / 16 - 1
      let works (t : State) (w : PortWork) : Prop := t.msys = s.msys ∧ t.host.out = s.host.out ∧ t.host.waiting = s.host.waiting ∧
        t.host.qps.find h.qpn = some { q with rxPsn := q.rxPsn + 1, jobs := [{ work := w, op := some s.stamp }] }
      let refused (t : State) : Prop := Sent s t (.nakAccess h.qpn h.psn) ∧ t.msys = s.msys ∧ t.host.qps.find h.qpn = some { q with write := none, send := none }
      (∀ key (va : W64) (d : Bytes), 0 < d.length → d.length ≤ 4096 → h.form = .only → q.write = none → q.send = none →
        (s.hostMay ctx key va.toNat d.length = true → s.reaches ctx (gateWrites va.toNat d) → Leaves s (.rdmaWrite h key { va, len := d.length } d) fun t =>
          works t (.write h key va.toNat d.length d) ∧ ThroughGate s t (portOp ctx va.toNat d.length (.portWrite (some h.qpn))) (gateWrites va.toNat d)) ∧
        (s.hostMay ctx key va.toNat d.length = false → Leaves s (.rdmaWrite h key { va, len := d.length } d) refused)) ∧
      (∀ key (va : W64) len, 0 < len → len ≤ 4096 →
        (s.hostMay ctx key va.toNat len = true → s.reaches ctx (s.gateReads ctx va.toNat len) → Leaves s (.rdmaRead h key va len) fun t =>
          works t (.read h key va.toNat len) ∧ ThroughGate s t (portOp ctx va.toNat len (.portRead (some h.qpn))) (s.gateReads ctx va.toNat len)) ∧
        (s.hostMay ctx key va.toNat len = false → Leaves s (.rdmaRead h key va len) refused)) ∧
      (∀ d, h.qpn % 16 ≠ 0 → Leaves s (.send h d) fun t => Sent s t (.nakInvalid h.qpn h.psn) ∧ t.turns = s.turns) ∧
      (∀ d, h.qpn % 16 = 0 → d.length = 16 → h.form = .only → q.write = none → q.send = none →
        (d[0]? = some 1 → Leaves s (.send h d) fun t => Sent s t (.roceAck h.qpn h.psn) ∧ t.turns = .ev (.setRing (doorbellOf ctx d)) :: .port h.qpn :: s.turns) ∧
        (d[0]? = some 2 → Leaves s (.send h d) fun t => Sent s t (.roceAck h.qpn h.psn) ∧ t.turns = .ev (.advanceTail (doorbellOf ctx d)) :: .port h.qpn :: s.turns) ∧
        (d[0]? = some 3 → Leaves s (.send h d) fun t => Sent s t (.roceAck h.qpn h.psn) ∧ t.turns = .ev (.resetRing (doorbellOf ctx d)) :: .port h.qpn :: s.turns))) ∧
    (∀ (h : RoceHdr) key va n (d : Bytes) (o : Op),
      (JobOver s h.qpn (.write h key va n d) o → Sent s (s.portGoes h.qpn) (if o.fail = none then .roceAck h.qpn h.psn else .nakAccess h.qpn h.psn)) ∧
      (n ≤ 4096 → JobOver s h.qpn (.read h key va n) o →
        Sent s (s.portGoes h.qpn) (if o.fail = none then .readResponse h.qpn h.psn .only (o.bytes va n) else .nakAccess h.qpn h.psn))) ∧
    (∀ (h : RoceHdr) (q : QPair), s.fromPeer h = some q →
      (∀ us rest, q.unacked = us ++ rest → us ≠ [] → (∀ u ∈ us, psnUpTo u.psn h.psn = true ∧ u.isRead = false ∧ u.cmd = none) →
        (∀ u, rest.head? = some u → psnUpTo u.psn h.psn = false ∨ u.isRead = true) →
        Leaves s (.roceAck h) fun t => t.host.qps.find h.qpn = some { q with unacked := rest, sentAt := s.now }) ∧
      ((∀ u, q.unacked.head? = some u → psnUpTo u.psn (h.psn - 1) = false) → s.host.pauseUntil ≤ s.now → s.boot.hostLane = none →
        Leaves s (.roceNak { h, kind := .sequence }) fun t => t.host.out = s.host.out ++ q.unacked.map Unacked.out) ∧
      (∀ u us d, h.form = .only → q.unacked = u :: us → u.isRead = true → u.psn = h.psn → u.moves = d.length → u.cmd = none →
        Leaves s (.rdmaReadResponse h d) fun t => t.host.qps.find h.qpn = some { q with unacked := us, sentAt := s.now }) ∧
      (∀ u us d id c, h.form = .only → q.unacked = u :: us → u.isRead = true → u.psn = h.psn → u.moves = d.length → u.cmd = some id → s.sched.cmds.find id = some c →
        2 ≤ (s.lease c.ctx (c.lease.getD 255)).st → h.qpn = qpNum c.ctx (c.fld 28 1) →
        Leaves s (.rdmaReadResponse h d) fun t => t.msys = s.msys ∧ t.host.qps.find h.qpn = some { q with unacked := us, sentAt := s.now } ∧
          t.sched.cmds.find id = some { c with buf := d, phase := if (s.copyhCore c.ctx).isNone then .granted else .ready })) ∧
    (∀ n q, s.host.qps.find n = some q → q.unacked ≠ [] → q.sentAt + 100000 ≤ s.now → s.host.pauseUntil ≤ s.now → s.boot.hostLane = none →
      Leaves s (.retransmissionTimeout n) fun t => t.host.out = s.host.out ++ q.unacked.map Unacked.out) ∧
    (∀ prio ns, s.rfld .hpcfg 16 1 = 1 → s.rfld .hpcfg 17 3 = prio.toNat → Leaves s (.pfcPause prio ns) fun t => t.host.pauseUntil = s.now + ns ∧
      (0 < ns → t.host.out = s.host.out ∧ t.host.waiting = s.host.waiting)) ∧
    (s.host.pauseUntil ≤ s.now → s.boot.hostLane = none → Leaves s .pfcPauseExpiry fun t => t.host.out = s.host.out ++ s.host.waiting ∧ t.host.waiting = [])

/-- O38. SET_RING binds an empty queue whose rings lie in live leases with head, tail and completion count 0; ADVANCE_TAIL within 2^k of the head moves the tail, or is held during a reset; RESET_RING waits for the taken commands and then completes the untaken ones, moves the head to the tail as it stood and checks the held tails in order (log 51); COMMAND_TAKE moves the head by one and submits the command, sends LAUNCH on, or completes it with the first failing check. -/
def Obligations.Rings : Prop :=
  ∀ s : State,
    (∀ (d : Doorbell) q, s.bellQueue d = some q → d.resv = 0 →
      (∀ a b, d.logn.toNat ≤ 16 → d.base.toNat % 64 = 0 → (s.ring q).head = (s.ring q).tail → (s.ring q).reset = none → (∀ e ∈ s.sched.cmds, e.2.queue ≠ q) →
        s.liveLease d.ctx d.base.toNat (64 * 2 ^ d.logn.toNat) 1 = some a → s.liveLease d.ctx (d.base.toNat + 64 * 2 ^ d.logn.toNat) (16 * 2 ^ d.logn.toNat) 2 = some b →
        Leaves s (.setRing d) fun t => t.rfld (.hqdone q) 0 32 = 0 ∧
          t.ring q = { isSet := true, ctx := d.ctx, base := d.base, logn := d.logn.toNat, leaseC := a, leaseD := b, head := 0, tail := 0 }) ∧
      ((s.ring q).reset ≠ none → Leaves s (.advanceTail d) fun t => t.ring q = { s.ring q with held := (s.ring q).held ++ [d] }) ∧
      ((s.ring q).reset = none → (s.ring q).isSet = true → ((s.ring q).tail - (s.ring q).head).toNat ≤ (d.tail - (s.ring q).head).toNat →
        (d.tail - (s.ring q).head).toNat ≤ 2 ^ (s.ring q).logn → Leaves s (.advanceTail d) fun t => t.ring q = { s.ring q with tail := d.tail }) ∧
      Leaves s (.resetRing d) fun t => t.ring q = { s.ring q with reset := some (s.ring q).tail } ∧ ∀ k, k ≠ q → t.ring k = s.ring k) ∧
    (∀ q ctx tail, s.queueCtx q = some ctx → (s.ring q).reset = some tail → (∀ e ∈ s.sched.cmds, e.2.queue ≠ q) → Leaves s (.resetRingComplete q) fun t =>
      ∃ u : State, u.ring q = { s.ring q with head := tail, reset := none, held := [], failed := false, was := [] } ∧ u.msys.leases = s.msys.leases ∧
        u.rfld (.hqdone q) 0 32 = (s.rfld (.hqdone q) 0 32 + (tail - (s.ring q).head).toNat) % 2 ^ 32 ∧ t = (s.ring q).held.foldl (fun s d => s.advanceTail q d) u) ∧
    (∀ q ctx, s.queueCtx q = some ctx → (s.ring q).isSet = true → (s.ring q).dead = false → (s.ring q).reset = none → (s.ring q).head ≠ (s.ring q).tail →
      s.pendOf q < 256 → (∀ e ∈ s.sched.cmds, ¬ (e.2.queue = q ∧ e.2.opc = 1 ∧ e.2.grid = none)) →
      let slot := s.slotCmd q ctx (s.ring q).head
      let c := { slot with fenceFail := (s.ring q).failed, bytes := mixWords s.free (s.ring q).was slot.bytes }
      Leaves s (.commandTake q) fun t =>
        ((s.takeCheck c).isSome = true → t.sched.cmds.find s.stamp = none ∧ (t.ring q).head = (s.ring q).head + 1) ∧
        (s.takeCheck c = none → c.opc = 1 → t.sched.cmds.find s.stamp = some c ∧ (t.ring q).head = (s.ring q).head + 1 ∧ t.turns = .ev (.launch s.stamp) :: s.turns) ∧
        (s.takeCheck c = none → c.opc ≠ 1 → c.opc ≠ 4 → (t.sched.cmds.find s.stamp).isSome = true ∧ (t.ring q).head = (s.ring q).head + 1 ∧
          t.rfld (.hqsub q) 0 8 = (s.rfld (.hqsub q) 0 8 + 1) % 256))

/-- O39. Each guest command in its turn: LAUNCH makes a grid of its descriptor and, once leases and edges allow, joins its queue with the edge counts taken; COPYH takes its next chunk through the home slices, its copy unit and the host port; LEASE gives frames, writes their leaves and becomes LIVE; RELEASE frees; SIGNAL sets or adds; WAITSEM completes, waits or times out; EDGE makes and unmakes an edge; ROUTE asks, binds, times out and drains; RECALL returns clusters; READMETER writes the meters. (The model's choices here: logs 45, 49, 50, 101, 103, 112, 113.) -/
def Obligations.GuestCommands : Prop :=
  ∀ (s : State) (id : Nat) (c : Cmd), s.sched.cmds.find id = some c → c.queue < 64 → (∀ e ∈ s.sched.cmds, e.2.queue < 64) →
    let gone (t : State) : Prop := t.sched.cmds.find id = none
    (c.opc = 1 → c.grid = none → c.st = .taken → Leaves s (.launch id) fun t =>
      (∀ n, s.launchCheck c = .error n → Completed s t id c) ∧
      (∀ d, s.launchCheck c = .ok d → t.sched.cmds.find id = some { c with grid := some s.stamp } ∧
        ∃ g, t.sched.grids.find s.stamp = some g ∧ g.desc = d ∧ g.ctx = c.ctx ∧ g.cmd = id ∧ g.leases = c.launchLeases)) ∧
    (∀ k, Starts s id c 1 → c.grid = some k →
      let g := s.grid k
      let bound := g.boundLeases
      ((∃ n ∈ bound, k ∉ (s.lease c.ctx n).grids) → Leaves s (.launchStart id) fun t => Completed s t id c) ∧
      ((∀ n ∈ bound, k ∈ (s.lease c.ctx n).grids ∧ (s.lease c.ctx n).st ≠ 1 ∧ (s.lease c.ctx n).makeCmd = none) → g.fault = none →
        (∀ e, g.outEdge = some e → e < 4096 ∧ 1 ≤ s.rfld (.edgcnt e) 0 16) → (∀ e, g.inEdge = some e → e < 4096 ∧ 1 ≤ s.rfld (.edgcnt e) 16 16) →
        Leaves s (.launchStart id) fun t => t.sched.queues.get [] c.queue = s.sched.queues.get [] c.queue ++ [k] ∧
          (∀ e, g.outEdge = some e → t.rfld (.edgcnt e) 0 16 = s.rfld (.edgcnt e) 0 16 - 1) ∧
          (∀ e, g.inEdge = some e → t.rfld (.edgcnt e) 16 16 = s.rfld (.edgcnt e) 16 16 - 1))) ∧
    (∀ q, 2 ≤ (s.lease c.ctx (c.lease.getD 255)).st → s.host.qps.find (qpNum c.ctx (c.fld 28 1)) = some q →
      let qp := qpNum c.ctx (c.fld 28 1)
      let n := min 4096 (c.fld 32 4 - c.progress)
      let key := BitVec.ofNat 32 (c.fld 24 4)
      let host := BitVec.ofNat 64 (c.fld 16 8 + c.progress)
      let dev := c.fld 8 8 + c.progress
      let moves (t : State) (c : Cmd) (o : Op) (rs : List GateReq) : Prop := t.host = s.host ∧ t.msys = s.msys ∧
        t.sched.cmds.find id = some { c with phase := .moving, op := some s.stamp } ∧ ThroughGate s t o rs
      let asked (t : State) (out : Out) (c : Cmd) : Prop := Sent s t out ∧ t.sched.cmds.find id = some c ∧
        t.host.qps.find qp = some { q with txPsn := q.txPsn + 1, unacked := q.unacked ++ [{ psn := q.txPsn, out, cmd := some id }], sentAt := s.now }
      (Starts s id c 2 → c.phase = .idle → c.progress < c.fld 32 4 → (s.lease c.ctx (c.lease.getD 255)).st ≠ 1 → Leaves s (.copyh id) fun t =>
        let c := { c with st := .started, started := s.now, chunk := n }
        if c.fld 29 1 = 0 then s.reaches c.ctx (s.gateReads c.ctx dev n) → moves t c (portOp c.ctx dev n (.portRead none)) (s.gateReads c.ctx dev n)
        else asked t (.rdmaRead qp q.txPsn key host n) { c with phase := .sent }) ∧
      (c.opc = 2 → c.st = .started →
        (∀ k o, c.phase = .moving → c.op = some k → s.ops.find k = some o → o.left = 0 → Leaves s (.copyh id) fun t =>
          (o.fail = none → t.msys = s.msys ∧ t.host = s.host ∧ t.sched.cmds.find id = some
            (if c.fld 29 1 = 0 then { c with phase := .ready, buf := o.bytes dev c.chunk, op := none }
             else { c with progress := c.progress + c.chunk, phase := .idle, chunk := 0, buf := [], op := none })) ∧
          (o.fail ≠ none → Completed s t id c)) ∧
        (c.phase = .ready → s.copyhCore c.ctx = none → Leaves s (.copyh id) fun t => t.sched.cmds.find id = some { c with phase := .granted } ∧ t.host = s.host) ∧
        (c.phase = .granted → Leaves s (.copyh id) fun t =>
          if c.fld 29 1 = 0 then asked t (.rdmaWrite qp q.txPsn key host c.buf) { c with phase := .sent }
          else s.reaches c.ctx (gateWrites dev c.buf) → moves t c (portOp c.ctx dev c.chunk (.portWrite none)) (gateWrites dev c.buf)) ∧
        (c.phase = .idle → c.fld 32 4 ≤ c.progress → Leaves s (.copyh id) fun t => Completed s t id c))) ∧
    (∀ l, Starts s id c 3 → s.msys.leases.find (leaseKey c.ctx (c.fld 24 1)) = some l →
      let place := if s.leaseChannels c.ctx = [] then none else s.placeFrames (s.leaseChannels c.ctx) (c.fld 24 1) (pageBytes l.psize) 0 (l.len / pageBytes l.psize) []
      let put (fs : List Nat) : Option State := (s.begun id c).putLeaves c.ctx l 0 fs
      Leaves s (.lease id) fun t => (∀ fs u, place = some fs → put fs = some u → t.lease c.ctx (c.fld 24 1) = { l with frames := fs } ∧ t.msys.cells = u.msys.cells) ∧
        (place = none ∨ (∃ fs, place = some fs ∧ put fs = none) → t.lease c.ctx (c.fld 24 1) = {} ∧ Completed s t id c)) ∧
    (∀ ctx n l, s.msys.leases.find (leaseKey ctx n) = some l → l.makeCmd = some id → l.st = 1 → c.st = .started → Leaves s (.leaseLive ctx n) fun t =>
      (t.lease ctx n).st = 2 ∧ (t.lease ctx n).makeCmd = none ∧ (t.lease ctx n).rkey.toNat % 256 = n % 256 ∧ Completed s t id c) ∧
    (Starts s id c 4 →
      let l := s.lease c.ctx (c.fld 8 1)
      (l.freeCmd ≠ some id → Leaves s (.release id) fun t => Completed s t id c ∧ t.msys.leases = s.msys.leases) ∧
      (3 ≤ l.st → l.freeCmd = some id → (l.grids ≠ [] → exec (.release id) s = .next (s.begun id c)) ∧
        (l.grids = [] → l.makeCmd = none → s.leaseQuiet c.ctx l = true → Leaves s (.release id) fun t => t.lease c.ctx (c.fld 8 1) = {} ∧ Completed s t id c))) ∧
    (Starts s id c 5 → Leaves s (.signal id) fun t => gone t ∧
      t.sem c.ctx (c.fld 8 1) = if c.fld 9 1 = 0 then BitVec.ofNat 64 (c.fld 16 8) else s.sem c.ctx (c.fld 8 1) + BitVec.ofNat 64 (c.fld 16 8)) ∧
    (Starts s id c 6 → Leaves s (.waitsem id) fun t => (c.fld 16 8 ≤ (s.sem c.ctx (c.fld 8 1)).toNat → Completed s t id c) ∧
      ((s.sem c.ctx (c.fld 8 1)).toNat < c.fld 16 8 → t.sched.cmds.find id = some { c with st := .waiting, started := s.now })) ∧
    (c.opc = 6 → c.st = .waiting → c.fld 24 4 ≠ 0 → c.started + 1000 * c.fld 24 4 ≤ s.now → Leaves s (.waitsemTimeout id) fun t => Completed s t id c) ∧
    (∀ k, Starts s id c 7 → c.fld 10 1 = 0 → s.findEdge c.ctx (c.fld 8 2) = none → (List.range 4096).find? (fun k => s.rfld (.edgst k) 0 1 == 0) = some k →
      Leaves s (.edge id) fun t => Completed s t id c ∧ t.reg (.edgcnt k) = BitVec.ofNat 64 (c.fld 12 4) ∧
        t.reg (.edgst k) = BitVec.ofNat 64 (1 + c.ctx * 2 + c.fld 8 2 * 2 ^ 10 + c.fld 12 4 * 2 ^ 20)) ∧
    (∀ k, c.opc = 7 → c.fld 10 1 = 1 → c.st = .started → s.findEdge c.ctx (c.fld 8 2) = some k →
      (∀ e ∈ s.sched.grids, e.2.inEdge ≠ some k ∧ e.2.outEdge ≠ some k) → Leaves s (.edgeDestroyComplete id) fun t => t.reg (.edgst k) = 0 ∧ Completed s t id c) ∧
    (Starts s id c 8 →
      (c.fld 28 1 = 0 → s.rfld .lcfg 6 2 ≠ 0 → s.routeShape c = true → Leaves s (.route id none) fun t => t.lodra.binding = s.lodra.binding ++ [id]) ∧
      (∀ i, c.fld 28 1 = 1 → s.namedRoute c = some i → Leaves s (.route id none) fun t => t.rfld (.rte i 0) 56 1 = 1)) ∧
    (∀ p i, c.st = .started → id ∈ s.lodra.binding → (List.range 1024).find? (fun i => !s.rteValid i) = some i → s.robUsed + c.fld 18 2 ≤ 8192 →
      (∀ l ∈ c.strandLinks, s.admits 4 l c.ctx i (c.fld 20 4) (c.fld 24 4) = true) → p.refusedHop = none → s.matches c p = true →
      Leaves s (.route id (some p)) fun t => t.rteValid i = true ∧ t.lodra.far.find i = some p.robn ∧ Completed s t id c) ∧
    (id ∈ s.lodra.binding → c.started + 10000000 ≤ s.now → Leaves s (.routeMatchTimeout id) fun t => Completed s t id c ∧ t.lodra.binding = s.lodra.binding.erase id) ∧
    (∀ i, i < 1024 → s.rteValid i = true → s.rteDrain i = true → s.routeBusy i = false → Leaves s (.routeDrainComplete i) fun t => t.reg (.rte i 0) = 0 ∧
      (∀ v ∈ t.srvs, ¬ (v.cls = 4 ∧ v.ctx = s.rteLctx i ∧ v.route = i)) ∧ t.lodra.far.find i = none) ∧
    (Starts s id c 9 → (∀ k ∈ s.homes c.ctx, s.clState k ≤ 1) → Leaves s (.recall id) fun t => gone t ∧
      ∀ n k, (s.homes c.ctx)[n]? = some k → (c.fld 8 16).testBit n = true → t.clState k = 0) ∧
    (Starts s id c 10 → (s.lease c.ctx (c.lease.getD 255)).st ≠ 1 → exec (.readmeter id) s =
      .next (((s.begun id c).virtWrite c.ctx (c.fld 8 8) ((((List.range 6).map fun m => (s.reg (.fmeter c.ctx m)).toNat) ++ [s.now]).flatMap (bytesLE 8))).completeCmd id 0 0))

/-- O40. FLIT: a packet that fails a check is dropped, each of its flits logged as the router reads it and counted; one that holds its output's grant goes on a hop, or to its home slice or core, or out to its strand, a corrected header counted and a poisoned link packet failing its request at the gateway; any other waits. REQUEST_TIMEOUT: a dropped request fails with class 5 after 100 us, a dropped message as a late fault of the VMOV that sent it, or of its grid once its group has exited. MAILBOX_MESSAGE: accepted into its queue, or answered full or refused. MAILBOX_RESPONSE frees the sender or sets its retry 32 ns later, refusal setting GSR.MBR. MAILBOX_RETRY: a due retry injects the message again. (The model's choices here: logs 39, 86, 97, 112.) -/
def Obligations.NetworkEvents : Prop :=
  ∀ (s : State) (id : Nat) (p : Pkt), s.pkts.find id = some p →
    (∀ r, p.stage = .net r →
      (∀ why, s.dropReason p r = some why → Leaves s (.flit id) fun t => t.pkts = s.pkts.put id { p with stage := .dropped, why } ∧
        t.rfld .dlhead 0 4 = (s.rfld .dlhead 0 4 + p.flits) % 16 ∧ t.rfld .dlhead 16 32 = min (2 ^ 32 - 1) (s.rfld .dlhead 16 32 + p.flits) ∧
        (let v := p.seen
         r < 64 → v.part < 64 → v.ctx < 512 → v.cls < 8 → v.drt < 64 → v.dep < 16 → v.srt < 64 → v.sep < 16 →
          t.rfld (.dlog (s.rfld .dlhead 0 4) 0) 44 4 = why ∧ t.rfld (.dlog (s.rfld .dlhead 0 4) 0) 24 6 = v.drt) ∧
        t.reg (.dlog (s.rfld .dlhead 0 4) 1) = BitVec.ofNat 64 s.now ∧
        t = { s with regs := t.regs, pkts := t.pkts }) ∧
      (s.dropReason p r = none → (s.outputGrant r (p.output r)).map Prod.fst = some id → Leaves s (.flit id) fun t =>
        (r ≠ p.drt → t.pkts = s.pkts.put id { p with stage := .net (p.output r), arr := s.stamp, came := s.now, inp := 16 + r, flips := 0 }) ∧
        (r = p.drt → p.sys = none ∨ p.dep ≠ 15 →
          t.pkts = s.pkts.put id { p with stage := (if p.sys = none ∧ p.op < 0x10 then .home else .core), arr := s.stamp, flips := 0 }) ∧
        (p.flips ≠ 0 → t.mon.corrected.get 0 r = s.mon.corrected.get 0 r + 1) ∧
        (∀ route q, r = p.drt → p.sys = some (route, q) → p.dep = 15 → t.pkts = s.pkts.erase id ∧
          ∀ n, (s.liveStrands route)[q.seq % (s.liveStrands route).length]? = some n → (t.link n).wait = (s.link n).wait ++ [(route, q)]) ∧
        t.regs = s.regs ∧ (p.poison = 0 ∨ p.sys = none ∨ r ≠ p.drt ∨ p.dep ≠ 15 → t.ops = s.ops) ∧
        (∀ o, r = p.drt → p.sys ≠ none → p.dep = 15 → p.poison ≠ 0 → s.ops.find p.opId = some o → o.fail = none →
          t.ops.find p.opId = some { o with fail := some (6, BitVec.ofNat 64 p.va, 0) }) ∧ t.cores = s.cores ∧ t.msys = { s.msys with granted := t.msys.granted }) ∧
      (s.dropReason p r = none → (s.outputGrant r (p.output r)).map Prod.fst ≠ some id → exec (.flit id) s = .next s)) ∧
    (p.stage = .dropped → p.born + 100000 ≤ s.now →
      (∀ o, p.op < 0x20 → s.ops.find p.opId = some o → 2 ≤ o.left → Leaves s (.requestTimeout id) fun t =>
        t.pkts = s.pkts.erase id ∧ OneLess t p.opId o (some (5, BitVec.ofNat 64 p.va, p.why)) ∧ t.cores = s.cores ∧ SameBytes s t) ∧
      (∀ g, 0x20 ≤ p.op → s.senderOf p = some g → g.done = false → Leaves s (.requestTimeout id) fun t => t.pkts = s.pkts.erase id ∧
        ∃ h, t.group? p.core p.slot = some h ∧ h.mbSend (p.addr / 64 % 4) = { g.mbSend (p.addr / 64 % 4) with busy := false, retry := none } ∧
          h.late = g.late ++ [{ cls := 5, path := p.frec.path, pid := p.pid, pc := p.frec.pc, va := 0, detail := p.why }]) ∧
      (∀ g, 0x20 ≤ p.op → (∀ h, s.senderOf p = some h → h.done = true) → s.sched.grids.find p.grid = some g → g.fault = none → Leaves s (.requestTimeout id) fun t =>
        t.pkts = s.pkts.erase id ∧ ∃ h, t.sched.grids.find p.grid = some h ∧ h.fault = some { p.frec with time := s.now, detail := p.why })) ∧
    (p.stage = .core → p.op = 0x20 →
      let core := coreAt p.drt p.dep
      let q := (s.core core).recvQ (p.addr % 16)
      let held := (q.msgs.map Msg.flits).sum
      ((q.st ≠ 1 ∨ q.ctx ≠ p.ctx) → Leaves s (.mailboxMessage id) fun t => Replied s t id p 0x23 (fun a => a) ∧ t.cores = s.cores) ∧
      (q.st = 1 → q.ctx = p.ctx → 8 < held + msgFlits (p.addr / 16 % 4) →
        Leaves s (.mailboxMessage id) fun t => Replied s t id p 0x22 (fun a => a) ∧ t.cores = s.cores) ∧
      (q.st = 1 → q.ctx = p.ctx → held + msgFlits (p.addr / 16 % 4) ≤ 8 →
        Leaves s (.mailboxMessage id) fun t => Replied s t id p 0x21 (fun a => a) ∧
          (t.core core).recvQ (p.addr % 16) = { q with msgs := q.msgs ++
            [{ width := 16 * 2 ^ (p.addr / 16 % 4), img := p.img, flits := msgFlits (p.addr / 16 % 4), bad := p.poison != 0 }] } ∧
          t.core core = { s.core core with recv := (t.core core).recv } ∧ ∀ n, n ≠ core → t.core n = s.core n)) ∧
    (∀ g, p.stage = .core → s.senderOf p = some g →
      let n := p.addr / 64 % 4
      (p.op = 0x21 → Leaves s (.mailboxResponse id) fun t => t.pkts = s.pkts.erase id ∧
        ∃ h, t.group? p.core p.slot = some h ∧ h = { g with mbs := h.mbs } ∧ h.mbSend n = { g.mbSend n with busy := false, retry := none }) ∧
      (p.op = 0x22 → Leaves s (.mailboxResponse id) fun t => t.pkts = s.pkts.erase id ∧
        ∃ h, t.group? p.core p.slot = some h ∧ h = { g with mbs := h.mbs } ∧ h.mbSend n = { g.mbSend n with retry := some (s.now + 32) }) ∧
      (p.op = 0x23 → Leaves s (.mailboxResponse id) fun t => t.pkts = s.pkts.erase id ∧
        ∃ h, t.group? p.core p.slot = some h ∧ h = { g with mbs := h.mbs, gsr := g.gsr ||| 0x40#32 } ∧
          h.mbSend n = { g.mbSend n with busy := false, retry := none })) ∧
    (∀ core slot g n due, s.group? core slot = some g → (g.mbSend n).retry = some due → due ≤ s.now → g.stopped = false →
      Leaves s (.mailboxRetry core slot n) fun t =>
        (∃ q : Pkt, t.pkts = s.pkts.put s.stamp q ∧ q.op = 0x20 ∧ q.img = (g.mbSend n).img ∧ q.stage = .net (coreRouter core) ∧
          coreAt q.drt q.dep = (g.mbSend n).dcore.toNat ∧ q.addr % 16 = (g.mbSend n).dq.toNat) ∧
        ∃ h, t.group? core slot = some h ∧ h = { g with mbs := h.mbs } ∧ h.mbSend n = { g.mbSend n with retry := none })

/-- O41. Of a packet at its home slice, which is in service. READ_LINE: a line that L2 holds whole for its server group is answered at once, any other asked of the channel; READ_LINE_UNCACHED always asks. WRITE_LINE and MASKED_WRITE enter L2, changing exactly their bytes of the line, or ask the channel for a write. ATOMIC_WITH_RETURN and REDUCTION_NO_RETURN change exactly their operand where L2 holds it, and answer with its old value or an acknowledgement; else they ask for the line. PREFETCH_TO_L2, INVALIDATE_LINE and ZERO_LINE do that to their line. PAGE_WALK starts the walk of the request at the head of its unit's walker with a read of the root's entry, class 0 and past L2, and holds others; each entry read leads to the next table's, fails the request with detail 1 or sends it on to its frame, or fails it for want of a right. SCRUB_FRAME: a frame has 32 zero-line packets and no line in L2; SCRUB_FRAME_COMPLETE returns it to its pool. (The model's choices here: logs 37, 54, 89, 90.) -/
def Obligations.MemoryEvents : Prop :=
  ∀ (s : State) (id : Nat) (p : Pkt),
    let sg := s.ctxSg p.ctx
    let bytes (t : State) (f : Nat → Byte) : Prop := ∀ j, j < 128 → t.msys.homeByte sg (128 * p.line + j) = f j
    let kept (t : State) : Prop := ∀ n a, a / 128 ≠ p.line → t.msys.homeByte n a = s.msys.homeByte n a
    let mine (j : Nat) : Byte := s.msys.homeByte sg (128 * p.line + j)
    let alone : Prop := ∀ e ∈ s.msys.l2, l2LineOf e.1 = p.line → e.1 = l2Key sg p.line
    let blocked : Prop := s.l2Mask p.ctx = 0
    (AtHome s id p 0 →
      (∀ k, s.l2Mask p.ctx ≠ 0 → s.msys.l2Find sg p.line = some k → k.valid = wholeMask →
        Leaves s (.readLine id) fun t => Replied s t id p 0x10 (fun a => { a with data := k.data, poison := k.poison }) ∧ SameBytes s t) ∧
      (s.misses p → Leaves s (.readLine id) fun t => Asked s t id p false 0 0)) ∧
    (AtHome s id p 1 → Leaves s (.readLineUncached id) fun t => Asked s t id p false 0 0) ∧
    (AtHome s id p 2 →
      (blocked → Leaves s (.writeLine id) fun t => Asked s t id p true wholeMask p.data) ∧
      (¬ blocked → Leaves s (.writeLine id) fun t => Replied s t id p 0x11 (fun a => a) ∧ bytes t fun j => p.data.byte j)) ∧
    (AtHome s id p 3 →
      (blocked → Leaves s (.maskedWrite id) fun t => Asked s t id p true p.mask p.data) ∧
      (¬ blocked → alone → Leaves s (.maskedWrite id) fun t => Replied s t id p 0x11 (fun a => a) ∧ bytes t fun j => if p.mask.getLsbD j then p.data.byte j else mine j)) ∧
    (AtHome s id p 4 →
      (∀ l k, AtomHit s p l k → Leaves s (.atomicWithReturn id) fun t => bytes t (atomByte p l k.data mine) ∧ kept t ∧
        Replied s t id p 0x12 fun a => { a with lanes := [{ l with x := atomOld p k.data }], poison := 0 }) ∧
      (p.poison = 0 → s.misses p → Leaves s (.atomicWithReturn id) fun t => Asked s t id p false 0 0)) ∧
    (AtHome s id p 5 →
      (∀ l k, AtomHit s p l k → Leaves s (.reductionNoReturn id) fun t => bytes t (atomByte p l k.data mine) ∧ kept t ∧
        Replied s t id p 0x11 fun a => { a with poison := 0 }) ∧
      (p.poison = 0 → s.misses p → Leaves s (.reductionNoReturn id) fun t => Asked s t id p false 0 0)) ∧
    (AtHome s id p 6 →
      let ways := ((List.range 16).filter fun w => (s.l2Mask p.ctx).getLsbD w).length
      let fills := (s.msys.bursts.filter fun b => !b.write && sameSet b.line p.line && (b.pkt.bind s.pkts.find).any fun q => q.op != 1 && s.ctxSg q.ctx == sg).length
      (((s.msys.l2Find sg p.line).isSome = true ∨ ways ≤ fills) → Leaves s (.prefetchToL2 id) fun t => Replied s t id p 0x11 (fun a => a) ∧ t.msys = s.msys) ∧
      (s.msys.l2Find sg p.line = none → fills < ways → Leaves s (.prefetchToL2 id) fun t => Asked s t id p false 0 0)) ∧
    (AtHome s id p 7 → Leaves s (.invalidateLine id) fun t => Replied s t id p 0x11 (fun a => a) ∧
      (∀ e ∈ t.msys.l2, l2LineOf e.1 ≠ p.line) ∧ t.msys.cells = s.msys.cells ∧ kept t) ∧
    (AtHome s id p 8 → Leaves s (.zeroLine id) fun t => Asked s t id p true wholeMask 0) ∧
    (∀ core (va : BitVec 64) o, s.ops.find p.opId = some o → s.pkts.find id = some p → p.stage = .xlat → p.va / 4096 = va.toNat / 4096 → unitOfCore p.core = unitOfCore core →
      (∀ e ∈ s.pkts, e.2.stage = .xlat → s.cached e.2.core e.2.ctx e.2.va = none) →
      let u := unitOfCore core
      let w := s.walker u
      ((∃ k, w.walk = some k) → (w.queue = [id] ∧ (s.pkts.filter fun e => e.2.waitsFor s core p.ctx (va.toNat / 4096) 0) = [(id, p)] ∨
          w.queue.length = 32 ∧ ∀ i ∈ w.queue, ∃ q, s.pkts.find i = some q ∧ q.stage = .xlat) → exec (.pageWalk core p.ctx va) s = .next s) ∧
      (w.walk = none → w.queue = [id] → (s.pkts.filter fun e => e.2.waitsFor s core p.ctx (va.toNat / 4096) 0) = [(id, p)] →
        (s.tableRoot p.ctx = none → 2 ≤ o.left → Leaves s (.pageWalk core p.ctx va) fun t => SameBytes s t ∧
          t.pkts = s.pkts.erase id ∧ OneLess t p.opId o (some (3, BitVec.ofNat 64 p.va, 1))) ∧
        (∀ root, s.tableRoot p.ctx = some root → Leaves s (.pageWalk core p.ctx va) fun t => SameBytes s t ∧
          WalkReads s t u { ctx := p.ctx, va := p.va / 4096 * 4096, level := 3, entry := root + 8 * (p.va / 2 ^ 39 % 8192), op := s.stamp }))) ∧
    (∀ u w o r, (s.walker u).walk = some w → s.ops.find w.op = some r → r.left = 0 → r.fail = none → w.stale = false → w.level ≤ 3 →
      s.pkts.find id = some p → s.ops.find p.opId = some o → p.opId ≠ w.op →
      let e := BitVec.ofNat 64 (r.readN w.entry 8)
      let t := s.walkGoes u
      let waits (size : Nat) : Prop := (s.pkts.filter fun e => e.2.waitsFor s (4 * u) w.ctx (w.va / pageBytes size) size) = [(id, p)]
      let fails (det : Nat) : Prop := t.pkts = s.pkts.erase id ∧ OneLess t p.opId o (some (3, BitVec.ofNat 64 p.va, det))
      let size := if w.level = 0 then (if e.getLsbD 4 = true then 1 else 0) else w.level + 1
      (badEntry w.level e → waits 0 → 2 ≤ o.left → (t.walker u).walk = none ∧ fails 1) ∧
      (¬ badEntry w.level e → e.getLsbD 3 = false → t.msys.cells = s.msys.cells ∧
        let k := w.level - 1
        WalkReads { s with ops := s.ops.erase w.op } t u
          { ctx := w.ctx, va := w.va, level := k, entry := fld e 12 27 * 4096 + 8 * (w.va / 2 ^ (12 + 9 * k) % 512), op := s.stamp }) ∧
      (¬ badEntry w.level e → e.getLsbD 3 = true → waits size → ((s.core p.core).ctxSlot p.ctx).isSome = true → (t.walker u).walk = none ∧
        (leafFault (some (e, size)) (reqNeed p.op) = none → 1 < p.op → ∃ n, t.pkts = s.pkts.put id { p.toHome (leafPa e size p.va) with arr := n, came := s.now }) ∧
        (∀ det, leafFault (some (e, size)) (reqNeed p.op) = some det → 2 ≤ o.left → fails det))) ∧
    (∀ part b n q, s.msys.scrubbing.find part = none → s.msys.scrub.get [] part = (b, n) :: q → 0 < n → Leaves s (.scrubFrame part) fun t =>
      t.msys.scrubbing.find part = some (b, s.stamp) ∧ t.msys.scrub.get [] part = (if n = 1 then q else (b + 4096, n - 1) :: q) ∧
      t.ops.find s.stamp = some { kind := .scrub part, ctx := mgmtCtx, left := 32 } ∧ t.msys.cells = s.msys.cells ∧
      ∀ i, i < 32 → (∀ e ∈ t.msys.l2, l2LineOf e.1 ≠ b / 128 + i) ∧
        ∃ z, t.pkts.find (s.stamp + 1 + i) = some z ∧ z.op = 8 ∧ z.ctx = mgmtCtx ∧ z.addr = 128 * (b / 128 + i) ∧ z.opId = s.stamp) ∧
    (∀ part b o, part < 48 → channelOf b < 64 → s.msys.scrubbing.find part = some (b, o) → s.ops.find o = none →
      Leaves s (.scrubFrameComplete part) fun t => t.msys.scrubbing.find part = none ∧
        t.rfld (.fpool (channelOf b)) 0 21 = (s.rfld (.fpool (channelOf b)) 0 21 + 1) % 2 ^ 21 ∧
        t.rfld (.scrub part) 32 32 = min (2 ^ 32 - 1) (s.rfld (.scrub part) 32 32 + 1) ∧ RegsBut s t [.fpool (channelOf b), .scrub part])

/-- O42. LINK_DATA_FLIT: a good data flit next in sequence on a link that is up is accepted, and the packets that end in it leave for the gateway; another asks for a replay, once until the replay too has failed. LINK_IDLE_FLIT moves LACK and returns credits; REPLAY_REQUEST sends the flits after LACK again, and the eighth in a row asks for a retraining. LINK_RETRAIN takes the link out of service for at most 300 us; LINK_RETRAIN_COMPLETE on 8 or 7 lanes returns it with a replay, on fewer it goes down. LINK_DOWN and LINK_RETURN end and begin its service. (The model's choices here: logs 36, 91, 93, 112.) -/
def Obligations.LinkEvents : Prop :=
  ∀ (s : State) (n : Nat) (f : LinkFlit), n < 16 →
    let l := s.link n
    let h := flitHead f
    let sends (t : State) (fs : List LinkFlit) : Prop := t.host.out = s.host.out ++ fs.map (Out.linkFlit n)
    let replayed (ds : List DataFlit) : List LinkFlit := ds.map fun d => buildFlit (d.head l.rxLack) d.slots
    let good : Prop := flitCrcOk f = true ∧ f.uncorrectable = 0
    let d := lmod h.lack l.peerLack
    let moved := if 0 < d ∧ d ≤ l.replay.length then l.replay.drop d else l.replay
    let row := if 0 < d ∧ d ≤ l.replay.length then 1 else l.requests + 1
    let counted (t : State) : Prop := t = { s with regs := t.regs } ∧ RegsBut s t [.lcnt n]
    (s.linkUp n = true → good → h.kind = 1 → lmod h.lseq l.rxLack = 1 → Leaves s (.linkDataFlit n f) fun t =>
      let taken := takeSlots (flitSlots f) (if l.rxKey = (h.ctx, h.cls, h.rsp) then l.rxPart else [])
      (t.link n).rxLack = h.lseq ∧ (t.link n).replay = moved ∧ (t.link n).reqSent = false ∧ (t.link n).seen = none ∧
      (t.link n).back.get 0 (creditKey h.cls h.rsp) = l.back.get 0 (creditKey h.cls h.rsp) + 1 ∧ (t.link n).rxPart = taken.2 ∧
      t.turns = (taken.1.map fun p => .ev (sysEvent p)) ++ s.turns ∧ t.msys = s.msys ∧ t.cores = s.cores ∧ RegsBut s t [.lcnt n]) ∧
    (s.linkUp n = true → (¬ good ∨ h.kind = 1 ∧ lmod h.lseq l.rxLack ≠ 1) → l.txPart = [] → l.reqSent = false → Leaves s (.linkDataFlit n f) fun t =>
      (t.link n).reqSent = true ∧ (t.link n).rxLack = l.rxLack ∧ (t.link n).replay = l.replay ∧ t.turns = s.turns ∧ RegsBut s t [.lcnt n] ∧
      sends t [buildFlit { kind := 2, lack := l.rxLack } []]) ∧
    (s.linkUp n = true → good → h.kind = 1 → lmod h.lseq l.rxLack ≠ 1 → l.seen = none → l.reqSent = true → Leaves s (.linkDataFlit n f) fun t =>
      t.link n = { l with seen := some h.lseq } ∧ t.turns = s.turns ∧ t.host = s.host ∧ RegsBut s t [.lcnt n]) ∧
    (s.linkUp n = true → ¬ good → l.reqSent = true → Leaves s (.linkDataFlit n f) fun t => t.link n = l ∧ t.turns = s.turns ∧ t.host = s.host) ∧
    (∀ x, s.linkUp n = true → good → h.kind = 1 → lmod h.lseq l.rxLack ≠ 1 → l.reqSent = true → l.seen = some x → l.txPart = [] →
      Leaves s (.linkDataFlit n f) fun t => (t.link n).seen = some h.lseq ∧ t.turns = s.turns ∧ (h.lseq = x → sends t [buildFlit { kind := 2, lack := l.rxLack } []]) ∧
        (0 < lmod h.lseq x → lmod h.lseq x < 2048 → t.host = s.host)) ∧
    (s.linkUp n = true → good → h.kind ≠ 1 → Leaves s (.linkDataFlit n f) counted) ∧
    (s.linkUp n = true → good → h.kind = 0 → l.reqSent = true → l.txPart = [] → Leaves s (.linkIdleFlit n f) fun t => sends t [buildFlit { kind := 2, lack := l.rxLack } []]) ∧
    (s.linkUp n = true → good → h.kind = 0 → l.reqSent = false → Leaves s (.linkIdleFlit n f) fun t => (t.link n).replay = moved ∧ (t.link n).rxLack = l.rxLack ∧
      (h.crv = true → (t.link n).used.get 0 (creditKey h.crcls h.crrsp) = l.used.get 0 (creditKey h.crcls h.crrsp) - h.crd) ∧
      t.turns = s.turns ∧ t.host = s.host ∧ t.cores = s.cores ∧ t.msys = s.msys) ∧
    (s.linkUp n = true → good → h.kind = 2 → Leaves s (.replayRequest n f) fun t => (t.link n).replay = moved ∧
      (row < 8 → sends t (replayed moved) ∧ (t.link n).requests = row ∧ t.turns = s.turns) ∧
      (8 ≤ row → t.host = s.host ∧ (t.link n).requests = 0 ∧ t.turns = .ev (.linkRetrain n) :: s.turns)) ∧
    (s.linkUp n = false → Leaves s (.linkDataFlit n f) counted ∧ Leaves s (.linkIdleFlit n f) counted ∧ Leaves s (.replayRequest n f) counted) ∧
    (¬ good → Leaves s (.linkIdleFlit n f) counted ∧ Leaves s (.replayRequest n f) counted) ∧
    (s.linkUp n = true → Leaves s (.linkRetrain n) fun t => t.rfld (.lstat n) 9 3 = 4 ∧ t.rfld (.lstat n) 0 1 = 0 ∧
      t.link n = { l with retrain := some (s.now + 300000), recal := none } ∧ RegsBut s t [.lstat n]) ∧
    (∀ lanes, s.rfld (.lstat n) 9 3 = 4 → Leaves s (.linkRetrainComplete n lanes) fun t => t.rfld (.lstat n) 1 8 = lanes.toNat ∧
      t.link n = { l with retrain := none, reqSent := false, owed := false, seen := none } ∧ RegsBut s t [.lstat n] ∧
      (7 ≤ laneCount lanes → t.rfld (.lstat n) 9 3 = (if laneCount lanes = 8 then 2 else 3) ∧ t.rfld (.lstat n) 0 1 = 1 ∧ sends t (replayed l.replay)) ∧
      (laneCount lanes < 7 → t.turns = .ev (.linkDown n) :: s.turns ∧ t.host = s.host)) ∧
    Leaves s (.linkDown n) (fun t => t.rfld (.lstat n) 9 3 = 0 ∧ t.rfld (.lstat n) 0 1 = 0 ∧ t.linkUp n = false ∧ (t.link n).replay = (s.link n).replay ∧
      (t.link n).wait = [] ∧ RegsBut s t [.lstat n]) ∧
    (s.linkUp n = false → Leaves s (.linkReturn n) fun t => t.rfld (.lstat n) 9 3 = 2 ∧ t.rfld (.lstat n) 0 1 = 1 ∧ t.rfld (.lstat n) 1 8 = 255 ∧
      t = { s with regs := t.regs } ∧ RegsBut s t [.lstat n])

/-- O43. REMOTE_REQUEST: a packet next in its flow, to memory its context may access, enters the grid at the gateway and moves the flow on, and to other memory is answered with ACCESS_FAULT; a later one is held; a response enters the grid for its core. ACK ends the requests up to its SEQ on its side of the flow's base; ACK_TIMER acknowledges what has performed; FLOW_TIMEOUT: a request unacknowledged after FTO fails with class 5, leaves its flow and an FRESET names the new base; FRESET moves the receiving base, and what is served of the flow is acknowledged no more. READ_DATA, WRITE_ACKNOWLEDGEMENT, ATOMIC_RESULT and ACCESS_FAULT at their core end one request of their operation with its data, nothing, its old value or a failure, or end a remote request served here. (The model's choices here: logs 35, 84, 112.) -/
def Obligations.RemoteFlows : Prop :=
  ∀ (s : State),
    (∀ (p : SysPkt) k (f : RxFlow), s.arrives p = true → s.lodra.rx.find k = some f →
      (s.lodra.rx.find? fun e => e.2.route == p.route && e.2.sdev == p.sdev && e.2.srt == p.srt && e.2.sep == p.sep && e.2.cls == p.cls) = some (k, f) →
      (f.marks = [] → f.held = [] → p.fm = false → s.rtePeer p.route = p.sdev → s.rteCls p.route = p.cls → p.op ≤ 6 → smod p.seq f.next < s.rteRobn p.route →
        (p.seq ≠ f.next → exec (.remoteRequest p) s = .next { s with lodra := { s.lodra with rx := s.lodra.rx.put k { f with held := [p] } } }) ∧
        (∀ lease pa, p.seq = f.next → s.liveLease (s.rteLctx p.route) p.addr (reqSpan p) (sysNeed p) = some lease →
          s.translate (s.rteLctx p.route) p.addr = some pa → Leaves s (.remoteRequest p) fun t => SameBytes s t ∧ t.ops = s.ops ∧
            t.lodra.rx.find k = some { f with next := (f.next + 1) % 2 ^ 24 } ∧ t.lodra.serving.find s.stamp = some (k, p.seq, p.akq) ∧
            ∃ q, t.pkts = s.pkts.put s.stamp q ∧ q.op = p.op ∧ q.ctx = s.rteLctx p.route ∧ q.addr = pa ∧ q.sep = 15 ∧ q.data = BitVec.ofNat 1024 (leOf (p.data.take 128))) ∧
        (∀ n, p.seq = f.next → s.liveLease (s.rteLctx p.route) p.addr (reqSpan p) (sysNeed p) = none → p.akq = false → f.sinceAck < 15 →
          (s.liveStrands p.route)[p.seq % (s.liveStrands p.route).length]? = some n → Leaves s (.remoteRequest p) fun t => t.pkts = s.pkts ∧ SameBytes s t ∧
            ∃ q, (t.link n).wait = (s.link n).wait ++ [(p.route, q)] ∧ q.op = 0x13 ∧ q.seq = p.seq ∧ q.data = [3])) ∧
      (let b := p.addr % 2 ^ 24
       let f' : RxFlow := { f with next := b, marks := [], held := [], performed := [], acked := b, sinceAck := 0, oldest := none, told := b, timed := false }
       let stale := s.lodra.serving.map fun (i, v) => (i, if v.1 = k then (0, v.2) else v)
       exec (.freset p) s = .next { s with lodra := { s.lodra with rx := s.lodra.rx.put k f', serving := stale } }) ∧
      (∀ since, f.oldest = some since → since + 1000 ≤ s.now → f.timed = false → Leaves s (.ackTimer k) fun t =>
        (∃ g, t.lodra.rx = s.lodra.rx.put k g ∧ g = { f with sinceAck := 0, oldest := oldestOf f.performed, told := f.acked, timed := g.timed }) ∧ t = { s with lodra := t.lodra } ∧
        ∀ n, (s.liveStrands f.route)[0]? = some n → ∃ q, (t.link n).wait = (s.link n).wait ++ [(f.route, q)] ∧ q.op = 0x30 ∧ q.addr = (f.acked + 2 ^ 24 - 1) % 2 ^ 24)) ∧
    (∀ (p : SysPkt) k (f : TxFlow) (r : TxReq) (o : Op), s.arrives p = true → s.lodra.tx.find k = some f → s.txFind p.route p.srt p.sep p.cls = some (k, f) →
      f.reqs = [r] → s.ops.find r.op = some o →
      (2 ≤ o.left → r.acked = false → r.waits = false → o.kind.answered = false → smod p.addr r.seq < 2 ^ 23 → (smod r.seq f.base < 2 ^ 23 ∨ 2 ^ 23 ≤ smod p.addr f.base) →
        Leaves s (.ack p) fun t => OneLess t r.op o none ∧ t.lodra.tx = s.lodra.tx.upd k (fun f => { f with reqs := [] }) ∧ SameBytes s t) ∧
      (2 ^ 23 ≤ smod r.seq f.base → smod p.addr f.base < 2 ^ 23 → exec (.ack p) s = .next s) ∧
      (0x10 ≤ p.op → p.op ≤ 0x13 → p.seq = r.seq → Leaves s (.remoteRequest p) fun t =>
        t = { s with pkts := t.pkts, stamp := t.stamp, lodra := { s.lodra with tx := t.lodra.tx } } ∧
        t.lodra.tx = (if p.op = 0x13 then s.lodra.tx.upd k (fun f => { f with reqs := [{ r with waits := true }] }) else s.lodra.tx) ∧
        ∃ q, t.pkts = s.pkts.put s.stamp q ∧ q.op = p.op ∧ q.drt = p.srt ∧ q.dep = p.sep ∧ q.sep = 15 ∧ q.stage = .net p.srt ∧ q.sys = some (p.route, p)) ∧
      (∀ id q route, 2 ≤ o.left → s.pkts.find id = some q → q.stage = .core → q.op = 0x10 → s.lodra.serving.find id = none → q.sys = some (route, p) →
        q.poison = 0 → o.kind ≠ .fill → p.op = 0x10 → p.seq = r.seq → r.waits = true → Leaves s (.readData id) fun t => SameBytes s t ∧ t.pkts = s.pkts.erase id ∧
        ∃ e, t.ops.find r.op = some { o with left := o.left - 1, got := o.got.put r.item (BitVec.ofNat 1024 (leOf p.data)), key := e }) ∧
      (∀ id q route, 2 ≤ o.left → s.pkts.find id = some q → q.stage = .core → q.op = 0x13 → s.lodra.serving.find id = none → q.sys = some (route, p) →
        p.op = 0x13 → p.seq = r.seq → p.data = [3] → Leaves s (.accessFault id) fun t => SameBytes s t ∧ t.pkts = s.pkts.erase id ∧
          ∃ va, OneLess t r.op o (some (3, va, 0)))) ∧
    (∀ k (f : TxFlow) (r : TxReq) (o : Op), s.lodra.tx.find k = some f → f.reqs = [r] → s.ops.find r.op = some o → 2 ≤ o.left → r.acked = false →
      r.issued + 1000 * s.rfld .lcfg 16 24 ≤ s.now → Leaves s (.flowTimeout k) fun t =>
        OneLess t r.op o (some (5, 0, 0)) ∧ t.lodra.tx = s.lodra.tx.upd k (fun f => { f with base := f.next, reqs := [] }) ∧ SameBytes s t ∧
        ∀ n, (s.liveStrands f.route)[0]? = some n → ∃ q, (t.link n).wait = (s.link n).wait ++ [(f.route, q)] ∧ q.op = 0x35 ∧ q.addr = f.next) ∧
    (∀ (id : Nat) (p : Pkt) (o : Op), s.ops.find p.opId = some o → 2 ≤ o.left →
      let gone (t : State) : Prop := t.pkts.find id = none ∧ ∀ k, k ≠ id → ∃ b, t.pkts.find k = (s.pkts.find k).map fun (q : Pkt) => { q with noAlloc := b }
      (AtCore s id p 0x10 → p.poison = 0 → o.kind ≠ .fill → Leaves s (.readData id) fun t => t.pkts = s.pkts.erase id ∧ SameBytes s t ∧
        ∃ e, t.ops.find p.opId = some { o with left := o.left - 1, got := o.got.put (p.va / 128) p.data, key := e }) ∧
      (AtCore s id p 0x11 → Leaves s (.writeAcknowledgement id) fun t => gone t ∧ SameBytes s t ∧
        OneLess t p.opId o (if p.poison = 0 then none else some (6, BitVec.ofNat 64 p.va, 0))) ∧
      (∀ l, AtCore s id p 0x12 → p.poison = 0 → p.lanes = [l] → Leaves s (.atomicResult id) fun t => gone t ∧ SameBytes s t ∧
        ∃ e, t.ops.find p.opId = some { o with left := o.left - 1, olds := o.olds.put l.lane l.x, key := e }) ∧
      (AtCore s id p 0x12 → p.poison ≠ 0 → Leaves s (.atomicResult id) fun t => gone t ∧
        ∃ e, OneLess t p.opId { o with key := e } (some (6, BitVec.ofNat 64 p.va, 0))) ∧
      (AtCore s id p 0x13 → Leaves s (.accessFault id) fun t => t.pkts = s.pkts.erase id ∧ OneLess t p.opId o (some (3, BitVec.ofNat 64 p.va, 0)))) ∧
    (∀ (id : Nat) (p : Pkt) v, s.pkts.find id = some p → p.stage = .core → s.lodra.serving.find id = some v →
      let served (t : State) : Prop := t.pkts = s.pkts.erase id ∧ t.lodra.serving = s.lodra.serving.erase id ∧ t.ops = s.ops ∧ SameBytes s t
      (p.op = 0x10 → Leaves s (.readData id) served) ∧ (p.op = 0x11 → Leaves s (.writeAcknowledgement id) served) ∧
      (p.op = 0x12 → Leaves s (.atomicResult id) served) ∧ (p.op = 0x13 → Leaves s (.accessFault id) served))

/-- O44. HOIST counts a peer at the coordinator, which sends GO to every other peer once all are hoisted before HTO; a mismatch, HOIST_TIMEOUT and a transfer timeout (FLOW_TIMEOUT) send ABORT with reasons 2, 1 and 3 and end the instance with classes 10, 9 and 11 owed to its group, and its completion flag lowered; GO starts it at a peer before its own limit, ABORT ends it with class 11 and the reason, WITHDRAW uncounts a peer. COLLECTIVE_COMPLETE, once every peer's buffer has come, reads SEND, then writes RECV by the gateways, each byte that of the operation where the descriptors agree and that or its prior value where not, then ends with the flag lowered. (The spec gives the transfers no format, that a buffer comes whole, and what a failed transfer of its own gives: logs 33, 92.) -/
def Obligations.CollectiveEvents : Prop :=
  ∀ (s : State) (k : Nat) (c : Coll), s.lodra.colls.find k = some c →
    let set (d : Coll) : State := { s with lodra := { s.lodra with colls := s.lodra.colls.put k d } }
    let owing (t : State) (late : List LateFault) : Prop := t.lodra.colls = s.lodra.colls.erase k ∧
      ∀ g, s.group? c.core c.slot = some g → g.gen = c.gen → g.team = c.team → ∃ h, t.group? c.core c.slot = some h ∧
        h = { g with late := g.late ++ late, flags := match c.flag with | some f => SMap.set 0 g.flags f (g.flag f - 1) | none => g.flags }
    let ended (t : State) (cls det : Nat) : Prop := SameBytes s t ∧ owing t [{ cls, path := c.path, pid := c.pid, pc := c.pc, va := 0, detail := det }]
    let told (t : State) (op reason : Nat) : Prop := ∀ d ∈ peersOf c.peers, d ≠ s.devId → ∀ r n, s.jobRoute c.ctx c.job d = some r → (s.liveStrands r)[0]? = some n →
      ∃ ws q, (t.link n).wait = (s.link n).wait ++ ws ∧ (r, q) ∈ ws ∧ q.op = op ∧ q.addr = c.job + c.inst * 2 ^ 16 + reason * 2 ^ 48 ∧ q.ddev = s.rtePeer r ∧ q.cls = 0
    (∀ p : SysPkt, s.arrives p = true →
      ((((s.collsOf p).filter fun e => e.2.st == .wait && e.2.coord == s.devId && e.2.peers.getLsbD p.sdev).find? fun e => e.2.inst == instOf p) = some (k, c) →
        let now := c.hoisted ||| (1#64 <<< p.sdev)
        (now &&& c.peers ≠ c.peers ∨ 1000 * c.hto ≤ c.timer → exec (.hoist p) s = .next (set { c with hoisted := now })) ∧
        (now &&& c.peers = c.peers → c.timer < 1000 * c.hto → Leaves s (.hoist p) fun t =>
          t.lodra.colls.find k = some { c with hoisted := now, st := .run, ranAt := s.now } ∧ told t 0x32 0 ∧ t.cores = s.cores ∧ SameBytes s t)) ∧
      (((s.collsOf p).filter fun e => e.2.st == .wait && e.2.coord == s.devId && e.2.peers.getLsbD p.sdev) = [(k, c)] → c.inst ≠ instOf p →
        Leaves s (.hoist p) fun t => ended t 10 0 ∧ told t 0x33 2) ∧
      (((s.collsOf p).find? fun e => e.2.inst == instOf p && e.2.st == .wait && e.2.coord != s.devId && decide (e.2.timer < 1000 * e.2.hto + 100000)) = some (k, c) →
        exec (.go p) s = .next (set { c with st := .run, ranAt := s.now })) ∧
      ((∀ e ∈ s.collsOf p, e.2.inst = instOf p → e.2.st = .wait → e.2.coord = s.devId) → exec (.go p) s = .next s ∧ exec (.abort p) s = .next s) ∧
      (((s.collsOf p).find? fun e => e.2.inst == instOf p && e.2.st == .wait && e.2.coord != s.devId) = some (k, c) → Leaves s (.abort p) fun t => ended t 11 (p.addr / 2 ^ 48 % 16)) ∧
      (((s.collsOf p).find? fun e => e.2.inst == instOf p && e.2.st == .wait && e.2.coord == s.devId) = some (k, c) →
        exec (.withdraw p) s = .next (set { c with hoisted := c.hoisted &&& ~~~(1#64 <<< p.sdev) }))) ∧
    (c.st = .wait → (1000 * c.hto + if c.coord = s.devId then 0 else 100000) ≤ c.timer → Leaves s (.hoistTimeout k) fun t => ended t 9 0 ∧ (c.coord = s.devId → told t 0x33 1)) ∧
    (c.st = .run → s.lodra.tx.find k = none → c.ranAt + 1000 * s.rfld .lcfg 16 24 ≤ s.now → Leaves s (.flowTimeout k) fun t => ended t 11 3 ∧ told t 0x33 3) ∧
    (let len := c.count * collSize c.ty
     let all (parts : Parts) : Prop := ∀ d ∈ peersOf c.peers, d = s.devId ∨ ∃ e ∈ parts, e.1 = d
     let goes (t : State) (x : CollXfer) : Prop := t.lodra.colls.find k = some { c with xfer := some x } ∧ t.cores = s.cores ∧ SameBytes s t
     (∀ parts, c.st ≠ .run ∨ (c.xfer = none ∧ (s.performed c.acqOps = false ∨ ¬ all parts)) → exec (.collectiveComplete k parts) s = .next s) ∧
     (∀ parts, c.st = .run → c.xfer = none → s.performed c.acqOps = true → all parts → s.reaches c.ctx (s.gateReads c.ctx c.send.toNat len) →
       Leaves s (.collectiveComplete k parts) fun t => goes t (.read s.stamp parts) ∧
         ThroughGate s t (c.xferOp .collRead c.send.toNat len []) (s.gateReads c.ctx c.send.toNat len)) ∧
     (∀ id parts came o, c.st = .run → c.xfer = some (.read id came) → s.ops.find id = some o → o.left = 0 →
       let sends := (peersOf c.peers).map fun d => (d, if d = s.devId then o.bytes c.send.toNat len else ((came.find? fun e => e.1 == d).map Prod.snd).getD [])
       let op := c.xferOp (.collWrite k) c.recv.toNat c.recvLen (pagesOf c.recv.toNat c.recvLen)
       (o.fail = none → (∀ a, c.recv.toNat ≤ a → a < c.recv.toNat + c.recvLen → (s.translate c.ctx (a / 128 * 128)).isSome = true) →
         Leaves s (.collectiveComplete k parts) fun t => goes t (.write s.stamp) ∧ ∃ bs, c.holds s.devId sends bs ∧
           let rs := gateWrites c.recv.toNat (bs.take c.recvLen)
           ((∀ e ∈ sends, e.2.length = len) → ThroughGate s t op rs) ∧
           ∃ ws, ThroughGate s t op ws ∧ ws.length = rs.length ∧
             ∀ (j : Nat) (w r : GateReq), ws[j]? = some w → rs[j]? = some r → w.va = r.va ∧ w.data = r.data ∧ w.mask &&& ~~~r.mask = 0) ∧
       (∀ cls va det, o.fail = some (cls, va, det) → Leaves s (.collectiveComplete k parts) fun t => ended t cls det)) ∧
     (∀ id parts, c.st = .run → c.xfer = some (.write id) →
       (s.ops.find id = none → Leaves s (.collectiveComplete k parts) fun t => owing t [] ∧ SameBytes s t) ∧
       (s.ops.find id ≠ none → exec (.collectiveComplete k parts) s = .next s)))

/-- O45. LATE_FAULT: a ready path that owes a late fault and meets no breakpoint raises it. ILLEGAL_INSTRUCTION raises class 1 with its code. GROUP_UNPARK: a path whose awaited event has come about is ready again, and a WAITC whose operations are down to its threshold retires. CLAUSE_ENTRY: a clause with no pending flag begins. WAITMEM_WAKE, WAITMEM_RECHECK and SLEEP_EXPIRY: the wait ends on its condition, and a checked word that does not satisfy it leaves the path waiting. BARRIER_RELEASE: a barrier that is met changes phase and its waiters go on. FENCE_TAKES_EFFECT: a quiet token is complete, an acquire advancing the epoch and dropping L1 lines at DEVICE scope. COPY_CHUNK requests the lines of its chunk's source, then the copy unit's 4 quanta, or what it lacks of them, and, once granted its arbitration, writes the chunk's bytes to the scratchpad, by whole-line and masked writes at home or on its route, its reservation then free; a route that is not open is a late fault of class 8, and a source that failed ends the copy at its place; COPY_COMPLETE frees the slot and lowers CPY. REGISTER_BLOCK_GRANT: a block that fits reads as zero, or as it was saved, and EXT is set. (The model's choices here: logs 10, 23, 29.) -/
def Obligations.CoreEvents : Prop :=
  ∀ (s : State) (core slot : Nat) (g : Group), s.group? core slot = some g →
    (∀ i k l, g.done = false → g.stopped = false → ((List.range 8).find? fun i => (g.path i).ready && (g.lateOf i).isSome && (s.breakAt g (g.path i)).isNone) = some i → g.lateOf i = some (k, l) →
      exec (.lateFault core slot) s = .next ((s.updGroup core slot fun g => { g with late := g.late.eraseIdx k }).takeFault core slot i l.pc l.cls l.va l.detail)) ∧
    (∀ (c : Cur) code, Issues s c g {} → Traps s c g (.illegalInstruction code) 1 0 code) ∧
    (∀ (c : Cur) code, s.cur = some c → c.access = true → c.core = core → c.slot = slot →
      exec (.illegalInstruction code) s = .next (s.off.accessFault core slot (g.acc.getD {}).pc 1 0 code)) ∧
    (g.stopped = false → (∀ i a, (g.path i).park = some a → (g.path i).wait = .none) → Leaves s (.groupUnpark core slot) fun t => ∃ m,
      ((∀ i c thr ids, (g.path i).wait ≠ .counter c thr ids true) → m = g.atSafe) ∧ PathsAre t core slot { g with atSafe := m } fun i =>
        match (g.path i).park, (g.path i).wait with
        | some a, _ => if (s.issueCtx core slot i g).comeAbout a then { g.path i with park := none } else g.path i
        | none, .counter c thr ids safe =>
          if g.ctrOf c ids ≤ thr then (if safe then { g.path i with wait := .none, pc := (g.path i).pc + 8, left := (g.path i).left - 2 } else (g.path i).goneOn) else g.path i
        | none, _ => g.path i) ∧
    (g.stopped = true → exec (.groupUnpark core slot) s = .next s) ∧
    (∀ path, (g.path path).valid = true → (g.path path).entry = true →
      ((∀ k, k < 12 → (g.path path).waitMask.getLsbD k = true → g.flag k = 0) → Leaves s (.clauseEntry core slot path) fun t =>
        PathChanged s t core slot path g { g.path path with entry := false, waitMask := 0 }) ∧
      (∀ k, k < 12 → (g.path path).waitMask.getLsbD k = true → g.flag k ≠ 0 → exec (.clauseEntry core slot path) s = .next s)) ∧
    (∀ path a v eq watch due w, g.stopped = false → (g.path path).wait = .mem a v eq watch due → s.homeWord g.ctx a = .ok w →
      let ends (t : State) : Prop := PathChanged s t core slot path g (g.path path).goneOn ∧ (t.core core).epoch = (s.core core).epoch + 1
      let next := s.now + if watch then 64000 else 1000
      (watch = true → memHolds w v eq = true → Leaves s (.waitmemWake core slot path) ends) ∧
      (watch = true → memHolds w v eq = false → exec (.waitmemWake core slot path) s = .next s) ∧
      (due ≤ s.now → memHolds w v eq = true → Leaves s (.waitmemRecheck core slot path) ends) ∧
      (due ≤ s.now → memHolds w v eq = false → Leaves s (.waitmemRecheck core slot path) fun t =>
        PathChanged s t core slot path g { g.path path with wait := .mem a v eq watch next } ∧ (t.core core).epoch = (s.core core).epoch)) ∧
    (∀ path due, g.stopped = false → (g.path path).wait = .sleep due → due ≤ s.now →
      Leaves s (.sleepExpiry core slot path) fun t => PathChanged s t core slot path g (g.path path).goneOn) ∧
    (∀ bar tm, s.team? g.team = some tm → s.barReady g.team bar = true → Leaves s (.barrierRelease g.team bar) fun t =>
      (∃ u, t.team? g.team = some u ∧ u.bar bar = { phase := !(tm.bar bar).phase } ∧ ∀ b, b ≠ bar → u.bar b = tm.bar b) ∧
      ∃ h, t.group? core slot = some h ∧ h = { g with paths := h.paths, issued := if (tm.bar bar).groups.contains g.num then 0 else g.issued } ∧
        ∀ i, h.path i = if (g.path i).wait = .barrier bar then (g.path i).goneOn else g.path i) ∧
    (∀ n, let k := g.tokens.get {} n
      k.out = true → g.stopped = false → s.performed k.covers = true → Leaves s (.fenceTakesEffect core slot n) fun t => t.msys = s.msys ∧
        (∃ h, t.group? core slot = some h ∧ h = { g with tokens := h.tokens } ∧ h.tokens.get {} n = { k with out := false, covers := [] }) ∧
        (t.core core).epoch = (if k.kind = 1 ∨ k.kind = 3 then (s.core core).epoch + 1 else (s.core core).epoch) ∧
        ((k.kind = 1 ∨ k.kind = 3) → 2 ≤ k.scope → k.scope ≤ 3 → ∀ l ∈ (t.core core).l1, l.sg ≠ s.ctxSg g.ctx)) ∧
    (∀ n (y : Copy), (s.core core).copies.find n = some y →
      let len := min (y.len - y.pos) (4096 - (y.dst.toNat + y.pos) % 4096)
      let a := y.dst.toNat + y.pos
      (y.started = true → Leaves s (.copyChunk core n) fun t =>
        let o := (y.read.bind s.ops.find).getD (y.op core 0 .copyRead)
        let u : State := match y.read with | some id => { s with ops := s.ops.erase id } | none => s
        let bs := y.bytes len o
        let w := y.op core o.grp (.copyWrite y.id)
        let lns := linesOf a bs.length
        (∃ z, (t.core core).copies.find n = some z ∧ z.pos = y.pos + len ∧ z.read = none ∧ z.started = false) ∧
        (∀ part, s.partOfUnit (unitOfCore core) = some part → ∀ r ∈ (t.slew.get {} part).held, r.isOf .copy core 0 = true → r.free = true) ∧
        (y.dsp = true → t.pkts = s.pkts ∧ ∀ tm, s.team? y.team = some tm → ∀ off, t.spad y.team off = if a ≤ off ∧ off < a + bs.length then bs[off - a]?.getD 0 else s.spad y.team off) ∧
        (y.dsp = false → y.remote = false →
          let e := u.startOp { w with pages := pagesOf a bs.length } fun id s => lns.map fun ln => s.lineWrite id w ln (lineOf a bs ln).1 (lineOf a bs ln).2
          t.pkts = e.pkts ∧ t.ops = e.ops) ∧
        (y.dsp = false → y.remote = true → s.routeOpen y.ctx y.route = true →
          let e := u.startRemote w y.route y.fm (lns.map fun ln =>
            if (lineOf a bs ln).1 = wholeMask then { op := 2, addr := 128 * ln, data := bytesLE 128 (lineOf a bs ln).2.toNat }
            else { op := 3, addr := 128 * ln, data := bytesLE 128 (lineOf a bs ln).2.toNat ++ bytesLE 16 (lineOf a bs ln).1.toNat })
          t.pkts = e.pkts ∧ t.ops = e.ops ∧ t.lodra = e.lodra) ∧
        (y.dsp = false → y.remote = true → s.routeOpen y.ctx y.route = false → y.slot = slot → y.gen = g.gen → g.done = false → y.path ≠ 255 → t.pkts = s.pkts ∧
          ∃ h, t.group? core slot = some h ∧ h.late = g.late ++ [{ cls := 8, path := y.path, pid := y.pid, pc := y.pc, va := y.dst, detail := 0 }])) ∧
      (y.started = false → y.pos < y.len → y.read = none → s.performed y.acqOps = true → s.copyHalted y = false → y.ssp = false →
        let o := y.op core (match s.group? core y.slot with | some h => h.num | none => 0) .copyRead
        let u := s.updCopy core n fun y => { y with read := some s.stamp }
        exec (.copyChunk core n) s = .next (u.startOp o fun id s => s.reads id o (linesOf (y.srcRange len).1 (y.srcRange len).2))) ∧
      (∀ id o, y.started = false → y.pos < y.len → y.read = some id → s.ops.find id = some o → o.left = 0 → o.fail = none →
        (s.copyHeld core = true → exec (.copyChunk core n) s = .next s) ∧
        (∀ part, s.copyHeld core = false → s.partOfUnit (unitOfCore core) = some part →
          let sl := s.slew.get {} part
          (∀ r ∈ sl.pending, r.isOf .copy core 0 = false) → exec (.copyChunk core n) s = .next { s with slew := s.slew.put part { sl with
            pending := sl.pending ++ [{ unit := .copy, core, ctx := y.ctx, size := 4 - s.heldQuanta .copy core, since := sl.clock }] } })) ∧
      (∀ id o, y.started = false → y.pos < y.len → y.read = some id → s.ops.find id = some o → o.left = 0 → o.fail.isSome = true → (∀ h, s.group? o.core o.slot = some h → h.done = false) →
        Leaves s (.copyChunk core n) fun t => t.ops.find id = none ∧ ∃ z, (t.core core).copies.find n = some z ∧ z.len = y.pos ∧ z.read = none) ∧
      (s.copyDone y = true → y.slot = slot → y.gen = g.gen → g.done = false → Leaves s (.copyComplete core n) fun t => (t.core core).copies.find n = none ∧ SameBytes s t ∧
        ∃ h, t.group? core slot = some h ∧ h.ctrs = (g.lower 4 y.id).ctrs ∧ h = { g with ctrs := h.ctrs, flags := h.flags } ∧
          ∀ f, y.flag = some f → h.flag f = g.flag f - 1)) ∧
    (g.done = false → g.stopped = false → g.gsr.getLsbD 3 = false → (g.redraw = true ∨ ∃ i, i < 8 ∧ (g.path i).park = some .pool) → s.poolFits core g.wc (s.descOf g).vext = true →
      Leaves s (.registerBlockGrant core slot) fun t => ∃ h, t.group? core slot = some h ∧ h.gsr = g.gsr ||| 8#32 ∧ h.redraw = false ∧
        (∀ n, h.vreg n = if g.redraw = false ∧ (s.descOf g).vbase ≤ n ∧ n < (s.descOf g).vbase + (s.descOf g).vext then 0 else g.vreg n) ∧
        ∀ i, h.path i = if (g.path i).park = some .pool then { g.path i with park := none } else g.path i)

/-- O46. An idle instance with backlog is ready, with a fresh deadline and budget unless it may keep its own; a unit's end and a cap's release leave it ready, idle or capped, and one whose backlog goes is idle (the model's choice, log 95). A quarter's port goes to its choice, or to the breakpoints that it meets, which stop the path, or its group where one of them says so; the earliest ready instance of another engine is granted and its meter raised. A step boundary takes 4 cycles, retires free reservations in their order while they fit into the row's DOWN, grants pending requests in grant order while they fit into its UP and the ceiling, and stops at the first that does not; a droop skips until 64 cycles have gone; a sample, 10 us after the one before, sets the sensors. -/
def Obligations.EngineEvents : Prop :=
  ∀ (s : State),
    (∀ (r : SrvRef) (v : Srv), s.stands v r →
      (v.st = .idle → s.backlogged v = true → Leaves s (.serverWake r) fun t => SrvIs s t r
        (if s.now < v.d ∧ v.c * v.p < 1024 * ((v.d : Int) - s.now) * v.q then { v with st := .ready } else { v with st := .ready, d := s.now + v.p, c := 1024 * v.q })) ∧
      (v.st = .run → v.cls ≠ 1 → v.cls ≠ 2 → Leaves s (.unitEnd r) fun t => SrvIs s t r
        { v with st := if v.hcap = true ∧ s.now < v.r then .capped else if s.backlogged v then .ready else .idle }) ∧
      (v.st = .ready → s.backlogged v = false → Leaves s (.unitEnd r) fun t => SrvIs s t r { v with st := .idle }) ∧
      (v.st = .capped → v.r ≤ s.now → Leaves s (.cappedRelease r) fun t => SrvIs s t r { v with st := if s.backlogged v then .ready else .idle })) ∧
    (∀ n slot path g, s.issueChoice (n / 4) (n % 4) = some (slot, path) → s.group? (n / 4) slot = some g → (g.path path).run < 256 →
      (s.breakAt g (g.path path) = none → exec (.arbitration 0 n) s = .next { s with cur := some { core := n / 4, slot, path } }) ∧
      (∀ k, s.breakAt g (g.path path) = some k → exec (.arbitration 0 n) s = .next (s.push [.breakpointMatch (n / 4) slot path]))) ∧
    (∀ n v h b m ms, s.engineBusy 1 n = false → s.earliest 1 n (fun v => (s.bankChoice n v.ctx).isSome) = some v → s.bankChoice n v.ctx = some (h, b) →
      b.q = m :: ms → Leaves s (.arbitration 1 n) fun t => (t.core n).lastBank = h ∧ Metered s t v.ctx v.cls ((1024 * 10 * m.cycles + v.e) / (17 - s.keff (s.ctxPart v.ctx)))) ∧
    (∀ n v, s.engineBusy 2 n = false → s.earliest 2 n (fun v => (s.copyHeld n && ((s.core n).nextCopy s v.ctx).isSome) || (s.copyhNext n v.ctx).isSome) = some v →
      (∀ i y, s.copyhNext n v.ctx = none → (s.core n).nextCopy s v.ctx = some (i, y) → (s.core n).copies.find i = some y → Leaves s (.arbitration 2 n) fun t =>
        (t.core n).copies.find i = some { y with started := true } ∧ Metered s t v.ctx v.cls ((1024 * ((y.chunk + 127) / 128) + v.e) / 2)) ∧
      (∀ id c, s.copyhNext n v.ctx = some (id, c) → s.sched.cmds.find id = some c → Leaves s (.arbitration 2 n) fun t =>
        t.sched.cmds.find id = some { c with phase := .granted } ∧ Metered s t v.ctx v.cls ((1024 * ((c.chunk + 127) / 128) + v.e) / 2))) ∧
    (∀ n v b, (∀ d, s.boot.hbmHeld ≠ some (n, d)) → s.earliest 3 n s.backlogged = some v → (s.msys.bursts.find? fun b => b.chan == n && b.ctx == v.ctx) = some b →
      b.pkt = none → Leaves s (.arbitration 3 n) fun t => t.msys.bursts = s.msys.bursts.erase b ∧ Metered s t v.ctx v.cls ((2048 + v.e) / 5)) ∧
    (∀ n v f, s.earliest 4 n s.backlogged = some v → s.flitPlan n v.route = some f → (s.link n).owed = false → Leaves s (.arbitration 4 n) fun t =>
      let d : DataFlit := { lseq := (s.link n).txSeq, ctx := s.rteLctx v.route, cls := f.cls, rsp := f.rsp, slots := f.slots, credit := (s.link n).back.head? }
      t.host.out = s.host.out ++ [.linkFlit n (buildFlit (d.head (s.link n).rxLack) f.slots)] ∧ (t.link n).back = (s.link n).back.drop 1 ∧
        (t.link n).replay = (s.link n).replay ++ [d] ∧ (t.link n).txPart = f.rest ∧
        (t.link n).txSeq = ((s.link n).txSeq + 1) % 4096 ∧ Metered s t v.ctx v.cls ((1024 * 1239 + v.e) / 1024)) ∧
    (∀ core slot path g k, s.group? core slot = some g → s.breakAt g (g.path path) = some k → (g.path path).ready = true →
      Leaves s (.breakpointMatch core slot path) fun t => ∃ h, t.group? core slot = some h ∧ (h.path path).dstop = true ∧
        ((∀ j ∈ s.breaksAt g (g.path path), s.rfld (.dbp g.ctx j) 1 2 = 0) → h = { g with paths := h.paths } ∧ ∀ i, i ≠ path → h.path i = g.path i) ∧
        ((∃ j ∈ s.breaksAt g (g.path path), s.rfld (.dbp g.ctx j) 1 2 = 1) → ∀ i, i < 8 → (g.path i).valid = true → (h.path i).dstop = true)) ∧
    (∀ (g : Group) (p : Path) k, k ∈ s.breaksAt g p ↔ k < 4 ∧ p.bpSkip ≠ some p.pc ∧ (s.reg (.dbgcfg g.ctx)).getLsbD 0 = true ∧
      (s.reg (.dbp g.ctx k)).getLsbD 0 = true ∧ 2 * s.rfld (.dbp g.ctx k) 3 52 = p.pc.toNat) ∧
    (∀ part, part < 48 → 4 ≤ (s.slew.get {} part).cycles → 0 < s.rfld (.pslew part) 8 8 → Leaves s (.slewStepBoundary part) fun t =>
      let sl := s.slew.get {} part
      let tl := t.slew.get {} part
      let level := levelOf sl.held
      let row := min 7 (level / s.rfld (.pslew part) 8 8)
      let up := s.rfld (.pramp part row) 0 8
      let down := s.rfld (.pramp part row) 8 8
      let ceil := s.rfld (.pslew part) 0 8 * (s.partUnits part).length
      tl.cycles = sl.cycles - 4 ∧ t.rfld (.pslst part) 0 14 = levelOf tl.held % 2 ^ 14 ∧ t.rfld (.pslst part) 14 3 = row ∧
      (∀ a b, sl.held = [a, b] → a.free = true → b.free = true → a.RetiresFirst b → sl.pending = [] →
        tl.held = if down < a.size then [a, b] else if down < a.size + b.size then [b] else []) ∧
      (∀ a b, (∀ h ∈ sl.held, h.free = false ∧ h.isOf a.unit a.core a.quarter = false ∧ h.isOf b.unit b.core b.quarter = false) → a.isOf b.unit b.core b.quarter = false →
        sl.pending = [a, b] → s.GrantsFirst a b →
        let fits (n : Nat) : Prop := n ≤ up ∧ level + n ≤ ceil
        (¬ fits a.size → tl.pending = [a, b] ∧ tl.held = sl.held) ∧
        (fits a.size → ¬ fits (a.size + b.size) → tl.pending = [b] ∧ levelOf tl.held = level + a.size ∧ ∀ h ∈ sl.held, h ∈ tl.held) ∧
        (fits (a.size + b.size) → tl.pending = [] ∧ levelOf tl.held = level + a.size + b.size ∧ ∀ h ∈ sl.held, h ∈ tl.held)) ∧
      (∀ a b, sl.held = [a] → a.free = true → a.size ≤ down → sl.pending = [b] →
        (b.size ≤ up + a.size → b.size ≤ ceil → tl.pending = [] ∧ levelOf tl.held = b.size) ∧
        (up + a.size < b.size ∨ ceil < b.size → tl.pending = [b] ∧ tl.held = []))) ∧
    (∀ u part, part < 48 → s.partOfUnit u = some part → Leaves s (.droopTrip u) fun t => (t.slew.get {} part).droop = some 0 ∧
      t.rfld (.pslcnt part) 32 16 = min (2 ^ 16 - 1) (s.rfld (.pslcnt part) 32 16 + 1) ∧ RegsBut s t [.pslcnt part]) ∧
    (∀ part n, (s.slew.get {} part).droop = some n → Leaves s (.droopSkipEnd part) fun t =>
      (t.slew.get {} part).droop = (if 64 ≤ n then none else some n) ∧ t = { s with slew := t.slew }) ∧
    (∀ q ts t0, s.mon.sampledAt.find q = some t0 → s.now < t0 + 10000 → exec (.thermalSample q ts) s = .next s) ∧
    (∀ q ts, q < 4 → (∀ t0, s.mon.sampledAt.find q = some t0 → t0 + 10000 ≤ s.now) → Leaves s (.thermalSample q ts) fun t => t.rfld (.therm q) 28 8 = (ts.map fun x => min 255 x).foldl max 0 ∧
      (∀ i c x : Nat, (quadCores q)[i]? = some c → ts[i]? = some x → t.rfld (.ctemp c) 0 8 = min 255 x) ∧
      (s.rfld (.therm q) 0 8 ≤ (ts.map fun x => min 255 x).foldl max 0 → s.mon.tstepAt.find q = none → s.rfld (.therm q) 24 4 < 8 →
        t.rfld (.therm q) 24 4 = s.rfld (.therm q) 24 4 + 1))

/-- O47. A group of a team asked to stop does so at a safe point or parked; a forced halt stops every group; a window's end halts the teams still resident; a drained team is saved, its image goes to a free save area, and it leaves its core and joins its context's resume list. A team whose groups are gone leaves its grid, and a grid whose teams are gone ends with its edge counts. A hot core's youngest team is asked to migrate to the coolest core; an idle home becomes LENDABLE; a round ends, and one that finds room for a head places its team on the first core that passes, in the order after the last one, with its groups at their entry, and asks for another; on a bare core the resource check is its table's; a head's age and a watchdog's end are marked and raised. (The model's choices here: logs 10, 97, 115, 118.) -/
def Obligations.SchedulingEvents : Prop :=
  ∀ (s : State),
    (∀ core slot g tm m, s.group? core slot = some g → s.team? g.team = some tm → (tm.stop = some 0 ∨ (tm.stop = some 3 ∧ m = none)) →
      g.stopped = false → g.done = false → g.stopPoint = some m → (g.mbs.any fun e => e.2.busy) = false →
      exec (.cooperativeStop core slot) s = .next ((s.updGroup core slot fun g => { g with stopped := true, liveMask := m, paths := g.paths.map Path.halt }).traceGroup core slot 9 0 0)) ∧
    (∀ team kind tm, s.team? team = some tm → tm.core.isSome = true → tm.saved = none → Leaves s (.forcedHalt team kind) fun t => SameBytes s t ∧
      (∃ u, t.team? team = some u ∧ u.stop = some (if kind = 2 ∨ tm.stop = some 2 then 2 else 1)) ∧
      ∀ core slot g, s.group? core slot = some g → g.team = team → ∃ h, t.group? core slot = some h ∧ h.stopped = true ∧ h.liveMask = none ∧ ∀ i, (h.path i).park = none ∧ (h.path i).desc = none) ∧
    (∀ req p due, s.sched.preempts.find req = some p → p.due = some due →
      (due ≤ s.now → Leaves s (.cooperativeWindowExpiry req) fun t => t.sched.preempts = s.sched.preempts.erase req ∧ t.cores = s.cores ∧
        t.turns = ((p.teams.filter fun k => (s.team? k).any fun u => u.core.isSome && u.saved.isNone).map fun k => .ev (.forcedHalt k 1)) ++ s.turns) ∧
      (s.now < due → exec (.cooperativeWindowExpiry req) s = .next s)) ∧
    (∀ team kind tm base, s.team? team = some tm → tm.stop = some kind → tm.core.isSome = true → tm.saved = none → tm.area = none → s.resident team = true →
      (∀ e ∈ s.sched.preempts, e.2.teams.Nodup) → s.freeArea (s.ctxPart tm.ctx) tm.pair = some base → s.drained team tm (decide (kind = 0 ∨ kind = 3)) = true → kind ≠ 2 → Leaves s (.teamOffCore team) fun t =>
        (∃ u n id, t.team? team = some u ∧ u.core = none ∧ u.stop = none ∧ u.saved.isSome = true ∧ u.area = some { base, lines := n, op := some id } ∧
          t.ops.find id = some { core := 256, kind := .image team, ctx := mgmtCtx, left := n } ∧
          ∀ i, i < n → ∃ q, t.pkts.find (id + 1 + i) = some q ∧ q.op = 2 ∧ q.addr = base + 128 * i ∧ q.cls = 0 ∧ q.ctx = mgmtCtx ∧ q.opId = id) ∧
        (∀ e ∈ t.sched.preempts, team ∉ e.2.teams) ∧
        (∀ core slot g, s.group? core slot = some g → g.team = team → t.group? core slot = none) ∧
        let l := s.sched.resume.get [] tm.ctx
        t.sched.resume.get [] tm.ctx = if kind = 3 then l.take 1 ++ [team] ++ l.drop 1 else l ++ [team]) ∧
    (∀ core slot g r x u n b, (∀ e ∈ s.ops, e.2.awaitsPlace core = false) → (s.core core).groups = [(slot, g)] → g.unplaced = [(r, x)] → s.sharedName core slot x = none → s.writeV core slot r x = some (u, n, b) →
      Leaves s (.registerAllocationRetry core) fun t => SameBytes s t ∧ ∃ h, t.group? core slot = some h ∧ h.unplaced = [] ∧ h.vreg r = x) ∧
    (∀ team tm, s.team? team = some tm → tm.core.isSome = true → tm.saved = none → s.resident team = false → Leaves s (.teamComplete team) fun t =>
      t.team? team = none ∧ ∀ g, s.sched.grids.find tm.grid = some g → ∃ h, t.sched.grids.find tm.grid = some h ∧ h.live = g.live - 1 ∧
        (tm.orphan = none → h = { g with live := h.live }) ∧ (tm.orphan.isSome = true → h.fault.isSome = true)) ∧
    (∀ grid g, s.sched.grids.find grid = some g →
      (g.fault = none → s.joined grid g = true → g.next = g.desc.teams → g.live = 0 → (∀ e ∈ s.sched.cmds, e.2.queue < 64) → Leaves s (.gridEnd grid) fun t =>
        t.sched.grids.find grid = none ∧ t.sched.cmds.find g.cmd = none ∧
        (∀ k, g.outEdge = some k → k < 4096 → t.rfld (.edgcnt k) 16 16 = (s.rfld (.edgcnt k) 16 16 + 1) % 2 ^ 16) ∧
        (∀ k, g.inEdge = some k → k < 4096 → t.rfld (.edgcnt k) 0 16 = (s.rfld (.edgcnt k) 0 16 + 1) % 2 ^ 16)) ∧
      (∀ r, g.fault = some r → (∀ e ∈ s.sched.teams, e.2.grid ≠ grid) → Leaves s (.gridEnd grid) fun t => t.sched.grids.find grid = none ∧ t.sched.cmds.find g.cmd = none)) ∧
    (∀ core part k tm c, s.partOfUnit (unitOfCore core) = some part → s.rfld (.psched part) 16 1 = 1 → s.rfld (.ctemp core) 8 1 = 1 →
      youngest ((s.teamsOn core).filter fun e => s.mayMigrate e.1 e.2 && s.resident e.1) = some (k, tm) →
      leastBy (fun c : Nat => s.rfld (.ctemp c) 0 8 * 256 + c)
        ((s.region tm.ctx).filter fun c => c != core && s.rfld (.ctemp c) 8 1 == 0 && s.passes tm (s.grid tm.grid).desc c) = some c → s.team? k = some tm →
      Leaves s (.hotSpotMigration core) fun t => t.team? k = some { tm with dest := some c, migrated := some s.now, stop := some (if tm.stop = some 1 then 1 else 2) } ∧
        t.turns = .ev (.forcedHalt k 2) :: s.turns ∧ t.cores = s.cores ∧ t.msys = s.msys) ∧
    (∀ c o since, c < 128 → s.clOwner c = some o → s.trackIdle.sched.idle.find c = some since → s.clState c = 0 → s.rfld (.ctxcfg o) 15 1 = 1 →
      since + 1000 * s.rfld (.ctxcfg o) 18 16 ≤ s.now → Leaves s (.lendDelayExpiry c) fun t => t.clState c = 1 ∧ RegsBut s t [.clend c] ∧ s.ctxPart o ∈ t.sched.round) ∧
    (∀ part, let u : State := { s with sched := { s.sched with round := s.sched.round.filter fun p => p ≠ part } }
      (s.roundQueues part = [] → exec (.distributorRound part) s = .next u) ∧
      (∀ q ctx gid g c, s.roundQueues part = [(q, ctx)] → s.sched.resume.get [] ctx = [] → s.rfld (.hqcfg q) 9 8 = 1 → s.headGrid q = some (gid, g) →
        s.sched.grids.find gid = some g → s.sched.teams.find s.stamp = none →
        let region := (List.range 256).filter fun c => s.partHasUnit (s.ctxPart g.ctx) (c / 4) && s.srvs.any fun v => v.is 0 (4 * c) g.ctx 0
        let tried := if g.desc.pair then region.filter fun c => c % 2 == 0 else region
        let order := match s.sched.lastCore.find g.ctx with
          | some l => (tried.filter fun c => decide (l < c)) ++ tried.filter fun c => decide (c ≤ l)
          | none => tried
        (order.find? fun c => (if g.desc.pair then !s.barred q (c - c % 2) && !s.barred q (c - c % 2 + 1) else !s.barred q c) &&
          s.passes (g.nextTeam gid) g.desc c) = some c → Leaves s (.distributorRound part) fun t => part ∈ t.sched.round ∧ t.sched.clocks.find q = none ∧
            t.sched.lastCore.find g.ctx = some (if g.desc.pair then c - c % 2 + 1 else c) ∧
            (∃ u, t.team? s.stamp = some u ∧ u.core = some c ∧ u.grid = gid ∧ u.idx = g.next ∧ u.ctx = g.ctx ∧ u.pair = g.desc.pair) ∧
            (∃ h, t.sched.grids.find gid = some h ∧ h.next = g.next + 1 ∧ h.live = g.live + 1) ∧
            ∀ n, n < g.desc.gpt → ∃ slot h, t.group? (if g.desc.pair then c - c % 2 + (if n < g.desc.gpt / 2 then 0 else 1) else c) slot = some h ∧
              h.team = s.stamp ∧ h.num = n ∧ h.grid = gid ∧ h.ctx = g.ctx ∧ (h.path 0).valid = true ∧ (h.path 0).pc = g.desc.entry ∧ ∀ i, i ≠ 0 → (h.path i).valid = false)) ∧
    (∀ (tm : Team) (d : Desc) c, s.bareCore c → tm.saved = none → d.pair = false → s.clOwner (c / 2) = none → s.kept tm c = false →
      let w := 16 * 2 ^ d.wcode
      (s.passes tm d c = true ↔ s.boot.updating ≠ some (s.ctxPart tm.ctx) ∧ d.gpt ≤ 64 ∧ d.gpt * (d.vbase * w * 4) ≤ 512 * 1024 ∧ d.spages ≤ 64 ∧
        d.gpt * (d.dirs * w * 4) ≤ 64 * 1024 ∧ d.gpt * (d.queueCount * d.qdepth * w * 4) ≤ 128 * 1024 ∧
        (∃ v ∈ s.srvs, v.is 0 (4 * c) tm.ctx 0 = true) ∧
        ∀ k, k = 1 ∨ k = 2 → (s.reg (.svcfg tm.ctx k)).getLsbD 52 = true → ∃ v ∈ s.srvs, v.is k c tm.ctx 0 = true)) ∧
    (∀ q since gid g, s.sched.clocks.find q = some since → s.headGrid q = some (gid, g) → s.sched.aged.find q = none →
      since + 1000 * s.rfld (.psched (s.ctxPart g.ctx)) 0 16 ≤ s.now →
      exec (.ageLimitReached q) s = .next { s with sched := { s.sched with aged := s.sched.aged.put q s.now } }) ∧
    (∀ (c : Cur) g, s.cur = some c → c.access = false → s.group? c.core c.slot = some g → (s.descOf g).wdog = true → g.watchdog ≤ 1 → Traps s c g .watchdogExpiry 12 0 0)

/-- O48. Where a path or an access thread is issuing and the n bytes of the parcel at its PC may be fetched, step is exec of the instruction they decode to, exec of ILLEGAL_INSTRUCTION with the trap code if they are none, and the fetch fault if they may not be fetched. With no path issuing, step is exec of the event that is next. -/
def Obligations.StepRunsDecoded : Prop :=
  (∀ (s : State) (c : Cur) (g : Group) (n : Nat), s.cur = some c → s.group? c.core c.slot = some g → (n = 2 ∨ n = 4) →
    let a := (g.fetchPc c).toNat
    (s.fetchFault g c.access a 2 = none → s.fetchFault g c.access a n = none → s.virtRead g.ctx a 2 % 2 = (if n = 4 then 1 else 0) →
      (∀ i rest, decodeParcel (bytesLE n (s.virtRead g.ctx a n)) = .ok (i, rest) → step s = exec i s) ∧
      (∀ code, decodeParcel (bytesLE n (s.virtRead g.ctx a n)) = .error (.illegal code) → step s = exec (.illegalInstruction code) s)) ∧
    (∀ cls det, s.fetchFault g c.access a 2 = some (cls, det) → step s = .next (s.fetchFails c g cls det))) ∧
  (∀ (s : State) (i : Instr) (rest : List Turn), s.cur = none → s.turns = .ev i :: rest → step s = exec i { s with turns := rest })

/-- O49. The words that the chapters print under their encodings, one or more of every family, decode to the instructions printed beside them. -/
def Obligations.DecodesRight : Prop :=
  decodeTableWord 32 0x0FFC003F = some (.clauseHeader { wait := 0, seta := 15, setb := 15, len := 3 }) ∧
  decodeTableWord 32 0x00842087 = some (.fmulF32Vu { sp := 0, pred := 0, b := 1, a := 2, d := 4 }) ∧
  decodeTableWord 32 0x20C812A5 = some (.stgReg { sp := 0, pred := 1, l := 0, n := 3, b := 8, d := 4, z := 2 }) ∧
  decodeTableWord 32 0x000000A3 = some (.exit { n := 0 }) ∧
  decodeTableWord 32 0x000414A1 = some (.brx { o := 0x20, g := 1, n := 2 }) ∧
  decodeTableWord 32 0xFFFE0021 = some (.bra { o := 0x7FFF0, g := 0, n := 0 }) ∧
  decodeTableWord 32 0x000000E1 = some (.join) ∧
  decodeTableWord 32 0x000021A3 = some (.bar { v := 0, x := 0, b := 1 }) ∧
  decodeTableWord 32 0x0000A923 = some (.waitmem { e := 0, v := 5, c := 4 }) ∧
  decodeTableWord 32 0x02010311 = some (.uadd { b := 2, a := 1, d := 3 }) ∧
  decodeTableWord 32 0xFFFF049D = some (.uaddi { i := 0xFFFF, d := 4 }) ∧
  decodeTableWord 32 0x001A0ADD = some (.urds { i := 0x1A, d := 10 }) ∧
  decodeTableWord 32 0x018440C5 = some (.faccF32 { sp := 0, pred := 0, b := 3, a := 2, d := 8 }) ∧
  decodeTableWord 32 0x42880BC1 = some (.vaddsS32 { sp := 0, pred := 2, b := 5, a := 4, d := 1 }) ∧
  decodeTableWord 32 0x01029C41 = some (.vcmp { sp := 0, pred := 0, b := 2, a := 1, c := 2, d := 3 }) ∧
  decodeTableWord 32 0x060E3049 = some (.cvtFromF32 { sp := 0, pred := 0, o := 1, t := 4, a := 7, d := 6 }) ∧
  decodeTableWord 32 0x048612CB = some (.shflVu { sp := 0, pred := 0, b := 9, a := 3, d := 2 }) ∧
  decodeTableWord 32 0x10C810A5 = some (.ldgReg { sp := 0, pred := 0, l := 1, n := 3, b := 8, d := 4, z := 2 }) ∧
  decodeTableWord 32 0x01820A69 = some (.stsp { sp := 0, pred := 0, l := 0, n := 6, i := 2, d := 2, z := 1 }) ∧
  decodeTableWord 32 0x41CA142B = some (.atom { sp := 0, c := 2, l := 0, n := 7, b := 10, d := 5, o := 0 }) ∧
  decodeTableWord 32 0x02800871 = some (.fence { sp := 0, g := 2, k := 2, t := 2 }) ∧
  decodeTableWord 32 0x000008B1 = some (.fwait { sp := 0, t := 2 }) ∧
  decodeTableWord 32 0x000C00F1 = some (.waitc { sp := 0, v := 12, c := 0 }) ∧
  decodeTableWord 32 0x10100231 = some (.cpy { sp := 0, l := 1, b := 16 }) ∧
  decodeTableWord 32 0x088804C1 = some (.vmovMbs { sp := 0, n := 1, a := 4 }) ∧
  decodeTableWord 32 0x010014B3 = some (.aldq { i := 16, q := 1, x := 2 }) ∧
  decodeTableWord 32 0x00000035 = some (.mbank) ∧
  decodeTableWord 32 0x01800175 = some (.mmask { d := 24 }) ∧
  decodeTableWord 32 0x09E001F5 = some (.mml { k := 2, l := 30, t := 0, r := 0 }) ∧
  decodeTableWord 32 0x002C0135 = some (.mst { b := 0, g := 2, l := 1, e := 1, c := 0, r := 0 }) ∧
  decodeTableWord 32 0x408519B5 = some (.mma { b := 16, a := 8, t := 2, r := 70 }) ∧
  decodeTableWord 32 0x004E1675 = some (.mcvt { o := 0, d := 4, t := 7, r := 5 }) ∧
  decodeTableWord 32 0x018200B7 = some (.dfromv { sp := 0, b := 6, a := 1, t := 0 }) ∧
  decodeTableWord 32 0x00822337 = some (.ddot { sp := 0, r := 0, b := 2, a := 1, x := 4 }) ∧
  decodeTableWord 32 0x01400A77 = some (.dscl { sp := 0, b := 5, x := 1 }) ∧
  decodeTableWord 32 0x00821977 = some (.dadd { sp := 0, b := 2, a := 1, x := 3 }) ∧
  decodeTableWord 32 0x100240F7 = some (.dtov { sp := 0, r := 1, k := 0, t := 0, a := 1, x := 8 }) ∧
  decodeTableWord 32 0x120A1037 = some (.dld { sp := 0, l := 1, b := 8, a := 5, x := 2 })

/-- O50. For every encoded instruction whose own fields raise no trap, at every value of its operands, decoding its words gives it back and leaves the bytes after it. -/
def Obligations.DecodeEncode : Prop :=
  ∀ (i : Instr) (bs rest : Bytes), i.illegalCode = none → encode i = some bs → decodeParcel (bs ++ rest) = .ok (i, rest)

/-- O51. At reset the device is in bring-up state REG without PMLOCK, the postmark is 0, no path issues, every register reads the reset value of its field map, nothing runs or is in flight, and memory lists nothing (that it then reads 0 is the model's choice, log entry on memory contents). -/
def Obligations.ResetState : Prop :=
  State.reset.bring = 0 ∧ State.reset.rfld .bstat 3 1 = 0 ∧ State.reset.now = 0 ∧ State.reset.cur = none ∧ State.reset.turns = [] ∧
  (∀ r : RegName, State.reset.reg r = r.resetVal) ∧ (∀ n, n < 256 → State.reset.rfld (.ctrpol n) 0 5 = 16 ∧ State.reset.rfld (.ctrpol n) 5 16 = 1000) ∧
  State.reset.rfld .ident 0 16 = 0x9740 ∧ (∀ k, k < 5 → State.reset.rfld .svbound (10 * k) 10 = 973) ∧ (∀ n, n < 48 → State.reset.rfld (.psched n) 0 16 = 200) ∧
  State.reset.cores = [] ∧ State.reset.pkts = [] ∧ State.reset.ops = [] ∧ State.reset.srvs = [] ∧ State.reset.sched = {} ∧ State.reset.lodra = {} ∧
  State.reset.msys.cells = [] ∧ State.reset.memoryOk

/-- O52. From every state whose memory lists its bytes in canonical form, addresses strictly rising and no byte that an unlisted address reads as, every step leaves memory in canonical form. The form is the model's own. -/
def Obligations.MemoryCanonicalKept : Prop :=
  ∀ s t : State, s.memoryOk → step s = .next t → t.memoryOk

/-- O53. From every state all of whose commands were taken from one of the 64 hardware queues, every step leaves such a state. The claims on guest commands and on the ends of grids assume it. -/
def Obligations.CommandQueuesKept : Prop :=
  ∀ s t : State, (∀ e ∈ s.sched.cmds, e.2.queue < 64) → step s = .next t → ∀ e ∈ t.sched.cmds, e.2.queue < 64

/-- O54. A step that is not a reset, the start of regulators or a lock leaves the postmark or advances it by 1 ns, and no instruction that a path issues moves it. -/
def Obligations.PostmarkMoves : Prop :=
  (∀ (i : Instr) (s t : State), exec i s = .next t → t.now = s.now ∨ (∃ on, i = .powerOnReset on) ∨ (∃ m, i = .configReset m) ∨
    i = .regulatorsStarted ∨ ∃ time, i = .ieee1588Lock time) ∧
  (∀ (s t : State) (c : Cur), s.cur = some c → step s = .next t → t.now = s.now) ∧
  (∀ (s t : State) (rest : List Turn), s.cur = none → s.turns = .tick :: rest → step s = .next t → t.now = s.now + 1)

/-- O55. A fault of a class other than 4, 12 and 14, in a grid with a handler, of a path that is not in it, transfers that path alone to HANDLER at a clause boundary with HNDL = 1, its mask kept and its record in the path; nothing else of the group, the grid or memory changes. Any other fault is recorded for the grid, and the path stays; the first record by postmark, index, group and path stands. -/
def Obligations.FaultEntry : Prop :=
  ∀ (s : State) (core slot path : Nat) (g : Group) (pc va : W64) (cls det : Nat), s.group? core slot = some g → (g.path path).valid = true →
    let p := g.path path
    let d := (s.grid g.grid).desc
    let r : FaultRec := { cls, path, grp := g.num, ctx := g.ctx, team := (match s.team? g.team with | some t => t.idx | none => 0)
                          pc, mask := p.mask, time := s.now, va, detail := det, core }
    let t := s.takeFault core slot path pc cls va det
    (cls ∉ [4, 12, 14] → d.handler ≠ 0 → p.hndl = false → t.sched = s.sched ∧
      PathChanged s t core slot path g { p with pc := d.handler, hndl := true, left := 0, waitMask := 0, entry := false, wait := .none, park := none
                                                desc := none, run := 0, frec := { r with trapped := true } }) ∧
    ((cls ∈ [4, 12, 14] ∨ d.handler = 0 ∨ p.hndl = true) → t.group? core slot = some g ∧ t.msys = s.msys ∧
      ∀ gr, s.sched.grids.find g.grid = some gr → ∃ x, t.sched.grids.find g.grid = some { gr with fault := some x } ∧
        (gr.fault = none → x = r) ∧
        ∀ old, gr.fault = some old → x = (if r.before old then { r with further := x.further } else { old with further := x.further }))

/-- O56. In the 64 bytes of a record, bytes 0-1 hold the class, 2 the path, 3 the group, 4-5 the context, bit 0 of 6 whether the path was transferred, 8-15 the team, 16-23 the PC, 24-31 the mask, 32-39 the postmark, 40-47 the address, 48-55 the detail, 56-59 the number of further faults, which each further fault of the grid raises by one, saturating; every other bit is 0. -/
def Obligations.FaultRecords : Prop :=
  (∀ r : FaultRec, r.cls < 2 ^ 16 → r.path < 256 → r.grp < 256 → r.ctx < 2 ^ 16 → r.team < 2 ^ 64 → r.time < 2 ^ 64 → r.detail < 2 ^ 64 → r.further < 2 ^ 32 →
    let at' (byte n : Nat) : Nat := r.image.toNat / 2 ^ (8 * byte) % 2 ^ n
    at' 0 16 = r.cls ∧ at' 2 8 = r.path ∧ at' 3 8 = r.grp ∧ at' 4 16 = r.ctx ∧ at' 6 8 = (if r.trapped then 1 else 0) ∧ at' 7 8 = 0 ∧ at' 8 64 = r.team ∧
    at' 16 64 = r.pc.toNat ∧ at' 24 64 = r.mask.toNat ∧ at' 32 64 = r.time ∧ at' 40 64 = r.va.toNat ∧ at' 48 64 = r.detail ∧ at' 56 32 = r.further ∧ at' 60 32 = 0) ∧
  (∀ (s : State) (k : Nat) (g : Grid) (r : FaultRec), s.sched.grids.find k = some g →
    (g.fault = none → (s.gridFault k r).sched.grids.find k = some { g with fault := some r }) ∧
    ∀ old, g.fault = some old → ∃ x, (s.gridFault k r).sched.grids.find k = some { g with fault := some x } ∧ x.further = min (2 ^ 32 - 1) (old.further + 1))

/-- O57. A charge of n units of a/b ns takes x = floor((1024 a n + e) / b) from c and leaves the remainder in e, below b; over any run of charges what is taken and the last remainder add up exactly, with no drift. A partition at clock step k charges core cycles at 10/(17 - k) ns. -/
def Obligations.Charges : Prop :=
  (∀ (v : Srv) (a b n : Nat), 0 < b → 0 < v.q →
    let x := (1024 * a * n + v.e) / b
    let u := v.charge a b n
    v.amount a b n = x ∧ u.e = (1024 * a * n + v.e) % b ∧ u.e < b ∧ (0 < v.c - x → u.c = v.c - x ∧ u.d = v.d) ∧
    ∃ k : Nat, u.c = v.c - x + 1024 * v.q * k ∧ u.d = v.d + k * v.p ∧ 0 < u.c) ∧
  (∀ (v : Srv) (a b : Nat) (ns : List Nat), 0 < b →
    let r := ns.foldl (fun (u : Srv × Nat) n => (u.1.charge a b n, u.2 + u.1.amount a b n)) (v, 0)
    r.2 * b + r.1.e = 1024 * a * ns.sum + v.e) ∧
  (∀ (s : State) (core quarter ctx n : Nat) (v : Srv), s.srv? 0 (4 * core + quarter) ctx 0 = some v →
    Metered s (s.chargeIssue core quarter ctx n) v.ctx v.cls ((1024 * 10 * n + v.e) / (17 - s.keff (s.ctxPart ctx))))

/-- O58. A packet of any type whose DDEV is not this device, or whose ROUTE index names no valid entry, is dropped: the drop log takes a record with reason code 7 (5, the lower code, for a reserved type) and the drop count rises; no other register, packet, link, unit or byte changes, so it is neither forwarded nor charged. (That a reserved type counts first, and that such a drop names no partition, is the model's reading: logs 108, DEDUCED, and 35.) -/
def Obligations.Misrouted : Prop :=
  ∀ (s : State) (p : SysPkt) (i : Instr), i ∈ [.remoteRequest p, .ack p, .freset p, .hoist p, .go p, .abort p, .withdraw p] →
    (p.ddev ≠ s.devId ∨ s.rteValid p.route = false) →
    let k := s.rfld .dlhead 0 4
    Leaves s i fun t => t = { s with regs := t.regs } ∧ RegsBut s t [.dlhead, .dlog k 0, .dlog k 1] ∧
      t.rfld .dlhead 0 4 = (k + 1) % 16 ∧ t.rfld .dlhead 16 32 = min (2 ^ 32 - 1) (s.rfld .dlhead 16 32 + 1) ∧
      (p.cls < 8 → p.srt < 64 → p.sep < 16 → t.rfld (.dlog k 0) 44 4 = (if i = .remoteRequest p ∧ 0x20 ≤ p.op then 5 else 7))

/-- O59. DNRM writes S[X] with the 16-bit norm code, sign-extended, the zero code reading 0xFFFF_8000 and the undefined code 0xFFFF_8001; DTEST sets Kk to whether the direction holds the zero code, the undefined code or an ordinary norm, as its code 0, 1 or 2 asks, and code 3 traps with code 4. Nothing else changes. -/
def Obligations.DirectionReads : Prop :=
  ∀ (s : State) (c : Cur) (g : Group),
    (∀ f : D2F, (Instr.dnrm f).illegalCode = none → Issues s c g { sp := f.sp == 1 } →
      let x := s.issuing c g
      let n := (x.dread f.a.toNat).norm
      DirReady x [f.a.toNat] [f.a.toNat] → x.sWait [f.x.toNat] = none →
      ∃ v, Retires s c g (.dnrm f) { sp := f.sp == 1 } (s.withGroup c fun h => h.setS f.x.toNat v) ∧ v = BitVec.ofInt 32 n.toInt ∧
        (n = 0x8000 → v = 0xFFFF8000) ∧ (n = 0x8001 → v = 0xFFFF8001)) ∧
    (∀ f : DtestF, (Instr.dtest f).illegalCode = none → Issues s c g { sp := f.sp == 1 } →
      let x := s.issuing c g
      let d := x.dread f.a.toNat
      DirReady x [f.a.toNat] [f.a.toNat] → Retires s c g (.dtest f) { sp := f.sp == 1 }
        (s.withGroup c fun h => h.setK f.k.toNat (match f.c.toNat with | 0 => d.isZero | 1 => d.isUndef | _ => !d.isZero && !d.isUndef))) ∧
    (∀ f : DtestF, f.c.toNat = 3 → Issues s c g { sp := f.sp == 1 } → Traps s c g (.dtest f) 1 0 4)

/-- O60. An eligible lane instruction of the tables that writes every lane or a destination with no older write in flight, and whose key meets an entry of its core's result table, writes its destination with the value of the register that the entry names, ORs the entry's sticky bits into GSR, raises no in-flight counter, puts no operation in flight, is charged one ISSUE beat and raises the hit meter by one, and its path goes on. -/
def Obligations.TableHits : Prop :=
  ∀ (i : Instr) (F : LaneForm) (s : State) (c : Cur) (g : Group),
    (laneInteger i = some F ∨ lanePacked i = some F ∨ laneFloat i = some F ∨ laneConvert i = some F) → i.illegalCode = none →
    Issues s c g (F.inf g) → F.ok (s.issuing c g) = true →
    let x := s.issuing c g
    let o := F.op x
    x.laneFault o.srcs o.runs [o.dst] = none → x.laneWait o.srcs o.runs [o.dst] = none → o.opw.isSome = true →
    x.eligible (o.srcs ++ [o.dst]) = true → (o.mask = fullMask x.w ∨ x.vPending o.dst = false) →
    ∀ ent k q, (s.core c.core).lookup (x.laneKey o (o.opw.getD 0)) = some ent → mapKey ent.wc ent.val = some k → (s.core c.core).pvrs.find k = some q →
      Leaves s i fun t => t.msys = s.msys ∧ t.ops.map (·.1) = s.ops.map (·.1) ∧ (x.vPending o.dst = false → t.ops = s.ops) ∧ Metered s t g.ctx 5 1 ∧
        (∀ v, s.srv? 0 (4 * c.core + g.quarter) g.ctx 0 = some v → Metered s t g.ctx 0 ((1024 * 10 + v.e) / (17 - s.keff (s.ctxPart g.ctx)))) ∧
        ∃ h, t.group? c.core c.slot = some h ∧ (∀ n, h.vreg n = if n = o.dst then q.val else g.vreg n) ∧ h.ctrs = g.ctrs ∧ h.queues = g.queues ∧
          h.gsr = g.gsr ||| (if ent.xr then 0x10 else 0) ||| (if ent.mm then 0x20 else 0) ∧
          (h.path c.path).pc = (g.path c.path).pc + BitVec.ofNat 64 (F.inf g).bytes ∧ h.issued = min (2 ^ 32 - 1) (g.issued + 1)
end

