-- ==== Sys2Proof/Laws/Decode.lean ====
section
/-! SUPPORT. Laws of the decoder: a word laid out as R260 stores it is read back, and the bytes after it are left. -/

namespace Sys2Proof

theorem leNat_leBytes (n w : Nat) : leNat (leBytes n w) = w % 256 ^ n := by
  induction n generalizing w with
  | zero => simp [leBytes, leNat, Nat.mod_one]
  | succ n ih =>
    rw [leBytes, leNat, ih, pow_succ', Nat.mod_mul]
    simp

/-- A 32-bit parcel: bit 0 of its word is 1. -/
theorem decodeParcel_word32 {w : Nat} (rest : Bytes) (h : w < 2 ^ 32) (ho : w % 2 = 1) {i : Instr} (hi : decode32 w = some i) :
    decodeParcel (leBytes 4 w ++ rest) = .ok (i, rest) := by
  have h1 : leNat (leBytes 4 w) = w := by rw [leNat_leBytes]; exact Nat.mod_eq_of_lt (by simpa using h)
  have h2 : (BitVec.ofNat 8 w).toNat % 2 ≠ 0 := by rw [BitVec.toNat_ofNat]; omega
  simp only [leBytes, List.cons_append, List.nil_append, decodeParcel, if_neg h2] at h1 ⊢
  rw [h1, hi]

/-- A 16-bit parcel: bit 0 of its word is 0. -/
theorem decodeParcel_word16 {w : Nat} (rest : Bytes) (h : w < 2 ^ 16) (ho : w % 2 = 0) {i : Instr} (hi : decode16 w = some i) :
    decodeParcel (leBytes 2 w ++ rest) = .ok (i, rest) := by
  have h1 : leNat (leBytes 2 w) = w := by rw [leNat_leBytes]; exact Nat.mod_eq_of_lt (by simpa using h)
  have h2 : (BitVec.ofNat 8 w).toNat % 2 = 0 := by rw [BitVec.toNat_ofNat]; omega
  simp only [leBytes, List.cons_append, List.nil_append, decodeParcel, if_pos h2] at h1 ⊢
  rw [h1, hi]

end Sys2Proof
end

