-- ==== Sys2Proof/Laws/Maps.lean ====
section
/-! SUPPORT. Laws of sparse maps: a read after a write, and that every operation keeps the canonical form. -/

namespace Sys2Proof.Machine.SMap

variable {α : Type}

@[simp] theorem find_put_self (m : SMap α) (i : Nat) (x : α) : SMap.find (SMap.put m i x) i = some x := by
  induction m with
  | nil => simp [put, find]
  | cons e m ih => obtain ⟨k, v⟩ := e; simp only [put]; split_ifs <;> simp_all [find]

theorem find_put_other (m : SMap α) {i j : Nat} (x : α) (h : j ≠ i) : SMap.find (SMap.put m i x) j = SMap.find m j := by
  induction m with
  | nil => simp [put, find, h]
  | cons e m ih =>
    obtain ⟨k, v⟩ := e
    simp only [put]
    split_ifs with h1
    · subst h1; simp [find, h]
    · simp [find, h]
    · simp only [find]; rw [ih]

theorem find_put (m : SMap α) (i j : Nat) (x : α) : SMap.find (SMap.put m i x) j = if j = i then some x else SMap.find m j := by
  split_ifs with h
  · rw [h, find_put_self]
  · exact find_put_other m x h

/-- A map reads by its listed entries. -/
theorem get_eq_find (d : α) (m : SMap α) (i : Nat) : SMap.get d m i = (SMap.find m i).getD d := by
  induction m with
  | nil => rfl
  | cons e m ih => obtain ⟨k, v⟩ := e; simp only [get, find]; split_ifs <;> simp_all

theorem get_put (d : α) (m : SMap α) (i j : Nat) (x : α) : SMap.get d (SMap.put m i x) j = if j = i then x else SMap.get d m j := by
  rw [get_eq_find, find_put, get_eq_find]; split_ifs <;> rfl

@[simp] theorem get_put_self (d : α) (m : SMap α) (i : Nat) (x : α) : SMap.get d (SMap.put m i x) i = x := by simp [get_put]

theorem get_put_other (d : α) (m : SMap α) {i j : Nat} (x : α) (h : j ≠ i) : SMap.get d (SMap.put m i x) j = SMap.get d m j := by
  simp [get_put, h]

theorem find_upd (m : SMap α) (i j : Nat) (f : α → α) :
    SMap.find (SMap.upd m i f) j = if j = i then (SMap.find m i).map f else SMap.find m j := by
  induction m with
  | nil => simp [upd, find]
  | cons e m ih =>
    obtain ⟨k, v⟩ := e
    simp only [upd]
    by_cases hk : i = k <;> by_cases hj : j = i <;> simp_all [find]

theorem find_erase (m : SMap α) (i j : Nat) : SMap.find (SMap.erase m i) j = if j = i then none else SMap.find m j := by
  induction m with
  | nil => simp [erase, find]
  | cons e m ih =>
    obtain ⟨k, v⟩ := e
    simp only [erase]
    by_cases hk : i = k <;> by_cases hj : j = i <;> simp_all [find]

theorem get_erase (d : α) (m : SMap α) (i j : Nat) : SMap.get d (SMap.erase m i) j = if j = i then d else SMap.get d m j := by
  rw [get_eq_find, find_erase, get_eq_find]; split_ifs <;> rfl

/-- A read after a write. -/
theorem get_set [DecidableEq α] (d : α) (m : SMap α) (i j : Nat) (x : α) :
    SMap.get d (SMap.set d m i x) j = if j = i then x else SMap.get d m j := by
  unfold set
  by_cases hx : x = d
  · rw [if_pos hx, get_erase, hx]
  · rw [if_neg hx, get_put]

theorem put_put (m : SMap α) (i : Nat) (x y : α) : SMap.put (SMap.put m i x) i y = SMap.put m i y := by
  induction m with
  | nil => simp [put]
  | cons e m ih =>
    obtain ⟨k, v⟩ := e
    simp only [put]
    by_cases h1 : i = k
    · simp [h1, put]
    · by_cases h2 : i < k
      · simp [h1, h2, put]
      · simp [h1, h2, put, ih]

theorem upd_upd (m : SMap α) (i : Nat) (f g : α → α) : SMap.upd (SMap.upd m i f) i g = SMap.upd m i (g ∘ f) := by
  induction m with
  | nil => rfl
  | cons e m ih =>
    obtain ⟨k, v⟩ := e
    simp only [upd]
    by_cases h : i = k
    · simp [h, upd]
    · simp [h, upd, ih]

/-- Two changes that agree on what the key holds are one change. -/
theorem upd_congr {m : SMap α} {i : Nat} {f g : α → α} (h : ∀ x, SMap.find m i = some x → f x = g x) : SMap.upd m i f = SMap.upd m i g := by
  induction m with
  | nil => rfl
  | cons e m ih =>
    obtain ⟨k, v⟩ := e
    simp only [upd]
    by_cases hk : i = k
    · simp only [if_pos hk]; rw [h v (by simp [find, hk])]
    · simp only [if_neg hk]; rw [ih fun x hx => h x (by simp [find, hk, hx])]

/-! ## The canonical form -/

theorem sortedFrom_mono {m : SMap α} {a b : Nat} (hab : a ≤ b) (h : SMap.sortedFrom b m = true) : SMap.sortedFrom a m = true := by
  cases m with
  | nil => rfl
  | cons e m => obtain ⟨k, v⟩ := e; simp_all [sortedFrom]; omega

theorem sortedFrom_put {m : SMap α} {lo i : Nat} (x : α) (hi : lo ≤ i) (h : SMap.sortedFrom lo m = true) :
    SMap.sortedFrom lo (SMap.put m i x) = true := by
  induction m generalizing lo with
  | nil => simp [put, sortedFrom, hi]
  | cons e m ih =>
    obtain ⟨k, v⟩ := e
    simp only [sortedFrom, Bool.and_eq_true, decide_eq_true_eq] at h
    simp only [put]
    split_ifs with h1 h2
    · subst h1; simp [sortedFrom, hi, h.2]
    · simp only [sortedFrom, Bool.and_eq_true, decide_eq_true_eq]; exact ⟨hi, by omega, h.2⟩
    · simp only [sortedFrom, Bool.and_eq_true, decide_eq_true_eq]; exact ⟨h.1, ih (by omega) h.2⟩

theorem sortedFrom_erase {m : SMap α} {lo i : Nat} (h : SMap.sortedFrom lo m = true) : SMap.sortedFrom lo (SMap.erase m i) = true := by
  induction m generalizing lo with
  | nil => rfl
  | cons e m ih =>
    obtain ⟨k, v⟩ := e
    simp only [sortedFrom, Bool.and_eq_true, decide_eq_true_eq] at h
    simp only [erase]
    split_ifs
    · exact sortedFrom_mono (by omega) (ih h.2)
    · simp only [sortedFrom, Bool.and_eq_true, decide_eq_true_eq]; exact ⟨h.1, ih h.2⟩

theorem sortedFrom_upd {m : SMap α} {lo i : Nat} (f : α → α) (h : SMap.sortedFrom lo m = true) :
    SMap.sortedFrom lo (SMap.upd m i f) = true := by
  induction m generalizing lo with
  | nil => rfl
  | cons e m ih =>
    obtain ⟨k, v⟩ := e
    simp only [sortedFrom, Bool.and_eq_true, decide_eq_true_eq] at h
    simp only [upd]
    split_ifs
    · simp [sortedFrom, h]
    · simp only [sortedFrom, Bool.and_eq_true, decide_eq_true_eq]; exact ⟨h.1, ih h.2⟩

theorem all_put [DecidableEq α] {m : SMap α} {i : Nat} {x d : α} (hx : x ≠ d) (h : m.all (fun e => decide (e.2 ≠ d)) = true) :
    (SMap.put m i x).all (fun e => decide (e.2 ≠ d)) = true := by
  induction m with
  | nil => simp [put, hx]
  | cons e m ih =>
    obtain ⟨k, v⟩ := e
    simp only [List.all_cons, Bool.and_eq_true] at h
    simp only [put]
    split_ifs
    · simp only [List.all_cons, Bool.and_eq_true]; exact ⟨by simpa using hx, h.2⟩
    · simp only [List.all_cons, Bool.and_eq_true]; exact ⟨by simpa using hx, h.1, h.2⟩
    · simp only [List.all_cons, Bool.and_eq_true]; exact ⟨h.1, ih h.2⟩

theorem all_erase {p : Nat × α → Bool} {m : SMap α} {i : Nat} (h : m.all p = true) : (SMap.erase m i).all p = true := by
  induction m with
  | nil => rfl
  | cons e m ih =>
    obtain ⟨k, v⟩ := e
    simp only [List.all_cons, Bool.and_eq_true] at h
    simp only [erase]
    split_ifs
    · exact ih h.2
    · simp only [List.all_cons, Bool.and_eq_true]; exact ⟨h.1, ih h.2⟩

/-- A write keeps the canonical form. -/
theorem wf_set [DecidableEq α] {d : α} {m : SMap α} (h : SMap.wf d m = true) (i : Nat) (x : α) : SMap.wf d (SMap.set d m i x) = true := by
  simp only [wf, Bool.and_eq_true] at h ⊢
  unfold set
  split
  · exact ⟨sortedFrom_erase h.1, all_erase h.2⟩
  · rename_i hx; exact ⟨sortedFrom_put x (Nat.zero_le _) h.1, all_put hx h.2⟩

end Sys2Proof.Machine.SMap
end

