-- ==== Sys2Proof/Laws/Regs.lean ====
section
/-! SUPPORT. Laws of the device registers: a field reads as it was written, and a write leaves every other field and
every other register alone. -/

namespace Sys2Proof.Machine

/-- A number taken apart at a field. -/
theorem split_field (x lo n : Nat) :
    x = 2 ^ lo * (2 ^ n * (x >>> lo / 2 ^ n) + x >>> lo % 2 ^ n) + x % 2 ^ lo := by
  rw [Nat.shiftRight_eq_div_pow, Nat.div_add_mod, Nat.div_add_mod]

/-- What `putFld` writes, as parts. -/
theorem putFld_parts (w : W64) (lo n v : Nat) :
    w.toNat - (w.toNat >>> lo % 2 ^ n) * 2 ^ lo + v % 2 ^ n * 2 ^ lo =
      2 ^ lo * (2 ^ n * (w.toNat >>> lo / 2 ^ n) + v % 2 ^ n) + w.toNat % 2 ^ lo := by
  generalize hm : w.toNat >>> lo % 2 ^ n = m
  generalize hh : w.toNat >>> lo / 2 ^ n = h
  have hx := split_field w.toNat lo n
  rw [hm, hh] at hx
  have e : 2 ^ lo * (2 ^ n * h + m) = 2 ^ lo * (2 ^ n * h) + m * 2 ^ lo := by ring
  have e2 : 2 ^ lo * (2 ^ n * h + v % 2 ^ n) = 2 ^ lo * (2 ^ n * h) + v % 2 ^ n * 2 ^ lo := by ring
  rw [e2]; rw [e] at hx
  omega

theorem putFld_lt (w : W64) {lo n : Nat} (v : Nat) (h : lo + n ≤ 64) :
    2 ^ lo * (2 ^ n * (w.toNat >>> lo / 2 ^ n) + v % 2 ^ n) + w.toNat % 2 ^ lo < 2 ^ 64 := by
  have h1 : w.toNat >>> lo / 2 ^ n = w.toNat / 2 ^ (lo + n) := by
    rw [Nat.shiftRight_eq_div_pow, Nat.div_div_eq_div_mul, ← pow_add]
  rw [h1]
  have h2 : w.toNat / 2 ^ (lo + n) < 2 ^ (64 - (lo + n)) := by
    rw [Nat.div_lt_iff_lt_mul (by positivity), ← pow_add]
    have := w.isLt
    rwa [show 64 - (lo + n) + (lo + n) = 64 by omega]
  have h3 : v % 2 ^ n < 2 ^ n := Nat.mod_lt _ (by positivity)
  have h4 : w.toNat % 2 ^ lo < 2 ^ lo := Nat.mod_lt _ (by positivity)
  have h5 : (2:Nat) ^ 64 = 2 ^ lo * (2 ^ n * 2 ^ (64 - (lo + n))) := by rw [← pow_add, ← pow_add]; congr 1; omega
  rw [h5]
  have h6 : 2 ^ n * (w.toNat / 2 ^ (lo + n)) + v % 2 ^ n + 1 ≤ 2 ^ n * 2 ^ (64 - (lo + n)) := by
    calc 2 ^ n * (w.toNat / 2 ^ (lo + n)) + v % 2 ^ n + 1 ≤ 2 ^ n * (w.toNat / 2 ^ (lo + n) + 1) := by rw [mul_add]; omega
      _ ≤ _ := Nat.mul_le_mul_left _ h2
  calc _ < 2 ^ lo * (2 ^ n * (w.toNat / 2 ^ (lo + n)) + v % 2 ^ n) + 2 ^ lo := by omega
    _ = 2 ^ lo * (2 ^ n * (w.toNat / 2 ^ (lo + n)) + v % 2 ^ n + 1) := by ring
    _ ≤ _ := Nat.mul_le_mul_left _ h6

theorem putFld_toNat (w : W64) {lo n : Nat} (v : Nat) (h : lo + n ≤ 64) :
    (putFld w lo n v).toNat = 2 ^ lo * (2 ^ n * (w.toNat >>> lo / 2 ^ n) + v % 2 ^ n) + w.toNat % 2 ^ lo := by
  unfold putFld
  rw [putFld_parts, BitVec.toNat_ofNat, Nat.mod_eq_of_lt (putFld_lt w v h)]

/-- A field reads as it was written. -/
theorem fld_putFld (w : W64) {lo n : Nat} (v : Nat) (h : lo + n ≤ 64) : fld (putFld w lo n v) lo n = v % 2 ^ n := by
  unfold fld
  rw [putFld_toNat w v h, Nat.shiftRight_eq_div_pow, Nat.mul_add_div (by positivity),
    Nat.div_eq_of_lt (Nat.mod_lt _ (by positivity)), Nat.add_zero, Nat.mul_add_mod, Nat.mod_mod]

/-- A field that lies below the written one keeps its value. -/
theorem fld_putFld_below (w : W64) {lo n lo' n' : Nat} (v : Nat) (h : lo + n ≤ 64) (h' : lo' + n' ≤ lo) :
    fld (putFld w lo n v) lo' n' = fld w lo' n' := by
  unfold fld
  rw [putFld_toNat w v h]
  simp only [Nat.shiftRight_eq_div_pow]
  rw [← Nat.mod_mul_right_div_self, ← Nat.mod_mul_right_div_self (m := w.toNat), ← pow_add]
  have e : 2 ^ lo = 2 ^ (lo' + n') * 2 ^ (lo - (lo' + n')) := by rw [← pow_add]; congr 1; omega
  congr 1
  have a : ∀ y, (2 ^ lo * y + w.toNat % 2 ^ lo) % 2 ^ (lo' + n') = w.toNat % 2 ^ (lo' + n') := by
    intro y
    rw [e, mul_assoc, Nat.mul_add_mod, Nat.mod_mod_of_dvd _ (Dvd.intro _ rfl)]
  exact a _

/-- A field that lies above the written one keeps its value. -/
theorem fld_putFld_above (w : W64) {lo n lo' n' : Nat} (v : Nat) (h : lo + n ≤ 64) (h' : lo + n ≤ lo') :
    fld (putFld w lo n v) lo' n' = fld w lo' n' := by
  unfold fld
  rw [putFld_toNat w v h]
  simp only [Nat.shiftRight_eq_div_pow]
  have e : 2 ^ lo' = 2 ^ (lo + n) * 2 ^ (lo' - (lo + n)) := by rw [← pow_add]; congr 1; omega
  rw [e, ← Nat.div_div_eq_div_mul, ← Nat.div_div_eq_div_mul]
  congr 2
  rw [pow_add, ← Nat.div_div_eq_div_mul, ← Nat.div_div_eq_div_mul, Nat.mul_add_div (by positivity),
    Nat.div_eq_of_lt (Nat.mod_lt _ (by positivity)), Nat.add_zero, Nat.mul_add_div (by positivity),
    Nat.div_eq_of_lt (Nat.mod_lt _ (by positivity)), Nat.add_zero]

/-! ## Registers of the state -/

theorem reg_setReg_self (s : State) (r : RegName) (v : W64) : (s.setReg r v).reg r = v := by
  unfold State.setReg State.reg
  split
  · rename_i hv; simp [SMap.find_erase, hv]
  · simp

/-- A write of one register leaves what every other address holds. -/
theorem find_setReg_other (s : State) (r : RegName) (v : W64) {a : Nat} (ha : a ≠ r.addr) :
    SMap.find (s.setReg r v).regs a = SMap.find s.regs a := by
  unfold State.setReg
  split <;> simp [SMap.find_erase, SMap.find_put, ha]

theorem reg_setReg_other (s : State) (r r' : RegName) (v : W64) (ha : r'.addr ≠ r.addr) : (s.setReg r v).reg r' = s.reg r' := by
  unfold State.reg; rw [find_setReg_other s r v ha]

theorem reg_setRfld_other (s : State) (r r' : RegName) (lo n v : Nat) (ha : r'.addr ≠ r.addr) :
    (s.setRfld r lo n v).reg r' = s.reg r' := reg_setReg_other s r r' _ ha

theorem rfld_setRfld_self (s : State) (r : RegName) {lo n : Nat} (v : Nat) (hn : lo + n ≤ 64) :
    (s.setRfld r lo n v).rfld r lo n = v % 2 ^ n := by
  unfold State.rfld State.setRfld; rw [reg_setReg_self, fld_putFld _ _ hn]

theorem rfld_setRfld_other (s : State) (r : RegName) {lo n lo' n' : Nat} (v : Nat) (hn : lo + n ≤ 64)
    (hd : lo' + n' ≤ lo ∨ lo + n ≤ lo') : (s.setRfld r lo n v).rfld r lo' n' = s.rfld r lo' n' := by
  unfold State.rfld State.setRfld
  rw [reg_setReg_self]
  rcases hd with hd | hd
  · exact fld_putFld_below _ _ hn hd
  · exact fld_putFld_above _ _ hn hd

theorem rfld_setRfld_reg (s : State) (r r' : RegName) {lo n lo' n' : Nat} (v : Nat) (ha : r'.addr ≠ r.addr) :
    (s.setRfld r lo n v).rfld r' lo' n' = s.rfld r' lo' n' := by
  unfold State.rfld State.setRfld; rw [reg_setReg_other _ _ _ _ ha]

end Sys2Proof.Machine
end

