-- ==== Sys2Proof/Laws/State.lean ====
section
/-! SUPPORT. What each update of the state leaves as it was: one lemma per field per update. -/

namespace Sys2Proof.Machine

@[simp] theorem State.updCore_regs (s : State) (n : Nat) (f : Core → Core) : (s.updCore n f).regs = s.regs := rfl
@[simp] theorem State.updCore_now (s : State) (n : Nat) (f : Core → Core) : (s.updCore n f).now = s.now := rfl
@[simp] theorem State.updCore_cur (s : State) (n : Nat) (f : Core → Core) : (s.updCore n f).cur = s.cur := rfl
@[simp] theorem State.updCore_turns (s : State) (n : Nat) (f : Core → Core) : (s.updCore n f).turns = s.turns := rfl
@[simp] theorem State.updCore_pkts (s : State) (n : Nat) (f : Core → Core) : (s.updCore n f).pkts = s.pkts := rfl
@[simp] theorem State.updCore_ops (s : State) (n : Nat) (f : Core → Core) : (s.updCore n f).ops = s.ops := rfl
@[simp] theorem State.updCore_msys (s : State) (n : Nat) (f : Core → Core) : (s.updCore n f).msys = s.msys := rfl
@[simp] theorem State.updCore_sched (s : State) (n : Nat) (f : Core → Core) : (s.updCore n f).sched = s.sched := rfl
@[simp] theorem State.updCore_lodra (s : State) (n : Nat) (f : Core → Core) : (s.updCore n f).lodra = s.lodra := rfl
@[simp] theorem State.updCore_srvs (s : State) (n : Nat) (f : Core → Core) : (s.updCore n f).srvs = s.srvs := rfl
@[simp] theorem State.updCore_slew (s : State) (n : Nat) (f : Core → Core) : (s.updCore n f).slew = s.slew := rfl
@[simp] theorem State.updCore_mon (s : State) (n : Nat) (f : Core → Core) : (s.updCore n f).mon = s.mon := rfl
@[simp] theorem State.updCore_boot (s : State) (n : Nat) (f : Core → Core) : (s.updCore n f).boot = s.boot := rfl
@[simp] theorem State.updCore_host (s : State) (n : Nat) (f : Core → Core) : (s.updCore n f).host = s.host := rfl
@[simp] theorem State.updCore_stamp (s : State) (n : Nat) (f : Core → Core) : (s.updCore n f).stamp = s.stamp := rfl
@[simp] theorem State.updCore_free (s : State) (n : Nat) (f : Core → Core) : (s.updCore n f).free = s.free := rfl

@[simp] theorem State.updGroup_regs (s : State) (c sl : Nat) (f : Group → Group) : (s.updGroup c sl f).regs = s.regs := rfl
@[simp] theorem State.updGroup_now (s : State) (c sl : Nat) (f : Group → Group) : (s.updGroup c sl f).now = s.now := rfl
@[simp] theorem State.updGroup_cur (s : State) (c sl : Nat) (f : Group → Group) : (s.updGroup c sl f).cur = s.cur := rfl
@[simp] theorem State.updGroup_turns (s : State) (c sl : Nat) (f : Group → Group) : (s.updGroup c sl f).turns = s.turns := rfl
@[simp] theorem State.updGroup_pkts (s : State) (c sl : Nat) (f : Group → Group) : (s.updGroup c sl f).pkts = s.pkts := rfl
@[simp] theorem State.updGroup_ops (s : State) (c sl : Nat) (f : Group → Group) : (s.updGroup c sl f).ops = s.ops := rfl
@[simp] theorem State.updGroup_msys (s : State) (c sl : Nat) (f : Group → Group) : (s.updGroup c sl f).msys = s.msys := rfl
@[simp] theorem State.updGroup_sched (s : State) (c sl : Nat) (f : Group → Group) : (s.updGroup c sl f).sched = s.sched := rfl
@[simp] theorem State.updGroup_lodra (s : State) (c sl : Nat) (f : Group → Group) : (s.updGroup c sl f).lodra = s.lodra := rfl
@[simp] theorem State.updGroup_srvs (s : State) (c sl : Nat) (f : Group → Group) : (s.updGroup c sl f).srvs = s.srvs := rfl
@[simp] theorem State.updGroup_slew (s : State) (c sl : Nat) (f : Group → Group) : (s.updGroup c sl f).slew = s.slew := rfl
@[simp] theorem State.updGroup_mon (s : State) (c sl : Nat) (f : Group → Group) : (s.updGroup c sl f).mon = s.mon := rfl
@[simp] theorem State.updGroup_boot (s : State) (c sl : Nat) (f : Group → Group) : (s.updGroup c sl f).boot = s.boot := rfl
@[simp] theorem State.updGroup_host (s : State) (c sl : Nat) (f : Group → Group) : (s.updGroup c sl f).host = s.host := rfl
@[simp] theorem State.updGroup_stamp (s : State) (c sl : Nat) (f : Group → Group) : (s.updGroup c sl f).stamp = s.stamp := rfl
@[simp] theorem State.updGroup_free (s : State) (c sl : Nat) (f : Group → Group) : (s.updGroup c sl f).free = s.free := rfl

@[simp] theorem State.updPath_regs (s : State) (c sl i : Nat) (f : Path → Path) : (s.updPath c sl i f).regs = s.regs := rfl
@[simp] theorem State.updPath_now (s : State) (c sl i : Nat) (f : Path → Path) : (s.updPath c sl i f).now = s.now := rfl
@[simp] theorem State.updPath_cur (s : State) (c sl i : Nat) (f : Path → Path) : (s.updPath c sl i f).cur = s.cur := rfl
@[simp] theorem State.updPath_turns (s : State) (c sl i : Nat) (f : Path → Path) : (s.updPath c sl i f).turns = s.turns := rfl
@[simp] theorem State.updPath_pkts (s : State) (c sl i : Nat) (f : Path → Path) : (s.updPath c sl i f).pkts = s.pkts := rfl
@[simp] theorem State.updPath_ops (s : State) (c sl i : Nat) (f : Path → Path) : (s.updPath c sl i f).ops = s.ops := rfl
@[simp] theorem State.updPath_msys (s : State) (c sl i : Nat) (f : Path → Path) : (s.updPath c sl i f).msys = s.msys := rfl
@[simp] theorem State.updPath_sched (s : State) (c sl i : Nat) (f : Path → Path) : (s.updPath c sl i f).sched = s.sched := rfl
@[simp] theorem State.updPath_lodra (s : State) (c sl i : Nat) (f : Path → Path) : (s.updPath c sl i f).lodra = s.lodra := rfl
@[simp] theorem State.updPath_srvs (s : State) (c sl i : Nat) (f : Path → Path) : (s.updPath c sl i f).srvs = s.srvs := rfl
@[simp] theorem State.updPath_slew (s : State) (c sl i : Nat) (f : Path → Path) : (s.updPath c sl i f).slew = s.slew := rfl
@[simp] theorem State.updPath_mon (s : State) (c sl i : Nat) (f : Path → Path) : (s.updPath c sl i f).mon = s.mon := rfl
@[simp] theorem State.updPath_boot (s : State) (c sl i : Nat) (f : Path → Path) : (s.updPath c sl i f).boot = s.boot := rfl
@[simp] theorem State.updPath_host (s : State) (c sl i : Nat) (f : Path → Path) : (s.updPath c sl i f).host = s.host := rfl
@[simp] theorem State.updPath_stamp (s : State) (c sl i : Nat) (f : Path → Path) : (s.updPath c sl i f).stamp = s.stamp := rfl
@[simp] theorem State.updPath_free (s : State) (c sl i : Nat) (f : Path → Path) : (s.updPath c sl i f).free = s.free := rfl

@[simp] theorem State.updGrid_regs (s : State) (n : Nat) (f : Grid → Grid) : (s.updGrid n f).regs = s.regs := rfl
@[simp] theorem State.updGrid_now (s : State) (n : Nat) (f : Grid → Grid) : (s.updGrid n f).now = s.now := rfl
@[simp] theorem State.updGrid_cur (s : State) (n : Nat) (f : Grid → Grid) : (s.updGrid n f).cur = s.cur := rfl
@[simp] theorem State.updGrid_turns (s : State) (n : Nat) (f : Grid → Grid) : (s.updGrid n f).turns = s.turns := rfl
@[simp] theorem State.updGrid_cores (s : State) (n : Nat) (f : Grid → Grid) : (s.updGrid n f).cores = s.cores := rfl
@[simp] theorem State.updGrid_pkts (s : State) (n : Nat) (f : Grid → Grid) : (s.updGrid n f).pkts = s.pkts := rfl
@[simp] theorem State.updGrid_ops (s : State) (n : Nat) (f : Grid → Grid) : (s.updGrid n f).ops = s.ops := rfl
@[simp] theorem State.updGrid_msys (s : State) (n : Nat) (f : Grid → Grid) : (s.updGrid n f).msys = s.msys := rfl
@[simp] theorem State.updGrid_lodra (s : State) (n : Nat) (f : Grid → Grid) : (s.updGrid n f).lodra = s.lodra := rfl
@[simp] theorem State.updGrid_srvs (s : State) (n : Nat) (f : Grid → Grid) : (s.updGrid n f).srvs = s.srvs := rfl
@[simp] theorem State.updGrid_slew (s : State) (n : Nat) (f : Grid → Grid) : (s.updGrid n f).slew = s.slew := rfl
@[simp] theorem State.updGrid_mon (s : State) (n : Nat) (f : Grid → Grid) : (s.updGrid n f).mon = s.mon := rfl
@[simp] theorem State.updGrid_boot (s : State) (n : Nat) (f : Grid → Grid) : (s.updGrid n f).boot = s.boot := rfl
@[simp] theorem State.updGrid_host (s : State) (n : Nat) (f : Grid → Grid) : (s.updGrid n f).host = s.host := rfl
@[simp] theorem State.updGrid_stamp (s : State) (n : Nat) (f : Grid → Grid) : (s.updGrid n f).stamp = s.stamp := rfl
@[simp] theorem State.updGrid_free (s : State) (n : Nat) (f : Grid → Grid) : (s.updGrid n f).free = s.free := rfl

@[simp] theorem State.updTeam_regs (s : State) (n : Nat) (f : Team → Team) : (s.updTeam n f).regs = s.regs := rfl
@[simp] theorem State.updTeam_now (s : State) (n : Nat) (f : Team → Team) : (s.updTeam n f).now = s.now := rfl
@[simp] theorem State.updTeam_cur (s : State) (n : Nat) (f : Team → Team) : (s.updTeam n f).cur = s.cur := rfl
@[simp] theorem State.updTeam_turns (s : State) (n : Nat) (f : Team → Team) : (s.updTeam n f).turns = s.turns := rfl
@[simp] theorem State.updTeam_cores (s : State) (n : Nat) (f : Team → Team) : (s.updTeam n f).cores = s.cores := rfl
@[simp] theorem State.updTeam_pkts (s : State) (n : Nat) (f : Team → Team) : (s.updTeam n f).pkts = s.pkts := rfl
@[simp] theorem State.updTeam_ops (s : State) (n : Nat) (f : Team → Team) : (s.updTeam n f).ops = s.ops := rfl
@[simp] theorem State.updTeam_msys (s : State) (n : Nat) (f : Team → Team) : (s.updTeam n f).msys = s.msys := rfl
@[simp] theorem State.updTeam_lodra (s : State) (n : Nat) (f : Team → Team) : (s.updTeam n f).lodra = s.lodra := rfl
@[simp] theorem State.updTeam_srvs (s : State) (n : Nat) (f : Team → Team) : (s.updTeam n f).srvs = s.srvs := rfl
@[simp] theorem State.updTeam_slew (s : State) (n : Nat) (f : Team → Team) : (s.updTeam n f).slew = s.slew := rfl
@[simp] theorem State.updTeam_mon (s : State) (n : Nat) (f : Team → Team) : (s.updTeam n f).mon = s.mon := rfl
@[simp] theorem State.updTeam_boot (s : State) (n : Nat) (f : Team → Team) : (s.updTeam n f).boot = s.boot := rfl
@[simp] theorem State.updTeam_host (s : State) (n : Nat) (f : Team → Team) : (s.updTeam n f).host = s.host := rfl
@[simp] theorem State.updTeam_stamp (s : State) (n : Nat) (f : Team → Team) : (s.updTeam n f).stamp = s.stamp := rfl
@[simp] theorem State.updTeam_free (s : State) (n : Nat) (f : Team → Team) : (s.updTeam n f).free = s.free := rfl

@[simp] theorem State.updMem_regs (s : State) (f : MemSys → MemSys) : (s.updMem f).regs = s.regs := rfl
@[simp] theorem State.updMem_now (s : State) (f : MemSys → MemSys) : (s.updMem f).now = s.now := rfl
@[simp] theorem State.updMem_cur (s : State) (f : MemSys → MemSys) : (s.updMem f).cur = s.cur := rfl
@[simp] theorem State.updMem_turns (s : State) (f : MemSys → MemSys) : (s.updMem f).turns = s.turns := rfl
@[simp] theorem State.updMem_cores (s : State) (f : MemSys → MemSys) : (s.updMem f).cores = s.cores := rfl
@[simp] theorem State.updMem_pkts (s : State) (f : MemSys → MemSys) : (s.updMem f).pkts = s.pkts := rfl
@[simp] theorem State.updMem_ops (s : State) (f : MemSys → MemSys) : (s.updMem f).ops = s.ops := rfl
@[simp] theorem State.updMem_sched (s : State) (f : MemSys → MemSys) : (s.updMem f).sched = s.sched := rfl
@[simp] theorem State.updMem_lodra (s : State) (f : MemSys → MemSys) : (s.updMem f).lodra = s.lodra := rfl
@[simp] theorem State.updMem_srvs (s : State) (f : MemSys → MemSys) : (s.updMem f).srvs = s.srvs := rfl
@[simp] theorem State.updMem_slew (s : State) (f : MemSys → MemSys) : (s.updMem f).slew = s.slew := rfl
@[simp] theorem State.updMem_mon (s : State) (f : MemSys → MemSys) : (s.updMem f).mon = s.mon := rfl
@[simp] theorem State.updMem_boot (s : State) (f : MemSys → MemSys) : (s.updMem f).boot = s.boot := rfl
@[simp] theorem State.updMem_host (s : State) (f : MemSys → MemSys) : (s.updMem f).host = s.host := rfl
@[simp] theorem State.updMem_stamp (s : State) (f : MemSys → MemSys) : (s.updMem f).stamp = s.stamp := rfl
@[simp] theorem State.updMem_free (s : State) (f : MemSys → MemSys) : (s.updMem f).free = s.free := rfl

@[simp] theorem State.updLease_regs (s : State) (c n : Nat) (f : Lease → Lease) : (s.updLease c n f).regs = s.regs := rfl
@[simp] theorem State.updLease_now (s : State) (c n : Nat) (f : Lease → Lease) : (s.updLease c n f).now = s.now := rfl
@[simp] theorem State.updLease_cur (s : State) (c n : Nat) (f : Lease → Lease) : (s.updLease c n f).cur = s.cur := rfl
@[simp] theorem State.updLease_turns (s : State) (c n : Nat) (f : Lease → Lease) : (s.updLease c n f).turns = s.turns := rfl
@[simp] theorem State.updLease_cores (s : State) (c n : Nat) (f : Lease → Lease) : (s.updLease c n f).cores = s.cores := rfl
@[simp] theorem State.updLease_pkts (s : State) (c n : Nat) (f : Lease → Lease) : (s.updLease c n f).pkts = s.pkts := rfl
@[simp] theorem State.updLease_ops (s : State) (c n : Nat) (f : Lease → Lease) : (s.updLease c n f).ops = s.ops := rfl
@[simp] theorem State.updLease_sched (s : State) (c n : Nat) (f : Lease → Lease) : (s.updLease c n f).sched = s.sched := rfl
@[simp] theorem State.updLease_lodra (s : State) (c n : Nat) (f : Lease → Lease) : (s.updLease c n f).lodra = s.lodra := rfl
@[simp] theorem State.updLease_srvs (s : State) (c n : Nat) (f : Lease → Lease) : (s.updLease c n f).srvs = s.srvs := rfl
@[simp] theorem State.updLease_slew (s : State) (c n : Nat) (f : Lease → Lease) : (s.updLease c n f).slew = s.slew := rfl
@[simp] theorem State.updLease_mon (s : State) (c n : Nat) (f : Lease → Lease) : (s.updLease c n f).mon = s.mon := rfl
@[simp] theorem State.updLease_boot (s : State) (c n : Nat) (f : Lease → Lease) : (s.updLease c n f).boot = s.boot := rfl
@[simp] theorem State.updLease_host (s : State) (c n : Nat) (f : Lease → Lease) : (s.updLease c n f).host = s.host := rfl
@[simp] theorem State.updLease_stamp (s : State) (c n : Nat) (f : Lease → Lease) : (s.updLease c n f).stamp = s.stamp := rfl
@[simp] theorem State.updLease_free (s : State) (c n : Nat) (f : Lease → Lease) : (s.updLease c n f).free = s.free := rfl

@[simp] theorem State.bump_regs (s : State) : (s.bump ).regs = s.regs := rfl
@[simp] theorem State.bump_now (s : State) : (s.bump ).now = s.now := rfl
@[simp] theorem State.bump_cur (s : State) : (s.bump ).cur = s.cur := rfl
@[simp] theorem State.bump_turns (s : State) : (s.bump ).turns = s.turns := rfl
@[simp] theorem State.bump_cores (s : State) : (s.bump ).cores = s.cores := rfl
@[simp] theorem State.bump_pkts (s : State) : (s.bump ).pkts = s.pkts := rfl
@[simp] theorem State.bump_ops (s : State) : (s.bump ).ops = s.ops := rfl
@[simp] theorem State.bump_msys (s : State) : (s.bump ).msys = s.msys := rfl
@[simp] theorem State.bump_sched (s : State) : (s.bump ).sched = s.sched := rfl
@[simp] theorem State.bump_lodra (s : State) : (s.bump ).lodra = s.lodra := rfl
@[simp] theorem State.bump_srvs (s : State) : (s.bump ).srvs = s.srvs := rfl
@[simp] theorem State.bump_slew (s : State) : (s.bump ).slew = s.slew := rfl
@[simp] theorem State.bump_mon (s : State) : (s.bump ).mon = s.mon := rfl
@[simp] theorem State.bump_boot (s : State) : (s.bump ).boot = s.boot := rfl
@[simp] theorem State.bump_host (s : State) : (s.bump ).host = s.host := rfl
@[simp] theorem State.bump_free (s : State) : (s.bump ).free = s.free := rfl

@[simp] theorem State.chose_regs (s : State) : (s.chose ).regs = s.regs := rfl
@[simp] theorem State.chose_now (s : State) : (s.chose ).now = s.now := rfl
@[simp] theorem State.chose_cur (s : State) : (s.chose ).cur = s.cur := rfl
@[simp] theorem State.chose_turns (s : State) : (s.chose ).turns = s.turns := rfl
@[simp] theorem State.chose_cores (s : State) : (s.chose ).cores = s.cores := rfl
@[simp] theorem State.chose_pkts (s : State) : (s.chose ).pkts = s.pkts := rfl
@[simp] theorem State.chose_ops (s : State) : (s.chose ).ops = s.ops := rfl
@[simp] theorem State.chose_msys (s : State) : (s.chose ).msys = s.msys := rfl
@[simp] theorem State.chose_sched (s : State) : (s.chose ).sched = s.sched := rfl
@[simp] theorem State.chose_lodra (s : State) : (s.chose ).lodra = s.lodra := rfl
@[simp] theorem State.chose_srvs (s : State) : (s.chose ).srvs = s.srvs := rfl
@[simp] theorem State.chose_slew (s : State) : (s.chose ).slew = s.slew := rfl
@[simp] theorem State.chose_mon (s : State) : (s.chose ).mon = s.mon := rfl
@[simp] theorem State.chose_boot (s : State) : (s.chose ).boot = s.boot := rfl
@[simp] theorem State.chose_host (s : State) : (s.chose ).host = s.host := rfl
@[simp] theorem State.chose_stamp (s : State) : (s.chose ).stamp = s.stamp := rfl

@[simp] theorem State.push_regs (s : State) (is : List Instr) : (s.push is).regs = s.regs := rfl
@[simp] theorem State.push_now (s : State) (is : List Instr) : (s.push is).now = s.now := rfl
@[simp] theorem State.push_cur (s : State) (is : List Instr) : (s.push is).cur = s.cur := rfl
@[simp] theorem State.push_cores (s : State) (is : List Instr) : (s.push is).cores = s.cores := rfl
@[simp] theorem State.push_pkts (s : State) (is : List Instr) : (s.push is).pkts = s.pkts := rfl
@[simp] theorem State.push_ops (s : State) (is : List Instr) : (s.push is).ops = s.ops := rfl
@[simp] theorem State.push_msys (s : State) (is : List Instr) : (s.push is).msys = s.msys := rfl
@[simp] theorem State.push_sched (s : State) (is : List Instr) : (s.push is).sched = s.sched := rfl
@[simp] theorem State.push_lodra (s : State) (is : List Instr) : (s.push is).lodra = s.lodra := rfl
@[simp] theorem State.push_srvs (s : State) (is : List Instr) : (s.push is).srvs = s.srvs := rfl
@[simp] theorem State.push_slew (s : State) (is : List Instr) : (s.push is).slew = s.slew := rfl
@[simp] theorem State.push_mon (s : State) (is : List Instr) : (s.push is).mon = s.mon := rfl
@[simp] theorem State.push_boot (s : State) (is : List Instr) : (s.push is).boot = s.boot := rfl
@[simp] theorem State.push_host (s : State) (is : List Instr) : (s.push is).host = s.host := rfl
@[simp] theorem State.push_stamp (s : State) (is : List Instr) : (s.push is).stamp = s.stamp := rfl
@[simp] theorem State.push_free (s : State) (is : List Instr) : (s.push is).free = s.free := rfl

@[simp] theorem State.setReg_now (s : State) (r : RegName) (v : W64) : (s.setReg r v).now = s.now := by unfold State.setReg; split <;> rfl
@[simp] theorem State.setReg_cur (s : State) (r : RegName) (v : W64) : (s.setReg r v).cur = s.cur := by unfold State.setReg; split <;> rfl
@[simp] theorem State.setReg_turns (s : State) (r : RegName) (v : W64) : (s.setReg r v).turns = s.turns := by unfold State.setReg; split <;> rfl
@[simp] theorem State.setReg_cores (s : State) (r : RegName) (v : W64) : (s.setReg r v).cores = s.cores := by unfold State.setReg; split <;> rfl
@[simp] theorem State.setReg_pkts (s : State) (r : RegName) (v : W64) : (s.setReg r v).pkts = s.pkts := by unfold State.setReg; split <;> rfl
@[simp] theorem State.setReg_ops (s : State) (r : RegName) (v : W64) : (s.setReg r v).ops = s.ops := by unfold State.setReg; split <;> rfl
@[simp] theorem State.setReg_msys (s : State) (r : RegName) (v : W64) : (s.setReg r v).msys = s.msys := by unfold State.setReg; split <;> rfl
@[simp] theorem State.setReg_sched (s : State) (r : RegName) (v : W64) : (s.setReg r v).sched = s.sched := by unfold State.setReg; split <;> rfl
@[simp] theorem State.setReg_lodra (s : State) (r : RegName) (v : W64) : (s.setReg r v).lodra = s.lodra := by unfold State.setReg; split <;> rfl
@[simp] theorem State.setReg_srvs (s : State) (r : RegName) (v : W64) : (s.setReg r v).srvs = s.srvs := by unfold State.setReg; split <;> rfl
@[simp] theorem State.setReg_slew (s : State) (r : RegName) (v : W64) : (s.setReg r v).slew = s.slew := by unfold State.setReg; split <;> rfl
@[simp] theorem State.setReg_mon (s : State) (r : RegName) (v : W64) : (s.setReg r v).mon = s.mon := by unfold State.setReg; split <;> rfl
@[simp] theorem State.setReg_boot (s : State) (r : RegName) (v : W64) : (s.setReg r v).boot = s.boot := by unfold State.setReg; split <;> rfl
@[simp] theorem State.setReg_host (s : State) (r : RegName) (v : W64) : (s.setReg r v).host = s.host := by unfold State.setReg; split <;> rfl
@[simp] theorem State.setReg_stamp (s : State) (r : RegName) (v : W64) : (s.setReg r v).stamp = s.stamp := by unfold State.setReg; split <;> rfl
@[simp] theorem State.setReg_free (s : State) (r : RegName) (v : W64) : (s.setReg r v).free = s.free := by unfold State.setReg; split <;> rfl

@[simp] theorem State.setRfld_now (s : State) (r : RegName) (lo n v : Nat) : (s.setRfld r lo n v).now = s.now := State.setReg_now _ _ _
@[simp] theorem State.setRfld_cur (s : State) (r : RegName) (lo n v : Nat) : (s.setRfld r lo n v).cur = s.cur := State.setReg_cur _ _ _
@[simp] theorem State.setRfld_turns (s : State) (r : RegName) (lo n v : Nat) : (s.setRfld r lo n v).turns = s.turns := State.setReg_turns _ _ _
@[simp] theorem State.setRfld_cores (s : State) (r : RegName) (lo n v : Nat) : (s.setRfld r lo n v).cores = s.cores := State.setReg_cores _ _ _
@[simp] theorem State.setRfld_pkts (s : State) (r : RegName) (lo n v : Nat) : (s.setRfld r lo n v).pkts = s.pkts := State.setReg_pkts _ _ _
@[simp] theorem State.setRfld_ops (s : State) (r : RegName) (lo n v : Nat) : (s.setRfld r lo n v).ops = s.ops := State.setReg_ops _ _ _
@[simp] theorem State.setRfld_msys (s : State) (r : RegName) (lo n v : Nat) : (s.setRfld r lo n v).msys = s.msys := State.setReg_msys _ _ _
@[simp] theorem State.setRfld_sched (s : State) (r : RegName) (lo n v : Nat) : (s.setRfld r lo n v).sched = s.sched := State.setReg_sched _ _ _
@[simp] theorem State.setRfld_lodra (s : State) (r : RegName) (lo n v : Nat) : (s.setRfld r lo n v).lodra = s.lodra := State.setReg_lodra _ _ _
@[simp] theorem State.setRfld_srvs (s : State) (r : RegName) (lo n v : Nat) : (s.setRfld r lo n v).srvs = s.srvs := State.setReg_srvs _ _ _
@[simp] theorem State.setRfld_slew (s : State) (r : RegName) (lo n v : Nat) : (s.setRfld r lo n v).slew = s.slew := State.setReg_slew _ _ _
@[simp] theorem State.setRfld_mon (s : State) (r : RegName) (lo n v : Nat) : (s.setRfld r lo n v).mon = s.mon := State.setReg_mon _ _ _
@[simp] theorem State.setRfld_boot (s : State) (r : RegName) (lo n v : Nat) : (s.setRfld r lo n v).boot = s.boot := State.setReg_boot _ _ _
@[simp] theorem State.setRfld_host (s : State) (r : RegName) (lo n v : Nat) : (s.setRfld r lo n v).host = s.host := State.setReg_host _ _ _
@[simp] theorem State.setRfld_stamp (s : State) (r : RegName) (lo n v : Nat) : (s.setRfld r lo n v).stamp = s.stamp := State.setReg_stamp _ _ _
@[simp] theorem State.setRfld_free (s : State) (r : RegName) (lo n v : Nat) : (s.setRfld r lo n v).free = s.free := State.setReg_free _ _ _

@[simp] theorem State.satFld_now (s : State) (r : RegName) (lo n k : Nat) : (s.satFld r lo n k).now = s.now := State.setReg_now _ _ _
@[simp] theorem State.satFld_cur (s : State) (r : RegName) (lo n k : Nat) : (s.satFld r lo n k).cur = s.cur := State.setReg_cur _ _ _
@[simp] theorem State.satFld_turns (s : State) (r : RegName) (lo n k : Nat) : (s.satFld r lo n k).turns = s.turns := State.setReg_turns _ _ _
@[simp] theorem State.satFld_cores (s : State) (r : RegName) (lo n k : Nat) : (s.satFld r lo n k).cores = s.cores := State.setReg_cores _ _ _
@[simp] theorem State.satFld_pkts (s : State) (r : RegName) (lo n k : Nat) : (s.satFld r lo n k).pkts = s.pkts := State.setReg_pkts _ _ _
@[simp] theorem State.satFld_ops (s : State) (r : RegName) (lo n k : Nat) : (s.satFld r lo n k).ops = s.ops := State.setReg_ops _ _ _
@[simp] theorem State.satFld_msys (s : State) (r : RegName) (lo n k : Nat) : (s.satFld r lo n k).msys = s.msys := State.setReg_msys _ _ _
@[simp] theorem State.satFld_sched (s : State) (r : RegName) (lo n k : Nat) : (s.satFld r lo n k).sched = s.sched := State.setReg_sched _ _ _
@[simp] theorem State.satFld_lodra (s : State) (r : RegName) (lo n k : Nat) : (s.satFld r lo n k).lodra = s.lodra := State.setReg_lodra _ _ _
@[simp] theorem State.satFld_srvs (s : State) (r : RegName) (lo n k : Nat) : (s.satFld r lo n k).srvs = s.srvs := State.setReg_srvs _ _ _
@[simp] theorem State.satFld_slew (s : State) (r : RegName) (lo n k : Nat) : (s.satFld r lo n k).slew = s.slew := State.setReg_slew _ _ _
@[simp] theorem State.satFld_mon (s : State) (r : RegName) (lo n k : Nat) : (s.satFld r lo n k).mon = s.mon := State.setReg_mon _ _ _
@[simp] theorem State.satFld_boot (s : State) (r : RegName) (lo n k : Nat) : (s.satFld r lo n k).boot = s.boot := State.setReg_boot _ _ _
@[simp] theorem State.satFld_host (s : State) (r : RegName) (lo n k : Nat) : (s.satFld r lo n k).host = s.host := State.setReg_host _ _ _
@[simp] theorem State.satFld_stamp (s : State) (r : RegName) (lo n k : Nat) : (s.satFld r lo n k).stamp = s.stamp := State.setReg_stamp _ _ _
@[simp] theorem State.satFld_free (s : State) (r : RegName) (lo n k : Nat) : (s.satFld r lo n k).free = s.free := State.setReg_free _ _ _

@[simp] theorem State.meter_now (s : State) (c m x : Nat) : (s.meter c m x).now = s.now := State.setReg_now _ _ _
@[simp] theorem State.meter_cur (s : State) (c m x : Nat) : (s.meter c m x).cur = s.cur := State.setReg_cur _ _ _
@[simp] theorem State.meter_turns (s : State) (c m x : Nat) : (s.meter c m x).turns = s.turns := State.setReg_turns _ _ _
@[simp] theorem State.meter_cores (s : State) (c m x : Nat) : (s.meter c m x).cores = s.cores := State.setReg_cores _ _ _
@[simp] theorem State.meter_pkts (s : State) (c m x : Nat) : (s.meter c m x).pkts = s.pkts := State.setReg_pkts _ _ _
@[simp] theorem State.meter_ops (s : State) (c m x : Nat) : (s.meter c m x).ops = s.ops := State.setReg_ops _ _ _
@[simp] theorem State.meter_msys (s : State) (c m x : Nat) : (s.meter c m x).msys = s.msys := State.setReg_msys _ _ _
@[simp] theorem State.meter_sched (s : State) (c m x : Nat) : (s.meter c m x).sched = s.sched := State.setReg_sched _ _ _
@[simp] theorem State.meter_lodra (s : State) (c m x : Nat) : (s.meter c m x).lodra = s.lodra := State.setReg_lodra _ _ _
@[simp] theorem State.meter_srvs (s : State) (c m x : Nat) : (s.meter c m x).srvs = s.srvs := State.setReg_srvs _ _ _
@[simp] theorem State.meter_slew (s : State) (c m x : Nat) : (s.meter c m x).slew = s.slew := State.setReg_slew _ _ _
@[simp] theorem State.meter_mon (s : State) (c m x : Nat) : (s.meter c m x).mon = s.mon := State.setReg_mon _ _ _
@[simp] theorem State.meter_boot (s : State) (c m x : Nat) : (s.meter c m x).boot = s.boot := State.setReg_boot _ _ _
@[simp] theorem State.meter_host (s : State) (c m x : Nat) : (s.meter c m x).host = s.host := State.setReg_host _ _ _
@[simp] theorem State.meter_stamp (s : State) (c m x : Nat) : (s.meter c m x).stamp = s.stamp := State.setReg_stamp _ _ _
@[simp] theorem State.meter_free (s : State) (c m x : Nat) : (s.meter c m x).free = s.free := State.setReg_free _ _ _

@[simp] theorem State.putSrv_regs (s : State) (v : Srv) : (s.putSrv v).regs = s.regs := by unfold State.putSrv; split <;> rfl
@[simp] theorem State.putSrv_now (s : State) (v : Srv) : (s.putSrv v).now = s.now := by unfold State.putSrv; split <;> rfl
@[simp] theorem State.putSrv_cur (s : State) (v : Srv) : (s.putSrv v).cur = s.cur := by unfold State.putSrv; split <;> rfl
@[simp] theorem State.putSrv_turns (s : State) (v : Srv) : (s.putSrv v).turns = s.turns := by unfold State.putSrv; split <;> rfl
@[simp] theorem State.putSrv_cores (s : State) (v : Srv) : (s.putSrv v).cores = s.cores := by unfold State.putSrv; split <;> rfl
@[simp] theorem State.putSrv_pkts (s : State) (v : Srv) : (s.putSrv v).pkts = s.pkts := by unfold State.putSrv; split <;> rfl
@[simp] theorem State.putSrv_ops (s : State) (v : Srv) : (s.putSrv v).ops = s.ops := by unfold State.putSrv; split <;> rfl
@[simp] theorem State.putSrv_msys (s : State) (v : Srv) : (s.putSrv v).msys = s.msys := by unfold State.putSrv; split <;> rfl
@[simp] theorem State.putSrv_sched (s : State) (v : Srv) : (s.putSrv v).sched = s.sched := by unfold State.putSrv; split <;> rfl
@[simp] theorem State.putSrv_lodra (s : State) (v : Srv) : (s.putSrv v).lodra = s.lodra := by unfold State.putSrv; split <;> rfl
@[simp] theorem State.putSrv_slew (s : State) (v : Srv) : (s.putSrv v).slew = s.slew := by unfold State.putSrv; split <;> rfl
@[simp] theorem State.putSrv_mon (s : State) (v : Srv) : (s.putSrv v).mon = s.mon := by unfold State.putSrv; split <;> rfl
@[simp] theorem State.putSrv_boot (s : State) (v : Srv) : (s.putSrv v).boot = s.boot := by unfold State.putSrv; split <;> rfl
@[simp] theorem State.putSrv_host (s : State) (v : Srv) : (s.putSrv v).host = s.host := by unfold State.putSrv; split <;> rfl
@[simp] theorem State.putSrv_stamp (s : State) (v : Srv) : (s.putSrv v).stamp = s.stamp := by unfold State.putSrv; split <;> rfl
@[simp] theorem State.putSrv_free (s : State) (v : Srv) : (s.putSrv v).free = s.free := by unfold State.putSrv; split <;> rfl

@[simp] theorem State.chargeSrv_now (s : State) (v : Srv) (a b n : Nat) : (s.chargeSrv v a b n).now = s.now := by simp [State.chargeSrv]
@[simp] theorem State.chargeSrv_cur (s : State) (v : Srv) (a b n : Nat) : (s.chargeSrv v a b n).cur = s.cur := by simp [State.chargeSrv]
@[simp] theorem State.chargeSrv_turns (s : State) (v : Srv) (a b n : Nat) : (s.chargeSrv v a b n).turns = s.turns := by simp [State.chargeSrv]
@[simp] theorem State.chargeSrv_cores (s : State) (v : Srv) (a b n : Nat) : (s.chargeSrv v a b n).cores = s.cores := by simp [State.chargeSrv]
@[simp] theorem State.chargeSrv_pkts (s : State) (v : Srv) (a b n : Nat) : (s.chargeSrv v a b n).pkts = s.pkts := by simp [State.chargeSrv]
@[simp] theorem State.chargeSrv_ops (s : State) (v : Srv) (a b n : Nat) : (s.chargeSrv v a b n).ops = s.ops := by simp [State.chargeSrv]
@[simp] theorem State.chargeSrv_msys (s : State) (v : Srv) (a b n : Nat) : (s.chargeSrv v a b n).msys = s.msys := by simp [State.chargeSrv]
@[simp] theorem State.chargeSrv_sched (s : State) (v : Srv) (a b n : Nat) : (s.chargeSrv v a b n).sched = s.sched := by simp [State.chargeSrv]
@[simp] theorem State.chargeSrv_lodra (s : State) (v : Srv) (a b n : Nat) : (s.chargeSrv v a b n).lodra = s.lodra := by simp [State.chargeSrv]
@[simp] theorem State.chargeSrv_slew (s : State) (v : Srv) (a b n : Nat) : (s.chargeSrv v a b n).slew = s.slew := by simp [State.chargeSrv]
@[simp] theorem State.chargeSrv_mon (s : State) (v : Srv) (a b n : Nat) : (s.chargeSrv v a b n).mon = s.mon := by simp [State.chargeSrv]
@[simp] theorem State.chargeSrv_boot (s : State) (v : Srv) (a b n : Nat) : (s.chargeSrv v a b n).boot = s.boot := by simp [State.chargeSrv]
@[simp] theorem State.chargeSrv_host (s : State) (v : Srv) (a b n : Nat) : (s.chargeSrv v a b n).host = s.host := by simp [State.chargeSrv]
@[simp] theorem State.chargeSrv_stamp (s : State) (v : Srv) (a b n : Nat) : (s.chargeSrv v a b n).stamp = s.stamp := by simp [State.chargeSrv]
@[simp] theorem State.chargeSrv_free (s : State) (v : Srv) (a b n : Nat) : (s.chargeSrv v a b n).free = s.free := by simp [State.chargeSrv]

@[simp] theorem State.own_regs (s : State) (c x e k : Nat) : (s.own c x e k).regs = s.regs := rfl
@[simp] theorem State.own_now (s : State) (c x e k : Nat) : (s.own c x e k).now = s.now := rfl
@[simp] theorem State.own_cur (s : State) (c x e k : Nat) : (s.own c x e k).cur = s.cur := rfl
@[simp] theorem State.own_turns (s : State) (c x e k : Nat) : (s.own c x e k).turns = s.turns := rfl
@[simp] theorem State.own_pkts (s : State) (c x e k : Nat) : (s.own c x e k).pkts = s.pkts := rfl
@[simp] theorem State.own_ops (s : State) (c x e k : Nat) : (s.own c x e k).ops = s.ops := rfl
@[simp] theorem State.own_msys (s : State) (c x e k : Nat) : (s.own c x e k).msys = s.msys := rfl
@[simp] theorem State.own_sched (s : State) (c x e k : Nat) : (s.own c x e k).sched = s.sched := rfl
@[simp] theorem State.own_lodra (s : State) (c x e k : Nat) : (s.own c x e k).lodra = s.lodra := rfl
@[simp] theorem State.own_srvs (s : State) (c x e k : Nat) : (s.own c x e k).srvs = s.srvs := rfl
@[simp] theorem State.own_slew (s : State) (c x e k : Nat) : (s.own c x e k).slew = s.slew := rfl
@[simp] theorem State.own_mon (s : State) (c x e k : Nat) : (s.own c x e k).mon = s.mon := rfl
@[simp] theorem State.own_boot (s : State) (c x e k : Nat) : (s.own c x e k).boot = s.boot := rfl
@[simp] theorem State.own_host (s : State) (c x e k : Nat) : (s.own c x e k).host = s.host := rfl
@[simp] theorem State.own_stamp (s : State) (c x e k : Nat) : (s.own c x e k).stamp = s.stamp := rfl
@[simp] theorem State.own_free (s : State) (c x e k : Nat) : (s.own c x e k).free = s.free := rfl

@[simp] theorem State.chargeIssue_now (s : State) (c q x b : Nat) : (s.chargeIssue c q x b).now = s.now := by unfold State.chargeIssue; dsimp only; split <;> simp; split <;> simp
@[simp] theorem State.chargeIssue_cur (s : State) (c q x b : Nat) : (s.chargeIssue c q x b).cur = s.cur := by unfold State.chargeIssue; dsimp only; split <;> simp; split <;> simp
@[simp] theorem State.chargeIssue_turns (s : State) (c q x b : Nat) : (s.chargeIssue c q x b).turns = s.turns := by unfold State.chargeIssue; dsimp only; split <;> simp; split <;> simp
@[simp] theorem State.chargeIssue_pkts (s : State) (c q x b : Nat) : (s.chargeIssue c q x b).pkts = s.pkts := by unfold State.chargeIssue; dsimp only; split <;> simp; split <;> simp
@[simp] theorem State.chargeIssue_ops (s : State) (c q x b : Nat) : (s.chargeIssue c q x b).ops = s.ops := by unfold State.chargeIssue; dsimp only; split <;> simp; split <;> simp
@[simp] theorem State.chargeIssue_msys (s : State) (c q x b : Nat) : (s.chargeIssue c q x b).msys = s.msys := by unfold State.chargeIssue; dsimp only; split <;> simp; split <;> simp
@[simp] theorem State.chargeIssue_sched (s : State) (c q x b : Nat) : (s.chargeIssue c q x b).sched = s.sched := by unfold State.chargeIssue; dsimp only; split <;> simp; split <;> simp
@[simp] theorem State.chargeIssue_lodra (s : State) (c q x b : Nat) : (s.chargeIssue c q x b).lodra = s.lodra := by unfold State.chargeIssue; dsimp only; split <;> simp; split <;> simp
@[simp] theorem State.chargeIssue_slew (s : State) (c q x b : Nat) : (s.chargeIssue c q x b).slew = s.slew := by unfold State.chargeIssue; dsimp only; split <;> simp; split <;> simp
@[simp] theorem State.chargeIssue_mon (s : State) (c q x b : Nat) : (s.chargeIssue c q x b).mon = s.mon := by unfold State.chargeIssue; dsimp only; split <;> simp; split <;> simp
@[simp] theorem State.chargeIssue_boot (s : State) (c q x b : Nat) : (s.chargeIssue c q x b).boot = s.boot := by unfold State.chargeIssue; dsimp only; split <;> simp; split <;> simp
@[simp] theorem State.chargeIssue_host (s : State) (c q x b : Nat) : (s.chargeIssue c q x b).host = s.host := by unfold State.chargeIssue; dsimp only; split <;> simp; split <;> simp
@[simp] theorem State.chargeIssue_stamp (s : State) (c q x b : Nat) : (s.chargeIssue c q x b).stamp = s.stamp := by unfold State.chargeIssue; dsimp only; split <;> simp; split <;> simp
@[simp] theorem State.chargeIssue_free (s : State) (c q x b : Nat) : (s.chargeIssue c q x b).free = s.free := by unfold State.chargeIssue; dsimp only; split <;> simp; split <;> simp

@[simp] theorem State.slewRequest_regs (s : State) (r : Resv) : (s.slewRequest r).regs = s.regs := by unfold State.slewRequest; split <;> [rfl; (dsimp only; split <;> rfl)]
@[simp] theorem State.slewRequest_now (s : State) (r : Resv) : (s.slewRequest r).now = s.now := by unfold State.slewRequest; split <;> [rfl; (dsimp only; split <;> rfl)]
@[simp] theorem State.slewRequest_cur (s : State) (r : Resv) : (s.slewRequest r).cur = s.cur := by unfold State.slewRequest; split <;> [rfl; (dsimp only; split <;> rfl)]
@[simp] theorem State.slewRequest_turns (s : State) (r : Resv) : (s.slewRequest r).turns = s.turns := by unfold State.slewRequest; split <;> [rfl; (dsimp only; split <;> rfl)]
@[simp] theorem State.slewRequest_cores (s : State) (r : Resv) : (s.slewRequest r).cores = s.cores := by unfold State.slewRequest; split <;> [rfl; (dsimp only; split <;> rfl)]
@[simp] theorem State.slewRequest_pkts (s : State) (r : Resv) : (s.slewRequest r).pkts = s.pkts := by unfold State.slewRequest; split <;> [rfl; (dsimp only; split <;> rfl)]
@[simp] theorem State.slewRequest_ops (s : State) (r : Resv) : (s.slewRequest r).ops = s.ops := by unfold State.slewRequest; split <;> [rfl; (dsimp only; split <;> rfl)]
@[simp] theorem State.slewRequest_msys (s : State) (r : Resv) : (s.slewRequest r).msys = s.msys := by unfold State.slewRequest; split <;> [rfl; (dsimp only; split <;> rfl)]
@[simp] theorem State.slewRequest_sched (s : State) (r : Resv) : (s.slewRequest r).sched = s.sched := by unfold State.slewRequest; split <;> [rfl; (dsimp only; split <;> rfl)]
@[simp] theorem State.slewRequest_lodra (s : State) (r : Resv) : (s.slewRequest r).lodra = s.lodra := by unfold State.slewRequest; split <;> [rfl; (dsimp only; split <;> rfl)]
@[simp] theorem State.slewRequest_srvs (s : State) (r : Resv) : (s.slewRequest r).srvs = s.srvs := by unfold State.slewRequest; split <;> [rfl; (dsimp only; split <;> rfl)]
@[simp] theorem State.slewRequest_mon (s : State) (r : Resv) : (s.slewRequest r).mon = s.mon := by unfold State.slewRequest; split <;> [rfl; (dsimp only; split <;> rfl)]
@[simp] theorem State.slewRequest_boot (s : State) (r : Resv) : (s.slewRequest r).boot = s.boot := by unfold State.slewRequest; split <;> [rfl; (dsimp only; split <;> rfl)]
@[simp] theorem State.slewRequest_host (s : State) (r : Resv) : (s.slewRequest r).host = s.host := by unfold State.slewRequest; split <;> [rfl; (dsimp only; split <;> rfl)]
@[simp] theorem State.slewRequest_stamp (s : State) (r : Resv) : (s.slewRequest r).stamp = s.stamp := by unfold State.slewRequest; split <;> [rfl; (dsimp only; split <;> rfl)]
@[simp] theorem State.slewRequest_free (s : State) (r : Resv) : (s.slewRequest r).free = s.free := by unfold State.slewRequest; split <;> [rfl; (dsimp only; split <;> rfl)]

@[simp] theorem State.slewFree_regs (s : State) (u : SlewUnit) (c q : Nat) : (s.slewFree u c q).regs = s.regs := by unfold State.slewFree; split <;> rfl
@[simp] theorem State.slewFree_now (s : State) (u : SlewUnit) (c q : Nat) : (s.slewFree u c q).now = s.now := by unfold State.slewFree; split <;> rfl
@[simp] theorem State.slewFree_cur (s : State) (u : SlewUnit) (c q : Nat) : (s.slewFree u c q).cur = s.cur := by unfold State.slewFree; split <;> rfl
@[simp] theorem State.slewFree_turns (s : State) (u : SlewUnit) (c q : Nat) : (s.slewFree u c q).turns = s.turns := by unfold State.slewFree; split <;> rfl
@[simp] theorem State.slewFree_cores (s : State) (u : SlewUnit) (c q : Nat) : (s.slewFree u c q).cores = s.cores := by unfold State.slewFree; split <;> rfl
@[simp] theorem State.slewFree_pkts (s : State) (u : SlewUnit) (c q : Nat) : (s.slewFree u c q).pkts = s.pkts := by unfold State.slewFree; split <;> rfl
@[simp] theorem State.slewFree_ops (s : State) (u : SlewUnit) (c q : Nat) : (s.slewFree u c q).ops = s.ops := by unfold State.slewFree; split <;> rfl
@[simp] theorem State.slewFree_msys (s : State) (u : SlewUnit) (c q : Nat) : (s.slewFree u c q).msys = s.msys := by unfold State.slewFree; split <;> rfl
@[simp] theorem State.slewFree_sched (s : State) (u : SlewUnit) (c q : Nat) : (s.slewFree u c q).sched = s.sched := by unfold State.slewFree; split <;> rfl
@[simp] theorem State.slewFree_lodra (s : State) (u : SlewUnit) (c q : Nat) : (s.slewFree u c q).lodra = s.lodra := by unfold State.slewFree; split <;> rfl
@[simp] theorem State.slewFree_srvs (s : State) (u : SlewUnit) (c q : Nat) : (s.slewFree u c q).srvs = s.srvs := by unfold State.slewFree; split <;> rfl
@[simp] theorem State.slewFree_mon (s : State) (u : SlewUnit) (c q : Nat) : (s.slewFree u c q).mon = s.mon := by unfold State.slewFree; split <;> rfl
@[simp] theorem State.slewFree_boot (s : State) (u : SlewUnit) (c q : Nat) : (s.slewFree u c q).boot = s.boot := by unfold State.slewFree; split <;> rfl
@[simp] theorem State.slewFree_host (s : State) (u : SlewUnit) (c q : Nat) : (s.slewFree u c q).host = s.host := by unfold State.slewFree; split <;> rfl
@[simp] theorem State.slewFree_stamp (s : State) (u : SlewUnit) (c q : Nat) : (s.slewFree u c q).stamp = s.stamp := by unfold State.slewFree; split <;> rfl
@[simp] theorem State.slewFree_free (s : State) (u : SlewUnit) (c q : Nat) : (s.slewFree u c q).free = s.free := by unfold State.slewFree; split <;> rfl

@[simp] theorem State.slewTake_regs (s : State) (u : SlewUnit) (c q n : Nat) : (s.slewTake u c q n).regs = s.regs := by unfold State.slewTake; split <;> rfl
@[simp] theorem State.slewTake_now (s : State) (u : SlewUnit) (c q n : Nat) : (s.slewTake u c q n).now = s.now := by unfold State.slewTake; split <;> rfl
@[simp] theorem State.slewTake_cur (s : State) (u : SlewUnit) (c q n : Nat) : (s.slewTake u c q n).cur = s.cur := by unfold State.slewTake; split <;> rfl
@[simp] theorem State.slewTake_turns (s : State) (u : SlewUnit) (c q n : Nat) : (s.slewTake u c q n).turns = s.turns := by unfold State.slewTake; split <;> rfl
@[simp] theorem State.slewTake_cores (s : State) (u : SlewUnit) (c q n : Nat) : (s.slewTake u c q n).cores = s.cores := by unfold State.slewTake; split <;> rfl
@[simp] theorem State.slewTake_pkts (s : State) (u : SlewUnit) (c q n : Nat) : (s.slewTake u c q n).pkts = s.pkts := by unfold State.slewTake; split <;> rfl
@[simp] theorem State.slewTake_ops (s : State) (u : SlewUnit) (c q n : Nat) : (s.slewTake u c q n).ops = s.ops := by unfold State.slewTake; split <;> rfl
@[simp] theorem State.slewTake_msys (s : State) (u : SlewUnit) (c q n : Nat) : (s.slewTake u c q n).msys = s.msys := by unfold State.slewTake; split <;> rfl
@[simp] theorem State.slewTake_sched (s : State) (u : SlewUnit) (c q n : Nat) : (s.slewTake u c q n).sched = s.sched := by unfold State.slewTake; split <;> rfl
@[simp] theorem State.slewTake_lodra (s : State) (u : SlewUnit) (c q n : Nat) : (s.slewTake u c q n).lodra = s.lodra := by unfold State.slewTake; split <;> rfl
@[simp] theorem State.slewTake_srvs (s : State) (u : SlewUnit) (c q n : Nat) : (s.slewTake u c q n).srvs = s.srvs := by unfold State.slewTake; split <;> rfl
@[simp] theorem State.slewTake_mon (s : State) (u : SlewUnit) (c q n : Nat) : (s.slewTake u c q n).mon = s.mon := by unfold State.slewTake; split <;> rfl
@[simp] theorem State.slewTake_boot (s : State) (u : SlewUnit) (c q n : Nat) : (s.slewTake u c q n).boot = s.boot := by unfold State.slewTake; split <;> rfl
@[simp] theorem State.slewTake_host (s : State) (u : SlewUnit) (c q n : Nat) : (s.slewTake u c q n).host = s.host := by unfold State.slewTake; split <;> rfl
@[simp] theorem State.slewTake_stamp (s : State) (u : SlewUnit) (c q n : Nat) : (s.slewTake u c q n).stamp = s.stamp := by unfold State.slewTake; split <;> rfl
@[simp] theorem State.slewTake_free (s : State) (u : SlewUnit) (c q n : Nat) : (s.slewTake u c q n).free = s.free := by unfold State.slewTake; split <;> rfl

@[simp] theorem State.slewForget_regs (s : State) (u : SlewUnit) (c q : Nat) : (s.slewForget u c q).regs = s.regs := by unfold State.slewForget; split <;> rfl
@[simp] theorem State.slewForget_now (s : State) (u : SlewUnit) (c q : Nat) : (s.slewForget u c q).now = s.now := by unfold State.slewForget; split <;> rfl
@[simp] theorem State.slewForget_cur (s : State) (u : SlewUnit) (c q : Nat) : (s.slewForget u c q).cur = s.cur := by unfold State.slewForget; split <;> rfl
@[simp] theorem State.slewForget_turns (s : State) (u : SlewUnit) (c q : Nat) : (s.slewForget u c q).turns = s.turns := by unfold State.slewForget; split <;> rfl
@[simp] theorem State.slewForget_cores (s : State) (u : SlewUnit) (c q : Nat) : (s.slewForget u c q).cores = s.cores := by unfold State.slewForget; split <;> rfl
@[simp] theorem State.slewForget_pkts (s : State) (u : SlewUnit) (c q : Nat) : (s.slewForget u c q).pkts = s.pkts := by unfold State.slewForget; split <;> rfl
@[simp] theorem State.slewForget_ops (s : State) (u : SlewUnit) (c q : Nat) : (s.slewForget u c q).ops = s.ops := by unfold State.slewForget; split <;> rfl
@[simp] theorem State.slewForget_msys (s : State) (u : SlewUnit) (c q : Nat) : (s.slewForget u c q).msys = s.msys := by unfold State.slewForget; split <;> rfl
@[simp] theorem State.slewForget_sched (s : State) (u : SlewUnit) (c q : Nat) : (s.slewForget u c q).sched = s.sched := by unfold State.slewForget; split <;> rfl
@[simp] theorem State.slewForget_lodra (s : State) (u : SlewUnit) (c q : Nat) : (s.slewForget u c q).lodra = s.lodra := by unfold State.slewForget; split <;> rfl
@[simp] theorem State.slewForget_srvs (s : State) (u : SlewUnit) (c q : Nat) : (s.slewForget u c q).srvs = s.srvs := by unfold State.slewForget; split <;> rfl
@[simp] theorem State.slewForget_mon (s : State) (u : SlewUnit) (c q : Nat) : (s.slewForget u c q).mon = s.mon := by unfold State.slewForget; split <;> rfl
@[simp] theorem State.slewForget_boot (s : State) (u : SlewUnit) (c q : Nat) : (s.slewForget u c q).boot = s.boot := by unfold State.slewForget; split <;> rfl
@[simp] theorem State.slewForget_host (s : State) (u : SlewUnit) (c q : Nat) : (s.slewForget u c q).host = s.host := by unfold State.slewForget; split <;> rfl
@[simp] theorem State.slewForget_stamp (s : State) (u : SlewUnit) (c q : Nat) : (s.slewForget u c q).stamp = s.stamp := by unfold State.slewForget; split <;> rfl
@[simp] theorem State.slewForget_free (s : State) (u : SlewUnit) (c q : Nat) : (s.slewForget u c q).free = s.free := by unfold State.slewForget; split <;> rfl

@[simp] theorem State.parkPath_regs (s : State) (c : Cur) (a : Await) : (s.parkPath c a).regs = s.regs := rfl
@[simp] theorem State.parkPath_now (s : State) (c : Cur) (a : Await) : (s.parkPath c a).now = s.now := rfl
@[simp] theorem State.parkPath_cur (s : State) (c : Cur) (a : Await) : (s.parkPath c a).cur = s.cur := rfl
@[simp] theorem State.parkPath_turns (s : State) (c : Cur) (a : Await) : (s.parkPath c a).turns = s.turns := rfl
@[simp] theorem State.parkPath_pkts (s : State) (c : Cur) (a : Await) : (s.parkPath c a).pkts = s.pkts := rfl
@[simp] theorem State.parkPath_ops (s : State) (c : Cur) (a : Await) : (s.parkPath c a).ops = s.ops := rfl
@[simp] theorem State.parkPath_msys (s : State) (c : Cur) (a : Await) : (s.parkPath c a).msys = s.msys := rfl
@[simp] theorem State.parkPath_sched (s : State) (c : Cur) (a : Await) : (s.parkPath c a).sched = s.sched := rfl
@[simp] theorem State.parkPath_lodra (s : State) (c : Cur) (a : Await) : (s.parkPath c a).lodra = s.lodra := rfl
@[simp] theorem State.parkPath_srvs (s : State) (c : Cur) (a : Await) : (s.parkPath c a).srvs = s.srvs := rfl
@[simp] theorem State.parkPath_slew (s : State) (c : Cur) (a : Await) : (s.parkPath c a).slew = s.slew := rfl
@[simp] theorem State.parkPath_mon (s : State) (c : Cur) (a : Await) : (s.parkPath c a).mon = s.mon := rfl
@[simp] theorem State.parkPath_boot (s : State) (c : Cur) (a : Await) : (s.parkPath c a).boot = s.boot := rfl
@[simp] theorem State.parkPath_host (s : State) (c : Cur) (a : Await) : (s.parkPath c a).host = s.host := rfl
@[simp] theorem State.parkPath_stamp (s : State) (c : Cur) (a : Await) : (s.parkPath c a).stamp = s.stamp := rfl
@[simp] theorem State.parkPath_free (s : State) (c : Cur) (a : Await) : (s.parkPath c a).free = s.free := rfl

@[simp] theorem State.countIssue_now (s : State) (c : Cur) (g : Group) (w : Bool) (b : Nat) : (s.countIssue c g w b).now = s.now := by simp [State.countIssue]
@[simp] theorem State.countIssue_cur (s : State) (c : Cur) (g : Group) (w : Bool) (b : Nat) : (s.countIssue c g w b).cur = s.cur := by simp [State.countIssue]
@[simp] theorem State.countIssue_turns (s : State) (c : Cur) (g : Group) (w : Bool) (b : Nat) : (s.countIssue c g w b).turns = s.turns := by simp [State.countIssue]
@[simp] theorem State.countIssue_pkts (s : State) (c : Cur) (g : Group) (w : Bool) (b : Nat) : (s.countIssue c g w b).pkts = s.pkts := by simp [State.countIssue]
@[simp] theorem State.countIssue_ops (s : State) (c : Cur) (g : Group) (w : Bool) (b : Nat) : (s.countIssue c g w b).ops = s.ops := by simp [State.countIssue]
@[simp] theorem State.countIssue_msys (s : State) (c : Cur) (g : Group) (w : Bool) (b : Nat) : (s.countIssue c g w b).msys = s.msys := by simp [State.countIssue]
@[simp] theorem State.countIssue_sched (s : State) (c : Cur) (g : Group) (w : Bool) (b : Nat) : (s.countIssue c g w b).sched = s.sched := by simp [State.countIssue]
@[simp] theorem State.countIssue_lodra (s : State) (c : Cur) (g : Group) (w : Bool) (b : Nat) : (s.countIssue c g w b).lodra = s.lodra := by simp [State.countIssue]
@[simp] theorem State.countIssue_slew (s : State) (c : Cur) (g : Group) (w : Bool) (b : Nat) : (s.countIssue c g w b).slew = s.slew := by simp [State.countIssue]
@[simp] theorem State.countIssue_mon (s : State) (c : Cur) (g : Group) (w : Bool) (b : Nat) : (s.countIssue c g w b).mon = s.mon := by simp [State.countIssue]
@[simp] theorem State.countIssue_boot (s : State) (c : Cur) (g : Group) (w : Bool) (b : Nat) : (s.countIssue c g w b).boot = s.boot := by simp [State.countIssue]
@[simp] theorem State.countIssue_host (s : State) (c : Cur) (g : Group) (w : Bool) (b : Nat) : (s.countIssue c g w b).host = s.host := by simp [State.countIssue]
@[simp] theorem State.countIssue_stamp (s : State) (c : Cur) (g : Group) (w : Bool) (b : Nat) : (s.countIssue c g w b).stamp = s.stamp := by simp [State.countIssue]
@[simp] theorem State.countIssue_free (s : State) (c : Cur) (g : Group) (w : Bool) (b : Nat) : (s.countIssue c g w b).free = s.free := by simp [State.countIssue]

/-! ## Cores and groups -/

theorem State.core_updCore (s : State) (n m : Nat) (f : Core → Core) : (s.updCore n f).core m = if m = n then f (s.core n) else s.core m := by
  unfold State.core State.updCore; simp only [SMap.get_put]; rfl

@[simp] theorem State.core_updCore_self (s : State) (n : Nat) (f : Core → Core) : (s.updCore n f).core n = f (s.core n) := by simp [State.core_updCore]

/-- What a group slot holds after a core has changed. -/
theorem State.group?_updCore (s : State) (n m sl : Nat) (f : Core → Core) :
    (s.updCore n f).group? m sl = if m = n then (f (s.core n)).groups.find sl else s.group? m sl := by
  unfold State.group?; rw [State.core_updCore]; split_ifs <;> rfl

/-- What a group slot holds after a group has changed. -/
theorem State.group?_updGroup (s : State) (n m sl k : Nat) (f : Group → Group) :
    (s.updGroup n sl f).group? m k = if m = n ∧ k = sl then (s.group? n sl).map f else s.group? m k := by
  unfold State.updGroup; rw [State.group?_updCore]
  by_cases h : m = n
  · subst h; simp only [SMap.find_upd, true_and, if_true]; rfl
  · simp [h]

@[simp] theorem State.group?_updGroup_self (s : State) (n sl : Nat) (f : Group → Group) :
    (s.updGroup n sl f).group? n sl = (s.group? n sl).map f := by simp [State.group?_updGroup]

@[simp] theorem State.group?_own (s : State) (c x e k n sl : Nat) : (s.own c x e k).group? n sl = s.group? n sl := by
  unfold State.own; rw [State.group?_updCore]; split_ifs with h
  · subst h; rfl
  · rfl

/-- A group slot is a matter of the cores alone. -/
theorem State.group?_of_cores {s t : State} (h : t.cores = s.cores) (n sl : Nat) : t.group? n sl = s.group? n sl := by
  unfold State.group? State.core; rw [h]

theorem State.core_of_cores {s t : State} (h : t.cores = s.cores) (n : Nat) : t.core n = s.core n := by unfold State.core; rw [h]

@[simp] theorem State.group?_setReg (s : State) (r : RegName) (v : W64) (n sl : Nat) : (s.setReg r v).group? n sl = s.group? n sl :=
  State.group?_of_cores (by simp) n sl
@[simp] theorem State.group?_meter (s : State) (c m x n sl : Nat) : (s.meter c m x).group? n sl = s.group? n sl :=
  State.group?_of_cores (by simp) n sl
@[simp] theorem State.group?_putSrv (s : State) (v : Srv) (n sl : Nat) : (s.putSrv v).group? n sl = s.group? n sl :=
  State.group?_of_cores (by simp) n sl
@[simp] theorem State.group?_chargeSrv (s : State) (v : Srv) (a b k n sl : Nat) : (s.chargeSrv v a b k).group? n sl = s.group? n sl :=
  State.group?_of_cores (by simp) n sl
@[simp] theorem State.group?_chargeIssue (s : State) (c q x b n sl : Nat) : (s.chargeIssue c q x b).group? n sl = s.group? n sl := by
  unfold State.chargeIssue; dsimp only; split <;> simp; split <;> simp
@[simp] theorem State.group?_slewTake (s : State) (u : SlewUnit) (c q k n sl : Nat) : (s.slewTake u c q k).group? n sl = s.group? n sl :=
  State.group?_of_cores (by simp) n sl
@[simp] theorem State.group?_slewFree (s : State) (u : SlewUnit) (c q n sl : Nat) : (s.slewFree u c q).group? n sl = s.group? n sl :=
  State.group?_of_cores (by simp) n sl
@[simp] theorem State.group?_bump (s : State) (n sl : Nat) : s.bump.group? n sl = s.group? n sl := rfl

/-- Two changes of a group are one. -/
theorem State.updGroup_updGroup (s : State) (c sl : Nat) (f g : Group → Group) :
    (s.updGroup c sl f).updGroup c sl g = s.updGroup c sl (g ∘ f) := by
  unfold State.updGroup
  have : ∀ F G : Core → Core, (s.updCore c F).updCore c G = s.updCore c (G ∘ F) := by
    intro F G
    unfold State.updCore State.core
    simp [SMap.put_put]
  rw [this]
  congr 1
  funext k
  simp only [Function.comp, SMap.upd_upd]

/-- Two changes that agree on the group that stands are one change. -/
theorem State.updGroup_congr {s : State} {c sl : Nat} {f f' : Group → Group} (h : ∀ g, s.group? c sl = some g → f g = f' g) :
    s.updGroup c sl f = s.updGroup c sl f' := by
  unfold State.updGroup State.updCore
  have : (s.core c).groups.upd sl f = (s.core c).groups.upd sl f' := SMap.upd_congr h
  simp only [this]

end Sys2Proof.Machine
end

