-- ==== Sys2Proof/Laws/Issue.lean ====
section
/-! SUPPORT. Laws of an issue: what counting and charging an issue can change, and that an issue whose meaning
takes effect retires. -/

namespace Sys2Proof.Machine

/-- State `t` is `e` with the group `(core, slot)` changed by `f`, and with nothing else changed but own-context
counters of the core, meters of `ctx`, the ISSUE instance of `ctx` at the quarter, and current reservations. -/
structure Touched (e t : State) (core slot q ctx : Nat) (f : Group → Group) : Prop where
  group : t.group? core slot = (e.group? core slot).map f
  groups : ∀ n sl, (n, sl) ≠ (core, slot) → t.group? n sl = e.group? n sl
  cores : ∀ n, t.core n = { e.core n with groups := (t.core n).groups, slots := (t.core n).slots }
  slots : (t.core core).slots.map (fun x => (x.1, x.2.ctx, x.2.salt)) = (e.core core).slots.map fun x => (x.1, x.2.ctx, x.2.salt)
  others : ∀ n, n ≠ core → t.core n = e.core n
  rest : t = { e with regs := t.regs, cores := t.cores, srvs := t.srvs, slew := t.slew }
  regs : ∀ r : RegName, (∀ m, r.addr ≠ (RegName.fmeter ctx m).addr) → t.reg r = e.reg r
  srvs : ∀ cls inst cx route, (cls, inst, cx, route) ≠ (0, 4 * core + q, ctx, 0) → t.srv? cls inst cx route = e.srv? cls inst cx route

theorem Touched.trans {e t u : State} {core slot q ctx : Nat} {f f' : Group → Group}
    (h : Touched e t core slot q ctx f) (h' : Touched t u core slot q ctx f') : Touched e u core slot q ctx (f' ∘ f) where
  group := by rw [h'.group, h.group, Option.map_map]
  groups n sl hn := by rw [h'.groups n sl hn, h.groups n sl hn]
  cores n := by
    have a := h'.cores n
    rw [h.cores n] at a
    exact a
  slots := h'.slots.trans h.slots
  others n hn := by rw [h'.others n hn, h.others n hn]
  rest := by
    have a := h'.rest
    rw [h.rest] at a
    exact a
  regs r hr := by rw [h'.regs r hr, h.regs r hr]
  srvs cls inst cx route hn := by rw [h'.srvs cls inst cx route hn, h.srvs cls inst cx route hn]

/-- A change of one group. -/
theorem touched_updGroup (e : State) (core slot q ctx : Nat) (f : Group → Group) :
    Touched e (e.updGroup core slot f) core slot q ctx f where
  group := by simp
  groups n sl hn := by
    rw [State.group?_updGroup]; split_ifs with h
    · exact absurd (by rw [h.1, h.2]) hn
    · rfl
  cores n := by
    unfold State.updGroup; rw [State.core_updCore]; split_ifs with h
    · subst h; rfl
    · rfl
  slots := by unfold State.updGroup; rw [State.core_updCore_self]
  others n hn := by unfold State.updGroup; rw [State.core_updCore, if_neg hn]
  rest := rfl
  regs r _ := rfl
  srvs _ _ _ _ _ := rfl

theorem own_slots (xs : SMap CtxSlot) (ctx e k : Nat) :
    (xs.map fun (i, x) => (i, if x.ctx = ctx then { x with own := x.own.put e (x.own.get 0 e + k) } else x)).map
      (fun x => (x.1, x.2.ctx, x.2.salt)) = xs.map fun x => (x.1, x.2.ctx, x.2.salt) := by
  rw [List.map_map]; apply List.map_congr_left; intro x _; dsimp only [Function.comp]; split_ifs <;> rfl

/-- An own-context counter. -/
theorem touched_own (s : State) (core slot q ctx cx e k : Nat) : Touched s (s.own core cx e k) core slot q ctx id where
  group := by simp
  groups n sl _ := by simp
  cores n := by
    unfold State.own; rw [State.core_updCore]; split_ifs with h
    · subst h; rfl
    · rfl
  slots := by unfold State.own; rw [State.core_updCore_self]; exact own_slots _ _ _ _
  others n hn := by unfold State.own; rw [State.core_updCore, if_neg hn]
  rest := rfl
  regs r _ := rfl
  srvs _ _ _ _ _ := rfl

theorem touched_meter (s : State) (core slot q ctx m x : Nat) : Touched s (s.meter ctx m x) core slot q ctx id where
  group := by simp
  groups n sl _ := by simp
  cores n := by rw [State.core_of_cores (by simp : (s.meter ctx m x).cores = s.cores)]
  slots := by rw [State.core_of_cores (by simp : (s.meter ctx m x).cores = s.cores)]
  others n _ := State.core_of_cores (by simp) n
  rest := by unfold State.meter State.setReg; split <;> rfl
  regs r hr := by unfold State.meter; exact reg_setReg_other _ _ _ _ (hr m)
  srvs cls inst cx route _ := by
    have : (s.meter ctx m x).srvs = s.srvs := by simp
    unfold State.srv?; rw [this]

/-! ## Server instances -/

theorem find_mapIf_is (v : Srv) (xs : List Srv) (cls inst cx route : Nat) (hn : v.is cls inst cx route = false) :
    (mapIf (fun u : Srv => u.is v.cls v.inst v.ctx v.route) (fun _ => v) xs).find? (fun u => u.is cls inst cx route) =
      xs.find? fun u => u.is cls inst cx route := by
  unfold mapIf
  induction xs with
  | nil => rfl
  | cons u xs ih =>
    simp only [List.map_cons, List.find?_cons]
    by_cases h : u.is v.cls v.inst v.ctx v.route = true
    · have hu : u.is cls inst cx route = false := by
        by_contra hc
        have hc : u.is cls inst cx route = true := by simpa using hc
        simp only [Srv.is, Bool.and_eq_true, beq_iff_eq] at h hc
        obtain ⟨⟨⟨a1, a2⟩, a3⟩, a4⟩ := h
        obtain ⟨⟨⟨b1, b2⟩, b3⟩, b4⟩ := hc
        have : v.is cls inst cx route = true := by
          simp only [Srv.is, Bool.and_eq_true, beq_iff_eq]
          exact ⟨⟨⟨a1 ▸ b1, a2 ▸ b2⟩, a3 ▸ b3⟩, a4 ▸ b4⟩
        rw [this] at hn; cases hn
      simp only [h, if_true, hn, hu]; exact ih
    · have h : u.is v.cls v.inst v.ctx v.route = false := by simpa using h
      simp only [h, Bool.false_eq_true, if_false]
      split
      · rfl
      · exact ih

theorem srv?_putSrv_other (s : State) (v : Srv) (cls inst cx route : Nat) (hn : v.is cls inst cx route = false) :
    (s.putSrv v).srv? cls inst cx route = s.srv? cls inst cx route := by
  unfold State.putSrv
  split
  · unfold State.srv?; dsimp only; rw [find_mapIf_is v s.srvs cls inst cx route hn]
  · unfold State.srv?; dsimp only; rw [List.find?_append]
    simp only [List.find?_cons, hn, List.find?_nil]
    cases List.find? (fun v => v.is cls inst cx route) s.srvs <;> rfl

/-- The instance found is the one asked for. -/
theorem srv?_is {s : State} {cls inst cx route : Nat} {v : Srv} (h : s.srv? cls inst cx route = some v) (hr : route = 0) :
    v.is cls inst cx route = true := by
  unfold State.srv? at h
  split at h
  · rename_i u hu; cases h; exact (List.find?_some (p := fun v : Srv => v.is cls inst cx route) hu)
  · split at h
    · rename_i hc; cases h; subst hc hr; simp [Srv.is, mgmtSrv]
    · cases h

theorem touched_putSrv (s : State) (core slot q ctx : Nat) (v : Srv) (hv : v.is 0 (4 * core + q) ctx 0 = true) :
    Touched s (s.putSrv v) core slot q ctx id where
  group := by simp
  groups n sl _ := by simp
  cores n := by rw [State.core_of_cores (by simp : (s.putSrv v).cores = s.cores)]
  slots := by rw [State.core_of_cores (by simp : (s.putSrv v).cores = s.cores)]
  others n _ := State.core_of_cores (by simp) n
  rest := by unfold State.putSrv; split <;> rfl
  regs r _ := by unfold State.putSrv State.reg; split <;> rfl
  srvs cls inst cx route hn := by
    apply srv?_putSrv_other
    by_contra hc
    have hc : v.is cls inst cx route = true := by simpa using hc
    simp only [Srv.is, Bool.and_eq_true, beq_iff_eq] at hv hc
    obtain ⟨⟨⟨a1, a2⟩, a3⟩, a4⟩ := hv
    obtain ⟨⟨⟨b1, b2⟩, b3⟩, b4⟩ := hc
    exact hn (by rw [← b1, ← b2, ← b3, ← b4, a1, a2, a3, a4])

theorem charge_is (v : Srv) (a b n cls inst cx route : Nat) : (v.charge a b n).is cls inst cx route = v.is cls inst cx route := rfl

theorem endUnit_is (v : Srv) (t : Nat) (b : Bool) (cls inst cx route : Nat) :
    (v.endUnit t b).is cls inst cx route = v.is cls inst cx route := by unfold Srv.endUnit; split <;> rfl

/-- The charge of an issue (R95, R96, R112). -/
theorem touched_chargeIssue (s : State) (core slot q ctx beats : Nat) :
    Touched s (s.chargeIssue core q ctx beats) core slot q ctx id := by
  have h1 := touched_own s core slot q ctx ctx 1 beats
  unfold State.chargeIssue
  dsimp only
  split
  · exact h1
  · rename_i v hv
    have hvi : v.is 0 (4 * core + q) ctx 0 = true := srv?_is hv rfl
    have hctx : v.ctx = ctx := by simp only [Srv.is, Bool.and_eq_true, beq_iff_eq] at hvi; exact hvi.1.2
    have h2 := h1.trans (touched_putSrv _ core slot q ctx (v.charge 10 (17 - s.keff (s.ctxPart ctx)) beats) (by rw [charge_is]; exact hvi))
    have h3 := h2.trans (touched_meter _ core slot q ctx v.cls (v.amount 10 (17 - s.keff (s.ctxPart ctx)) beats))
    rw [← hctx] at h3
    simp only [hctx] at h3
    have e1 : (s.own core ctx 1 beats).keff ((s.own core ctx 1 beats).ctxPart ctx) = s.keff (s.ctxPart ctx) := rfl
    rw [e1]
    unfold State.chargeSrv
    rw [hctx]
    split
    · exact h3
    · rename_i w hw
      have hwi : w.is 0 (4 * core + q) ctx 0 = true := srv?_is hw rfl
      exact h3.trans (touched_putSrv _ core slot q ctx _ (by rw [endUnit_is]; exact hwi))

theorem touched_slew {s : State} (core slot q ctx : Nat) (sl : SMap Slew) : Touched s { s with slew := sl } core slot q ctx id where
  group := by simp [State.group?, State.core]
  groups _ _ _ := rfl
  cores _ := rfl
  slots := rfl
  others _ _ := rfl
  rest := rfl
  regs _ _ := rfl
  srvs _ _ _ _ _ := rfl

theorem touched_slewTake (s : State) (core slot q ctx : Nat) (u : SlewUnit) (c k n : Nat) :
    Touched s (s.slewTake u c k n) core slot q ctx id := by
  unfold State.slewTake; split
  · exact touched_slew core slot q ctx s.slew
  · exact touched_slew core slot q ctx _

theorem touched_slewFree (s : State) (core slot q ctx : Nat) (u : SlewUnit) (c k : Nat) :
    Touched s (s.slewFree u c k) core slot q ctx id := by
  unfold State.slewFree; split
  · exact touched_slew core slot q ctx s.slew
  · exact touched_slew core slot q ctx _

/-! ## Counting an issue -/

/-- What counting does to the group (R126, R127, R134). -/
def tally (path : Nat) (wdog : Bool) (g : Group) : Group :=
  { g with issued := min (2 ^ 32 - 1) (g.issued + 1), watchdog := if wdog then g.watchdog - 1 else g.watchdog, atSafe := none
           paths := (List.range 8).map fun i =>
             let p := g.path i
             if !p.valid then p
             else if i = path then
               { p with run := if (List.range 8).any fun i => i != path && (g.path i).ready then p.run + 1 else 0, bpSkip := none, done := p.done + 1 }
             else { p with run := 0 } }

theorem touched_countIssue (s : State) (c : Cur) (g : Group) (wdog : Bool) (beats : Nat) :
    Touched s (s.countIssue c g wdog beats) c.core c.slot g.quarter g.ctx (tally c.path wdog) := by
  unfold State.countIssue
  dsimp only
  have h1 := touched_updGroup s c.core c.slot g.quarter g.ctx fun g : Group => { g with
    issued := min (2 ^ 32 - 1) (g.issued + 1), watchdog := if wdog then g.watchdog - 1 else g.watchdog, atSafe := none }
  have h2 := h1.trans (touched_updGroup _ c.core c.slot g.quarter g.ctx fun g : Group =>
    let sibling := (List.range 8).any fun i => i != c.path && (g.path i).ready
    { g with paths := (List.range 8).map fun i =>
        let p := g.path i
        if !p.valid then p
        else if i = c.path then { p with run := if sibling then p.run + 1 else 0, bpSkip := none, done := p.done + 1 }
        else { p with run := 0 } })
  have h3 := h2.trans (touched_own _ c.core c.slot g.quarter g.ctx g.ctx 0 1)
  exact h3.trans (touched_chargeIssue _ c.core c.slot g.quarter g.ctx beats)

theorem path_tally (g : Group) (n : Nat) (wdog : Bool) (i : Nat) (hi : i < 8) :
    ∃ r b m, (tally n wdog g).path i = { g.path i with run := r, bpSkip := b, done := m } := by
  have : (tally n wdog g).path i =
      (let p := g.path i
       if !p.valid then p
       else if i = n then
         { p with run := if (List.range 8).any fun i => i != n && (g.path i).ready then p.run + 1 else 0, bpSkip := none, done := p.done + 1 }
       else { p with run := 0 }) := by
    show ((tally n wdog g).paths[i]?).getD {} = _
    unfold tally
    simp only [List.getElem?_map, List.getElem?_range hi, Option.map_some, Option.getD_some]
  rw [this]
  dsimp only
  split_ifs <;> exact ⟨_, _, _, rfl⟩

theorem path_updPath (g : Group) (n i : Nat) (f : Path → Path) (hn : n < g.paths.length) :
    (g.updPath n f).path i = if i = n then f (g.path i) else g.path i := by
  have key : ∀ (xs : List Path) (n i : Nat), n < xs.length → ((updAt xs n f)[i]?).getD {} = if i = n then f ((xs[i]?).getD {}) else (xs[i]?).getD {} := by
    intro xs
    induction xs with
    | nil => intro n i h; simp at h
    | cons x xs ih =>
      intro n i h
      cases n with
      | zero => cases i <;> simp [updAt]
      | succ n =>
        cases i with
        | zero => simp [updAt]
        | succ i =>
          simp only [updAt, List.getElem?_cons_succ]
          rw [ih n i (by simpa using h)]
          simp
  exact key g.paths n i hn

theorem length_tally (g : Group) (n : Nat) (wdog : Bool) : (tally n wdog g).paths.length = 8 := by simp [tally]

/-- The path part of an issue, counted after the path was moved by `f`. -/
theorem pathsAs_tally (h : Group) (n : Nat) (wdog : Bool) (f : Path → Path) (hn : n < 8) :
    (∀ (p : Path) r b m, f { p with run := r, bpSkip := b, done := m } = { f p with run := r, bpSkip := b, done := m }) →
    h.pathsAs n f ((tally n wdog h).updPath n f) := by
  intro hf i hi
  obtain ⟨r, b, m, hrb⟩ := path_tally h n wdog i hi
  refine ⟨r, b, m, ?_⟩
  rw [path_updPath _ _ _ _ (by rw [length_tally]; exact hn), hrb]
  split_ifs
  · exact hf _ _ _ _
  · rfl

/-- What counting an issue does, from what stands before the count. -/
theorem counted_of_touched {s e t : State} {c : Cur} {g h k : Group} {inf : Info} {f : Path → Path} {safe : Option W32} {F : Group → Group}
    (ht : Touched e t c.core c.slot g.quarter g.ctx F) (hh : e.group? c.core c.slot = some h) (hk : F h = k)
    (hi : h.issuedAs ((s.grid g.grid).desc.wdog && !inf.yieldd) safe k) (hp : h.pathsAs c.path f k)
    (hs : inf.draws = false → t.slew = e.slew) : Counted s e t c g inf f safe :=
  ⟨⟨h, k, hh, by rw [ht.group, hh, ← hk]; rfl, hi, hp⟩, ht.groups, ht.cores, ht.slots, ht.others, ht.rest, ht.regs, ht.srvs, hs⟩

/-- An issue that takes effect retires. -/
theorem finish_done {s e : State} {c : Cur} {g h : Group} {inf : Info} (hi : Issues s c g inf)
    (hh : e.group? c.core c.slot = some h) :
    Retired s e ((s.issuing c g).finish inf (.done e)) c g inf := by
  have hwd : ((s.issuing c g).d.wdog && !inf.yieldd && decide ((s.issuing c g).g.watchdog ≤ 1)) = false := hi.watchdog
  have fin : ∃ e1, Touched e e1 c.core c.slot g.quarter g.ctx id ∧ (inf.draws = false → e1.slew = e.slew) ∧
      (s.issuing c g).finish inf (.done e) =
        (let m := (e1.countIssue c g ((s.grid g.grid).desc.wdog && !inf.yieldd) inf.beats).updPath c.core c.slot c.path
            fun p => p.step (inf.size + if inf.sp then 4 else 0) (if inf.sp then 2 else 1)
         if inf.sp then m.updGroup c.core c.slot fun g' => { g' with atSafe := some (s.issuing c g).maskWord } else m) := by
    unfold IssueCtx.finish
    dsimp only
    rw [hwd]
    simp only [Bool.false_eq_true, if_false]
    by_cases hb : inf.draws = true
    · have hv : (s.issuing c g).s.vectorResv (s.issuing c g).c.core (s.issuing c g).g.quarter = true := hi.current hb
      simp only [hb, if_true, hv]
      refine ⟨e.slewTake .vector c.core g.quarter 4, touched_slewTake e c.core c.slot g.quarter g.ctx .vector c.core g.quarter 4, ?_, rfl⟩
      intro h
      cases h
    · simp only [hb]
      exact ⟨e, touched_slew c.core c.slot g.quarter g.ctx e.slew, fun _ => rfl, rfl⟩
  obtain ⟨e1, h1, hs, heq⟩ := fin
  rw [heq]
  have h2 := h1.trans (touched_countIssue e1 c g ((s.grid g.grid).desc.wdog && !inf.yieldd) inf.beats)
  have h3 := h2.trans (touched_updGroup _ c.core c.slot g.quarter g.ctx fun g' =>
    g'.updPath c.path fun p => p.step (inf.size + if inf.sp then 4 else 0) (if inf.sp then 2 else 1))
  unfold Retired State.safeWord Info.bytes Info.parcels
  cases hsp : inf.sp with
  | true =>
    have h4 := h3.trans (touched_updGroup _ c.core c.slot g.quarter g.ctx fun g' : Group =>
      { g' with atSafe := some (s.issuing c g).maskWord })
    simp only [hsp, if_true] at h4 ⊢
    exact counted_of_touched h4 hh rfl rfl (pathsAs_tally h c.path _ _ hi.path fun _ _ _ _ => rfl) fun hb => by simpa using hs hb
  | false =>
    simp only [hsp, Bool.false_eq_true, if_false] at h3 ⊢
    exact counted_of_touched h3 hh rfl rfl (pathsAs_tally h c.path _ _ hi.path fun _ _ _ _ => rfl) fun hb => by simpa using hs hb

/-- An issue that transfers control. -/
theorem finish_jump {s e : State} {c : Cur} {g h : Group} {inf : Info} {pc : W64} (hi : Issues s c g inf)
    (hh : e.group? c.core c.slot = some h) (hl : c.path < h.paths.length) :
    Transferred s e ((s.issuing c g).finish inf (.jump e pc)) c g inf pc := by
  have hwd : ((s.issuing c g).d.wdog && !inf.yieldd && decide ((s.issuing c g).g.watchdog ≤ 1)) = false := hi.watchdog
  have heq : (s.issuing c g).finish inf (.jump e pc) =
      (e.updPath c.core c.slot c.path fun p => p.goto pc).countIssue c g ((s.grid g.grid).desc.wdog && !inf.yieldd) inf.beats := by
    unfold IssueCtx.finish; dsimp only; rw [hwd]; simp only [Bool.false_eq_true, if_false]; rfl
  rw [heq]
  have h1 := (touched_updGroup e c.core c.slot g.quarter g.ctx fun g' => g'.updPath c.path fun p => p.goto pc).trans
    (touched_countIssue _ c g ((s.grid g.grid).desc.wdog && !inf.yieldd) inf.beats)
  refine counted_of_touched h1 hh rfl rfl ?_ fun _ => by simp
  intro i hi8
  obtain ⟨r, b, m, hrb⟩ := path_tally (h.updPath c.path fun p => p.goto pc) c.path ((s.grid g.grid).desc.wdog && !inf.yieldd) i hi8
  rw [path_updPath _ _ _ _ hl] at hrb
  exact ⟨r, b, m, hrb⟩

/-- An issue after which the path stays at the instruction. -/
theorem finish_stay {s e : State} {c : Cur} {g h : Group} {inf : Info} (hi : Issues s c g inf)
    (hh : e.group? c.core c.slot = some h) :
    Stayed s e ((s.issuing c g).finish inf (.stay e)) c g inf := by
  have hwd : ((s.issuing c g).d.wdog && !inf.yieldd && decide ((s.issuing c g).g.watchdog ≤ 1)) = false := hi.watchdog
  have heq : (s.issuing c g).finish inf (.stay e) = e.countIssue c g ((s.grid g.grid).desc.wdog && !inf.yieldd) inf.beats := by
    unfold IssueCtx.finish; dsimp only; rw [hwd]; simp only [Bool.false_eq_true, if_false]; rfl
  rw [heq]
  refine counted_of_touched (touched_countIssue e c g ((s.grid g.grid).desc.wdog && !inf.yieldd) inf.beats) hh rfl rfl ?_ fun _ => by simp
  intro i hi8
  obtain ⟨r, b, m, hrb⟩ := path_tally h c.path ((s.grid g.grid).desc.wdog && !inf.yieldd) i hi8
  refine ⟨r, b, m, ?_⟩
  split <;> exact hrb

/-- A well-coded instruction of an issuing path carries out what its meaning answers. -/
theorem issue_issues {s : State} {c : Cur} {g : Group} {inf : Group → Info} {body : IssueCtx → Act} (hi : Issues s c g (inf g)) :
    issue s none inf body = .next ((s.issuing c g).finish (inf g) (body (s.issuing c g))) := by
  have hl : ((s.issuing c g).p.left == 0) = false := by
    have := hi.clause
    unfold IssueCtx.structureError at this
    simp only [Bool.or_eq_false_iff] at this
    exact this.1.1
  have hg : ({ s with cur := none } : State).group? c.core c.slot = some g := hi.group
  have hc : (s.issuing c g).structureError (inf g) = false := hi.clause
  unfold issue issueAt
  rw [hi.cur]
  dsimp only
  rw [hg]
  simp only [hi.execute, hi.late, Option.isSome_none, Bool.false_eq_true, if_false]
  unfold State.issuing at hl hc ⊢
  simp only [hl, hc, Bool.false_eq_true, if_false]

/-- An issue whose meaning takes an effect retires with it. -/
theorem issue_retires {s e : State} {c : Cur} {g h : Group} {code : Option Nat} {inf : Group → Info} {body : IssueCtx → Act}
    (hc : code = none) (hi : Issues s c g (inf g)) (hb : body (s.issuing c g) = .done e) (hh : e.group? c.core c.slot = some h) :
    ∃ t, issue s code inf body = .next t ∧ Retired s e t c g (inf g) := by
  subst hc
  exact ⟨_, issue_issues hi, by rw [hb]; exact finish_done hi hh⟩

/-- An issue whose meaning transfers control. -/
theorem issue_transfers {s e : State} {c : Cur} {g h : Group} {code : Option Nat} {inf : Group → Info} {body : IssueCtx → Act} {pc : W64}
    (hc : code = none) (hi : Issues s c g (inf g)) (hb : body (s.issuing c g) = .jump e pc) (hh : e.group? c.core c.slot = some h)
    (hl : c.path < h.paths.length) : ∃ t, issue s code inf body = .next t ∧ Transferred s e t c g (inf g) pc := by
  subst hc
  exact ⟨_, issue_issues hi, by rw [hb]; exact finish_jump hi hh hl⟩

/-- An issue after which the path stays where it is. -/
theorem issue_stays {s e : State} {c : Cur} {g h : Group} {code : Option Nat} {inf : Group → Info} {body : IssueCtx → Act}
    (hc : code = none) (hi : Issues s c g (inf g)) (hb : body (s.issuing c g) = .stay e) (hh : e.group? c.core c.slot = some h) :
    ∃ t, issue s code inf body = .next t ∧ Stayed s e t c g (inf g) := by
  subst hc
  exact ⟨_, issue_issues hi, by rw [hb]; exact finish_stay hi hh⟩

/-- An issue whose meaning is a fault takes that fault. -/
theorem issue_traps {s : State} {c : Cur} {g : Group} {code : Option Nat} {inf : Group → Info} {body : IssueCtx → Act} {cls det : Nat} {va : W64}
    (hc : code = none) (hi : Issues s c g (inf g)) (hb : body (s.issuing c g) = .trap cls va det) :
    issue s code inf body = .next (({ s with cur := none } : State).takeFault c.core c.slot c.path (g.path c.path).pc cls va det) := by
  subst hc
  rw [issue_issues hi, hb]; rfl

/-- An issue that must wait parks its path. -/
theorem issue_parks {s : State} {c : Cur} {g : Group} {code : Option Nat} {inf : Group → Info} {body : IssueCtx → Act} {a : Await}
    (hc : code = none) (hi : Issues s c g (inf g)) (hb : body (s.issuing c g) = .park a) :
    issue s code inf body = .next (({ s with cur := none } : State).parkPath c a) := by
  subst hc
  rw [issue_issues hi, hb]; rfl

end Sys2Proof.Machine
end

