-- ==== Sys2Proof/Laws/Lane.lean ====
section
/-! SUPPORT. Laws of lane instructions: a result that can be placed is placed, and what the issue of a lane
instruction writes. -/

namespace Sys2Proof.Machine

/-! ## Placing a result (R203) -/

theorem leastBy_isSome {α : Type} (f : α → Nat) {xs : List α} (h : xs ≠ []) : (leastBy f xs).isSome = true := by
  cases xs with
  | nil => exact absurd rfl h
  | cons x xs => unfold leastBy; split <;> [rfl; split <;> rfl]

theorem markCollided_find (keys : List Nat) (m : SMap Pvr) (k : Nat) :
    (markCollided keys m).find k = (m.find k).map fun p => if keys.contains k then { p with collided := true } else p := by
  induction m with
  | nil => rfl
  | cons e m ih =>
    obtain ⟨j, v⟩ := e
    simp only [markCollided, SMap.find]
    by_cases h1 : k = j
    · subst h1; rw [if_pos rfl, if_pos rfl]; rfl
    · rw [if_neg h1, if_neg h1]; exact ih

theorem markCollided_mem {keys : List Nat} {m : SMap Pvr} {kp : Nat × Pvr} (h : kp ∈ markCollided keys m) :
    ∃ p, (kp.1, p) ∈ m ∧ kp.2.count = p.count ∧ kp.2.pinned = p.pinned := by
  induction m with
  | nil => simp [markCollided] at h
  | cons e m ih =>
    obtain ⟨j, v⟩ := e
    simp only [markCollided, List.mem_cons] at h
    rcases h with h | h
    · subst h; exact ⟨v, List.mem_cons_self, by dsimp only; split <;> rfl, by dsimp only; split <;> rfl⟩
    · obtain ⟨p, hp, h1, h2⟩ := ih h; exact ⟨p, List.mem_cons_of_mem _ hp, h1, h2⟩

/-- Collided marks leave places and references as they were. -/
theorem canPlace_marked {c : Core} {keys : List Nat} {slot wc : Nat} (h : c.canPlace slot wc = true) :
    ({ c with pvrs := markCollided keys c.pvrs } : Core).canPlace slot wc = true := by
  unfold Core.canPlace at h ⊢
  simp only [Bool.or_eq_true] at h ⊢
  rcases h with h | h
  · left
    rw [markCollided_find]
    cases hf : SMap.find c.pvrs (32768 + slot) with
    | none => rfl
    | some p => rw [hf] at h; cases h
  · right
    rw [List.any_eq_true] at h ⊢
    obtain ⟨n, hn, h⟩ := h
    refine ⟨n, hn, ?_⟩
    rw [Bool.and_eq_true] at h ⊢
    refine ⟨h.1, ?_⟩
    rw [List.all_eq_true] at h ⊢
    intro kp hkp
    unfold Core.occupants at hkp
    rw [List.mem_filter] at hkp
    obtain ⟨p, hp, h1, h2⟩ := markCollided_mem hkp.1
    have hm : (kp.1, p) ∈ c.occupants wc n := by
      unfold Core.occupants; rw [List.mem_filter]; exact ⟨hp, hkp.2⟩
    have := h.2 _ hm
    unfold Core.reclaimable at this ⊢
    simp only [h1, h2]
    exact this

/-- Steps 1 to 4 of R203 end with a place. -/
theorem placeNew_isSome {c : Core} {slot wc : Nat} {names : List Nat} {p : Bool → Pvr} (h : c.canPlace slot wc = true) :
    (c.placeNew slot wc names p).isSome = true := by
  unfold Core.placeNew
  dsimp only
  split
  · rfl
  split
  · rfl
  split
  · rfl
  rename_i hnone
  unfold Core.canPlace at h
  simp only [Bool.or_eq_true] at h
  rcases h with h | h
  · exact absurd h hnone
  rw [List.any_eq_true] at h
  obtain ⟨n, hn, h⟩ := h
  rw [Bool.and_eq_true] at h
  split
  · rfl
  rename_i hl
  split
  · rfl
  rename_i hf
  exfalso
  by_cases he : (c.occupants wc n).isEmpty = true
  · unfold Core.freeWay at hf
    rw [List.find?_eq_none] at hf
    exact hf n hn (by rw [Bool.and_eq_true]; exact ⟨h.1, he⟩)
  · unfold Core.lruPlace at hl
    dsimp only at hl
    have hl2 := mt (leastBy_isSome (fun n => (c.occupants wc n).foldl (fun a kp => max a kp.2.used) 0)) (by rw [hl]; simp)
    rw [not_not] at hl2
    have hm : n ∈ (List.range (8192 / 2 ^ wc)).filter fun n =>
        !inPositionZero wc n && !(c.occupants wc n).isEmpty && (c.occupants wc n).all c.reclaimable := by
      rw [List.mem_filter]
      refine ⟨hn, ?_⟩
      rw [Bool.and_eq_true, Bool.and_eq_true]
      exact ⟨⟨h.1, by simpa using he⟩, h.2⟩
    rw [hl2] at hm
    cases hm

/-- A result that R203 lets be placed is placed. -/
theorem place_isSome {c : Core} {ctx slot wc : Nat} {x : VReg} {stamp : Nat} (h : c.canPlace slot wc = true) :
    (c.place ctx slot wc x stamp).isSome = true := by
  unfold Core.place
  dsimp only
  split
  · rfl
  split
  · rfl
  exact placeNew_isSome (canPlace_marked h)

theorem placeNew_core {c c' : Core} {slot wc : Nat} {names : List Nat} {p : Bool → Pvr} {e : BitVec 14} {sh : Bool}
    (h : c.placeNew slot wc names p = some (c', e, sh)) : c' = { c with pvrs := c'.pvrs, rt := c'.rt } := by
  unfold Core.placeNew at h
  dsimp only at h
  split at h
  · cases h; rfl
  split at h
  · cases h; rfl
  split at h
  · cases h; rfl
  split at h
  · cases h; rfl
  split at h
  · cases h; rfl
  · cases h

/-- Placing changes the physical registers and the result table alone. -/
theorem place_core {c c' : Core} {ctx slot wc : Nat} {x : VReg} {stamp : Nat} {e : BitVec 14} {sh : Bool}
    (h : c.place ctx slot wc x stamp = some (c', e, sh)) : c' = { c with pvrs := c'.pvrs, rt := c'.rt } := by
  unfold Core.place at h
  dsimp only at h
  split at h
  · cases h; rfl
  split at h
  · cases h; rfl
  · have := placeNew_core h
    rw [this]

theorem freeIfDead_core (c : Core) (k : Nat) : c.freeIfDead k = { c with pvrs := (c.freeIfDead k).pvrs } := by
  unfold Core.freeIfDead; split
  · split <;> rfl
  · rfl

theorem release_core (c : Core) (wc : Nat) (e : BitVec 14) : c.release wc e = { c with pvrs := (c.release wc e).pvrs } := by
  unfold Core.release; split
  · rfl
  · rw [freeIfDead_core]

theorem insertRt_core (c : Core) (k : RtEntry) (e : BitVec 14) (stamp : Nat) :
    c.insertRt k e stamp = { c with pvrs := (c.insertRt k e stamp).pvrs, rt := (c.insertRt k e stamp).rt } := by
  unfold Core.insertRt
  dsimp only
  split
  · rfl
  · split <;> rfl

theorem learn_core (c : Core) (key : Option RtEntry) (sh : Bool) (e : BitVec 14) (stamp : Nat) :
    c.learn key sh e stamp = { c with pvrs := (c.learn key sh e stamp).pvrs, rt := (c.learn key sh e stamp).rt } := by
  unfold Core.learn; split
  · split <;> [exact insertRt_core _ _ _ _; rfl]
  · rfl

/-! ## What a lane instruction writes -/

/-- State `t` is `e` with the group `(core, slot)` changed by `f` and, of the rest, only physical registers,
the result table and own-context counters of that core. -/
structure LaneTouched (e t : State) (core slot : Nat) (f : Group → Group) : Prop where
  group : t.group? core slot = (e.group? core slot).map f
  groups : ∀ n sl, (n, sl) ≠ (core, slot) → t.group? n sl = e.group? n sl
  same : t.core core = { e.core core with
    groups := (t.core core).groups, slots := (t.core core).slots, pvrs := (t.core core).pvrs, rt := (t.core core).rt }
  slots : (t.core core).slots.map (fun x => (x.1, x.2.ctx, x.2.salt)) = (e.core core).slots.map fun x => (x.1, x.2.ctx, x.2.salt)
  others : ∀ n, n ≠ core → t.core n = e.core n
  rest : t = { e with cores := t.cores, stamp := t.stamp }

theorem LaneTouched.trans {e t u : State} {core slot : Nat} {f f' : Group → Group}
    (h : LaneTouched e t core slot f) (h' : LaneTouched t u core slot f') : LaneTouched e u core slot (f' ∘ f) where
  group := by rw [h'.group, h.group, Option.map_map]
  groups n sl hn := by rw [h'.groups n sl hn, h.groups n sl hn]
  same := by
    have a := h'.same
    rw [h.same] at a
    exact a
  slots := h'.slots.trans h.slots
  others n hn := by rw [h'.others n hn, h.others n hn]
  rest := by
    have a := h'.rest
    rw [h.rest] at a
    exact a

theorem laneTouched_refl (e : State) (core slot : Nat) : LaneTouched e e core slot id where
  group := by simp
  groups _ _ _ := rfl
  same := rfl
  slots := rfl
  others _ _ := rfl
  rest := rfl

theorem laneTouched_updGroup (e : State) (core slot : Nat) (f : Group → Group) : LaneTouched e (e.updGroup core slot f) core slot f := by
  have h := touched_updGroup e core slot 0 0 f
  refine ⟨h.group, h.groups, ?_, h.slots, h.others, rfl⟩
  unfold State.updGroup; rw [State.core_updCore_self]

theorem laneTouched_own (e : State) (core slot ctx x k : Nat) : LaneTouched e (e.own core ctx x k) core slot id := by
  have h := touched_own e core slot 0 0 ctx x k
  refine ⟨h.group, h.groups, ?_, h.slots, h.others, rfl⟩
  unfold State.own; rw [State.core_updCore_self]

/-- A change of a core's physical registers and result table. -/
theorem laneTouched_updCore (e : State) (core slot : Nat) (f : Core → Core)
    (hf : f (e.core core) = { e.core core with pvrs := (f (e.core core)).pvrs, rt := (f (e.core core)).rt }) :
    LaneTouched e (e.updCore core f) core slot id where
  group := by rw [State.group?_updCore, if_pos rfl, hf]; simp; rfl
  groups n sl _ := by
    rw [State.group?_updCore]; split_ifs with h
    · subst h; rw [hf]; rfl
    · rfl
  same := by rw [State.core_updCore_self, hf]
  slots := by rw [State.core_updCore_self, hf]
  others n hn := by rw [State.core_updCore, if_neg hn]
  rest := rfl

theorem core_bump (s : State) (n : Nat) : s.bump.core n = s.core n := rfl

/-- A written register (R203, R204): its value is what was written. -/
theorem writeV_touched {s t : State} {core slot r : Nat} {x : VReg} {key : Option RtEntry} {e : BitVec 14} {sh : Bool}
    (h : s.writeV core slot r x key = some (t, e, sh)) :
    ∃ f : Group → Group, (∀ g, f g = { g with v := SMap.set 0 g.v r x, vname := (f g).vname }) ∧ LaneTouched s t core slot f := by
  unfold State.writeV at h
  split at h
  · cases h
  rename_i g hg
  split at h
  · cases h
  rename_i c e' sh' hp
  injection h with h
  injection h with h1 h2
  have hc := place_core hp
  refine ⟨fun g' => { g' with v := SMap.set 0 g'.v r x, vname := SMap.set 0 g'.vname r e' }, fun _ => rfl, ?_⟩
  subst h1
  have hgr : c.groups = (s.core core).groups := by rw [hc]
  refine ⟨?_, ?_, ?_, ?_, ?_, rfl⟩
  · rw [State.group?_bump, State.group?_updCore, if_pos rfl, release_core, learn_core, hg]; simp
  · intro n sl hn
    rw [State.group?_bump, State.group?_updCore]; split_ifs with hm
    · subst hm
      rw [release_core, learn_core]
      have : sl ≠ slot := fun hs => hn (by rw [hs])
      simp only
      rw [SMap.find_put_other _ _ this, hgr]; rfl
    · rfl
  · rw [core_bump, State.core_updCore_self, release_core, learn_core, hc]
  · rw [core_bump, State.core_updCore_self, release_core, learn_core, hc]
  · intro n hn
    rw [core_bump, State.core_updCore, if_neg hn]

/-- A group whose result can be placed writes it. -/
theorem writeV_isSome {s : State} {core slot r : Nat} {x : VReg} {key : Option RtEntry} {g : Group} (hg : s.group? core slot = some g)
    (h : (s.core core).canPlace slot g.wc = true) : ∃ t e sh, s.writeV core slot r x key = some (t, e, sh) := by
  unfold State.writeV
  rw [hg]
  dsimp only
  have := place_isSome (ctx := g.ctx) (x := x) (stamp := s.stamp) h
  cases hp : (s.core core).place g.ctx slot g.wc x s.stamp with
  | none => rw [hp] at this; cases this
  | some p => exact ⟨_, _, _, rfl⟩

/-- The pops of a list of queues. -/
def popAll (qs : List Nat) (g : Group) : Group := qs.foldl (fun g q => g.setQueue q (g.queue q).pop) g

theorem popQueues_touched (s : State) (x : IssueCtx) (fs : List Nat) :
    LaneTouched s (s.popQueues x fs) x.c.core x.c.slot (popAll (queuesOf x.d fs)) := by
  unfold State.popQueues popAll
  generalize queuesOf x.d fs = qs
  induction qs generalizing s with
  | nil => exact laneTouched_refl s _ _
  | cons q qs ih =>
    simp only [List.foldl_cons]
    exact (laneTouched_updGroup s x.c.core x.c.slot fun g => g.setQueue q (g.queue q).pop).trans (ih _)

theorem popAll_queues (qs : List Nat) (g : Group) : popAll qs g = { g with queues := (popAll qs g).queues } := by
  unfold popAll
  induction qs generalizing g with
  | nil => rfl
  | cons q qs ih => simp only [List.foldl_cons]; rw [ih]; rfl

theorem queue_setQueue (g : Group) (q r : Nat) (u : OpQueue) : (g.setQueue q u).queue r = if r = q then u else g.queue r := by
  unfold Group.queue Group.setQueue; rw [SMap.get_put]

theorem queue_popAll {qs : List Nat} (hq : qs.Nodup) (g : Group) (r : Nat) :
    (popAll qs g).queue r = if qs.contains r then (g.queue r).pop else g.queue r := by
  unfold popAll
  induction qs generalizing g with
  | nil => rfl
  | cons q qs ih =>
    simp only [List.foldl_cons]
    rw [List.nodup_cons] at hq
    rw [ih hq.2, queue_setQueue]
    by_cases h : r = q
    · subst h; simp [hq.1]
    · simp [h]

theorem eraseDups_nodup (xs : List Nat) : xs.eraseDups.Nodup := by
  induction hn : xs.length using Nat.strong_induction_on generalizing xs with
  | _ n ih =>
    cases xs with
    | nil => simp
    | cons x xs =>
      rw [List.eraseDups_cons, List.nodup_cons]
      refine ⟨?_, ih _ ?_ _ rfl⟩
      · intro h
        rw [List.mem_eraseDups] at h
        simp at h
      · subst hn
        simp only [List.length_cons]
        exact Nat.lt_succ_of_le (List.length_filter_le _ _)

/-- What a state leaves as it was when only operations change. -/
structure OpsTouched (e t : State) : Prop where
  group : ∀ n sl, t.group? n sl = e.group? n sl
  core : ∀ n, t.core n = e.core n
  rest : t = { e with ops := t.ops }

/-- A younger write marks the operations of its group in flight, and changes nothing else. -/
theorem supersede_touched {s t : State} {core slot d : Nat} {mask : W64} {g k : Group} (hg : s.group? core slot = some g)
    (hk : t.group? core slot = some k) (hgen : ∀ k : Group, t.group? core slot = some k → k.gen = g.gen) (ho : t.ops = s.ops) :
    (t.supersede core slot d mask).ops = (s.supersede core slot d mask).ops ∧ OpsTouched t (t.supersede core slot d mask) := by
  have h := hgen k hk
  unfold State.supersede
  rw [hg, hk]
  refine ⟨?_, fun _ _ => rfl, fun _ => rfl, rfl⟩
  simp only [ho, Op.ofGroup, h]
  rfl

/-- The issue of a lane instruction that is ready writes its result. -/
theorem laneAct_done {x : IssueCtx} {o : LaneOp} (hg : x.s.group? x.c.core x.c.slot = some x.g) (hr : LaneReady x o) :
    ∃ e, x.laneAct o = .done e ∧ LaneWrote x o e := by
  obtain ⟨hl, hf, hm, hp⟩ := hr
  unfold IssueCtx.laneAct
  rw [hl, hf]
  dsimp only
  generalize (if (o.opw.isSome && x.eligible (o.srcs ++ [o.dst])) = true then some (x.laneKey o (o.opw.getD 0)) else none) = ins
  generalize hel : (o.opw.isSome && x.eligible (o.srcs ++ [o.dst]) && x.looksUp o.dst o.mask) = elig at hm ⊢
  have hlook : (if elig = true then (x.s.core x.c.core).lookup (x.laneKey o (o.opw.getD 0)) else none) = none := by
    split
    · rename_i h; exact hm h
    · rfl
  rw [hlook]
  dsimp only
  have h0 : LaneTouched x.s (if elig = true then x.s.own x.c.core x.g.ctx 2 1 else x.s) x.c.core x.c.slot id := by
    split
    · exact laneTouched_own _ _ _ _ _ _
    · exact laneTouched_refl _ _ _
  have hpv0 : ((if elig = true then x.s.own x.c.core x.g.ctx 2 1 else x.s).core x.c.core).canPlace x.c.slot x.g.wc = true := by
    split
    · unfold State.own; rw [State.core_updCore_self]; exact hp
    · exact hp
  generalize (if elig = true then x.s.own x.c.core x.g.ctx 2 1 else x.s) = s0 at h0 hpv0 ⊢
  let fx : Group → Group := fun g => (let g := if o.xr then g.setGsr 4 else g; if o.mm then g.setGsr 5 else g)
  have h1 : LaneTouched s0 (s0.setXrMm x.c.core x.c.slot o.xr o.mm) x.c.core x.c.slot fx := laneTouched_updGroup s0 _ _ _
  have h2 := (h0.trans h1).trans (popQueues_touched (s0.setXrMm x.c.core x.c.slot o.xr o.mm) x o.srcs)
  have hcan : ∀ (e : State) (f : Group → Group), (e.updGroup x.c.core x.c.slot f).core x.c.core =
      { e.core x.c.core with groups := ((e.updGroup x.c.core x.c.slot f).core x.c.core).groups } := by
    intro e f; unfold State.updGroup; rw [State.core_updCore_self]
  have hpops : ∀ (qs : List Nat) (e : State), (e.core x.c.core).canPlace x.c.slot x.g.wc = true →
      ((qs.foldl (fun s q => s.updGroup x.c.core x.c.slot fun g => g.setQueue q (g.queue q).pop) e).core x.c.core).canPlace x.c.slot x.g.wc = true := by
    intro qs
    induction qs with
    | nil => exact fun _ h => h
    | cons q qs ih => intro e h; simp only [List.foldl_cons]; exact ih _ (by rw [hcan]; exact h)
  have hpv2 : (((s0.setXrMm x.c.core x.c.slot o.xr o.mm).popQueues x o.srcs).core x.c.core).canPlace x.c.slot x.g.wc = true := by
    unfold State.popQueues State.setXrMm
    exact hpops _ _ (by rw [hcan]; exact hpv0)
  unfold IssueCtx.writeDst IssueCtx.writeReg
  dsimp only
  generalize (s0.setXrMm x.c.core x.c.slot o.xr o.mm).popQueues x o.srcs = s2 at h2 hpv2 ⊢
  have hfx : ∀ g : Group, fx g = { g with gsr := g.gsr ||| (if o.xr then 0x10 else 0) ||| (if o.mm then 0x20 else 0) } := by
    intro g
    show (let g' := if o.xr then g.setGsr 4 else g; if o.mm then g'.setGsr 5 else g') = _
    cases o.xr <;> cases o.mm <;> simp [Group.setGsr]
  have hq : ∀ q, (popAll (queuesOf x.d o.srcs) (fx x.g)).queue q =
      if (queuesOf x.d o.srcs).contains q then (x.g.queue q).pop else x.g.queue q := by
    intro q
    have hnd : (queuesOf x.d o.srcs).Nodup := eraseDups_nodup _
    rw [queue_popAll hnd, hfx]; rfl
  cases hd : queueOf x.d.qmask o.dst with
  | some q =>
    dsimp only
    refine ⟨_, rfl, ?_⟩
    have h3 := h2.trans (laneTouched_updGroup s2 x.c.core x.c.slot fun g =>
      g.setQueue q ((g.queue q).push x.d.qdepth x.w o.mask (VReg.ofFn x.w o.lane)))
    refine ⟨⟨_, by rw [h3.group, hg]; rfl, ?_, ?_, ?_⟩, h3.groups, h3.same, h3.slots, h3.others,
      by rw [hd, if_neg (by simp), h3.rest], by rw [h3.rest]⟩
    · simp only [Function.comp, id]
      unfold Group.setQueue
      rw [popAll_queues, hfx]
    · intro n
      simp only [hd, reduceCtorEq, false_and, if_false, Function.comp, id]
      unfold Group.vreg Group.setQueue
      rw [popAll_queues, hfx]
    · intro r
      simp only [Function.comp, id]
      rw [queue_setQueue]
      unfold IssueCtx.queueAfter
      rw [hd]
      by_cases hr : r = q
      · subst hr; rw [if_pos rfl, if_pos rfl, hq]
      · rw [if_neg hr, if_neg (by simpa using fun h => hr h.symm), hq]
  | none =>
    dsimp only
    have hg2 : s2.group? x.c.core x.c.slot = some (popAll (queuesOf x.d o.srcs) (fx x.g)) := by rw [h2.group, hg]; rfl
    have hwc : (popAll (queuesOf x.d o.srcs) (fx x.g)).wc = x.g.wc := by
      rw [popAll_queues, hfx]
      unfold Group.wc
      dsimp only
      have : ∀ a : W32, ((a ||| (if o.xr then 0x10 else 0) ||| (if o.mm then 0x20 else 0)) : W32).toNat % 4 = a.toNat % 4 := by
        intro a
        have hh : ∀ a b : W32, b.toNat % 4 = 0 → (a ||| b).toNat % 4 = a.toNat % 4 := by
          intro a b hb
          rw [BitVec.toNat_or]
          have := Nat.or_mod_two_pow (a := a.toNat) (b := b.toNat) (n := 2)
          norm_num at this
          rw [this, hb, Nat.or_zero]
        rw [hh, hh]
        · split <;> rfl
        · split <;> rfl
      exact this _
    obtain ⟨t, e, sh, hw⟩ := writeV_isSome (r := o.dst) (x := VReg.merge x.w o.mask o.lane (x.g.vreg o.dst)) (key := ins) hg2 (by rw [hwc]; exact hpv2)
    rw [hw]
    dsimp only [Option.map]
    obtain ⟨f, hfv, hft⟩ := writeV_touched hw
    have h3 := h2.trans hft
    have hgen : ∀ k : Group, t.group? x.c.core x.c.slot = some k → k.gen = x.g.gen := by
      intro k hk
      rw [h3.group, hg] at hk
      simp only [Option.map_some, Function.comp, id, Option.some.injEq] at hk
      rw [← hk, hfv, popAll_queues, hfx]
    obtain ⟨hops, hsame⟩ := supersede_touched (d := o.dst) (mask := o.mask) hg (by rw [h3.group, hg]; rfl) hgen (by rw [h3.rest])
    refine ⟨_, rfl, ?_⟩
    refine ⟨⟨_, by rw [hsame.group, h3.group, hg]; rfl, ?_, ?_, ?_⟩, fun n sl h => by rw [hsame.group, h3.groups n sl h],
      by rw [hsame.core, h3.same], by rw [hsame.core, h3.slots], fun n h => by rw [hsame.core, h3.others n h],
      by rw [hd, if_pos rfl, hops], by rw [hsame.rest, h3.rest]⟩
    · simp only [Function.comp, id]
      rw [hfv, popAll_queues, hfx]
    · intro n
      simp only [hd, true_and, Function.comp, id]
      unfold Group.vreg
      rw [hfv]
      dsimp only
      rw [SMap.get_set, popAll_queues, hfx]
      rfl
    · intro r
      simp only [Function.comp, id]
      have : (f (popAll (queuesOf x.d o.srcs) (fx x.g))).queue r = (popAll (queuesOf x.d o.srcs) (fx x.g)).queue r := by
        rw [hfv]; rfl
      rw [this, hq]
      unfold IssueCtx.queueAfter
      rw [hd]; simp

/-- A well-coded lane instruction that is ready writes its result and retires. -/
theorem lane_issue {F : LaneForm} {s : State} {c : Cur} {g : Group} {code : Option Nat} {body : IssueCtx → Act}
    (hi : Issues s c g (F.inf g)) (hr : LaneReady (s.issuing c g) (F.op (s.issuing c g))) (hc : code = none)
    (hb : body (s.issuing c g) = (s.issuing c g).laneAct (F.op (s.issuing c g))) :
    ∃ e t, issue s code F.inf body = .next t ∧ LaneWrote (s.issuing c g) (F.op (s.issuing c g)) e ∧ Retired s e t c g (F.inf g) := by
  obtain ⟨e, he, hw⟩ := laneAct_done (x := s.issuing c g) hi.group hr
  obtain ⟨h, hh, _⟩ := hw.group
  obtain ⟨t, ht, hret⟩ := issue_retires hc hi (hb.trans he) hh
  exact ⟨e, t, ht, hw, hret⟩

theorem isNone_sWait {x : IssueCtx} {ns : List Nat} (h : (x.sWait ns).isNone = true) : x.sWait ns = none := by simpa using h

/-- Pops followed by a change of the group are one change of it. -/
theorem popQueues_updGroup (s : State) (x : IssueCtx) (fs : List Nat) (f : Group → Group) :
    (s.popQueues x fs).updGroup x.c.core x.c.slot f = s.updGroup x.c.core x.c.slot fun g => f
      { g with queues := (queuesOf x.d fs).foldl (fun qs q => qs.put q (SMap.get {} qs q).pop) g.queues } := by
  unfold State.popQueues
  generalize queuesOf x.d fs = qs
  induction qs generalizing s with
  | nil => rfl
  | cons q qs ih =>
    simp only [List.foldl_cons]
    rw [ih, State.updGroup_updGroup]
    rfl

/-- An instruction that writes a predicate. -/
theorem predAct_done {x : IssueCtx} {srcs : List Nat} {pd : Nat} {mask : W64} {mm : Bool} {f : Nat → Bool}
    (hg : x.s.group? x.c.core x.c.slot = some x.g) (hl : x.laneFault srcs [] [] = none) (hw : x.laneWait srcs [] [] = none) (hp : pd ≠ 0) :
    x.predAct srcs pd mask mm f = .done (x.s.updGroup x.c.core x.c.slot fun _ =>
      { x.g with p := SMap.set 0 x.g.p pd ((x.g.p.get 0 pd &&& ~~~mask) ||| (laneMask x.w f &&& mask))
                 gsr := x.g.gsr ||| if mm then 0x20 else 0
                 queues := (queuesOf x.d srcs).foldl (fun qs q => qs.put q (SMap.get {} qs q).pop) x.g.queues }) := by
  unfold IssueCtx.predAct
  rw [hl, hw]
  dsimp only
  unfold State.setXrMm
  rw [popQueues_updGroup, State.updGroup_updGroup]
  congr 1
  apply State.updGroup_congr
  intro g hg'
  rw [hg] at hg'
  injection hg' with hg'
  subst hg'
  simp only [Function.comp, Bool.false_eq_true, if_false]
  unfold Group.setP
  rw [if_neg hp]
  cases mm <;> simp [Group.setGsr]

end Sys2Proof.Machine
end

