-- ==== Sys2Proof/Laws/Links.lean ====
section
/-! SUPPORT. Laws of link flits: a flit that a link builds passes the CRC check of its receiver, which reads back what was put in
(R53). -/

namespace Sys2Proof.Machine

/-- A number with 64 bits above its low part stays within the width of both. -/
theorem above_lt {low c : Nat} (a : Nat) (hl : low < 2 ^ a) (hc : c < 2 ^ 64) : low + c * 2 ^ a < 2 ^ (64 + a) := by
  have := Nat.mul_le_mul_right (2 ^ a) (Nat.succ_le_of_lt hc)
  rw [Nat.pow_add]
  rw [Nat.succ_mul] at this
  omega

/-- A header alone leaves the bytes below the CRC in range. -/
theorem body_lt {x : Nat} (h : x < 2 ^ 64) : x < 2 ^ 1984 := Nat.lt_of_lt_of_le h (Nat.pow_le_pow_right (by decide) (by decide))

/-- Bits below the upper part are those of the low part. -/
theorem low_bits {low c a lo n : Nat} (h : lo + n ≤ a) : (low + c * 2 ^ a) / 2 ^ lo % 2 ^ n = low / 2 ^ lo % 2 ^ n := by
  obtain ⟨k, rfl⟩ := Nat.exists_eq_add_of_le h
  rw [show c * 2 ^ (lo + n + k) = c * 2 ^ k * 2 ^ n * 2 ^ lo by ring, Nat.add_mul_div_right _ _ (Nat.two_pow_pos lo), Nat.add_mul_mod_self_right]

/-- The image of a flit is its low bytes with their CRC above. -/
theorem buildFlit_toNat {h : FlitHead} {slots : List (BitVec 128)} (low : flitLow h slots < 2 ^ 1984) :
    (buildFlit h slots).image.toNat = flitLow h slots + (crc64 (bytesOf 248 (flitLow h slots))).toNat * 2 ^ 1984 := by
  rw [buildFlit, BitVec.toNat_ofNat]
  exact Nat.mod_eq_of_lt (above_lt 1984 low (BitVec.isLt _))

theorem flitFld_buildFlit {h : FlitHead} {slots : List (BitVec 128)} (low : flitLow h slots < 2 ^ 1984) {lo n : Nat} (fits : lo + n ≤ 1984) :
    flitFld (buildFlit h slots) lo n = flitLow h slots / 2 ^ lo % 2 ^ n := by rw [flitFld, buildFlit_toNat low, low_bits fits]

theorem flitCrcOk_buildFlit {h : FlitHead} {slots : List (BitVec 128)} (low : flitLow h slots < 2 ^ 1984) :
    flitCrcOk (buildFlit h slots) = true := by
  have hl : (buildFlit h slots).image.toNat % 2 ^ 1984 = flitLow h slots := by
    rw [buildFlit_toNat low, Nat.add_mul_mod_self_right, Nat.mod_eq_of_lt low]
  rw [flitCrcOk, hl, beq_iff_eq]
  apply BitVec.eq_of_toNat_eq
  rw [BitVec.extractLsb'_toNat, buildFlit_toNat low, Nat.shiftRight_eq_div_pow, Nat.add_mul_div_right _ _ (Nat.two_pow_pos _), Nat.div_eq_of_lt low, Nat.zero_add]
  exact Nat.mod_eq_of_lt (BitVec.isLt _)

/-- The header that a receiver reads in the bytes below the CRC. -/
def headOf (low : Nat) : FlitHead :=
  let fld (lo n : Nat) : Nat := low / 2 ^ lo % 2 ^ n
  { kind := fld 0 2, lseq := fld 2 12, lack := fld 14 12, ctx := fld 26 9, cls := fld 35 3, rsp := fld 38 1 == 1
    crd := fld 39 8, crcls := fld 47 3, crrsp := fld 50 1 == 1, crv := fld 51 1 == 1 }

theorem flitHead_buildFlit {h : FlitHead} {slots : List (BitVec 128)} (low : flitLow h slots < 2 ^ 1984) :
    flitHead (buildFlit h slots) = headOf (flitLow h slots) := by
  have h0 (lo n : Nat) (hf : lo + n ≤ 1984) := flitFld_buildFlit low hf
  simp only [flitHead, headOf, h0 _ _ (show 0 + 2 ≤ 1984 by decide), h0 _ _ (show 2 + 12 ≤ 1984 by decide), h0 _ _ (show 14 + 12 ≤ 1984 by decide),
    h0 _ _ (show 26 + 9 ≤ 1984 by decide), h0 _ _ (show 35 + 3 ≤ 1984 by decide), h0 _ _ (show 38 + 1 ≤ 1984 by decide), h0 _ _ (show 39 + 8 ≤ 1984 by decide),
    h0 _ _ (show 47 + 3 ≤ 1984 by decide), h0 _ _ (show 50 + 1 ≤ 1984 by decide), h0 _ _ (show 51 + 1 ≤ 1984 by decide)]

end Sys2Proof.Machine
end

