-- ==== Sys2Proof/Laws/Memory.lean ====
section
/-! SUPPORT. Laws of the memory: every operation on it keeps the canonical form, a byte reads as it was written, and a
write leaves every other byte alone. -/

namespace Sys2Proof.Machine

/-! ## The canonical form -/

theorem wf_writeBytes {m : SMap Byte} (h : Memory.wf m = true) (a : Nat) (bs : List Byte) : Memory.wf (writeBytes m a bs) = true := by
  induction bs generalizing m a with
  | nil => exact h
  | cons b bs ih => exact ih (SMap.wf_set h a b) (a + 1)

theorem wf_writeMasked {m : SMap Byte} (h : Memory.wf m = true) (line : Nat) (mask : BitVec 128) (d : Line) (n : Nat) :
    Memory.wf (writeMasked m line mask d n) = true := by
  induction n with
  | zero => exact h
  | succ n ih =>
    simp only [writeMasked]
    split
    · exact SMap.wf_set ih _ _
    · exact ih

theorem MemSys.wf_dramWrite {m : MemSys} (h : Memory.wf m.cells = true) (line : Nat) (mask : BitVec 128) (d : Line) (p : BitVec 16) :
    Memory.wf (m.dramWrite line mask d p).cells = true := wf_writeMasked h line mask d 128

theorem MemSys.wf_homeWrite {m : MemSys} (h : Memory.wf m.cells = true) (sg line : Nat) (mask : BitVec 128) (d : Line) :
    Memory.wf (m.homeWrite sg line mask d).cells = true := by
  unfold MemSys.homeWrite
  split
  · exact h
  · exact MemSys.wf_dramWrite h _ _ _ _

theorem MemSys.wf_evict {m : MemSys} (h : Memory.wf m.cells = true) (line : Nat) : Memory.wf (m.evict line).cells = true := by
  unfold MemSys.evict
  split
  · exact h
  · dsimp only
    split
    · exact h
    · exact wf_writeMasked h _ _ _ _

theorem MemSys.wf_l2Alloc {m : MemSys} (h : Memory.wf m.cells = true) (mask : BitVec 16) (line : Nat) (l : L2Line) :
    Memory.wf (m.l2Alloc mask line l).cells = true := by
  unfold MemSys.l2Alloc
  split
  · exact h
  · dsimp only
    split
    · exact h
    · split
      · exact h
      · split
        · exact MemSys.wf_evict h _
        · exact h

/-- A table entry is written as 8 bytes. -/
theorem MemSys.wf_putEntry {m : MemSys} (h : Memory.wf m.cells = true) (pa : Nat) (e : W64) : Memory.wf (m.putEntry pa e).cells = true :=
  wf_writeBytes h _ _

theorem wf_writeAll {m : SMap Byte} (h : Memory.wf m = true) (es : List (Nat × Nat)) :
    Memory.wf (es.foldl (fun m (a, e) => writeBytes m a (bytesLE 8 e)) m) = true := by
  induction es generalizing m with
  | nil => exact h
  | cons e es ih => exact ih (wf_writeBytes h _ _)

/-- Placing an instruction for the next step keeps the form. -/
theorem memoryOk_withFetchWord {s : State} (h : s.memoryOk) (nbits w : Nat) : (s.withFetchWord nbits w).memoryOk := by
  have hm : ((((s.setRfld .bstat 0 3 4).setReg (.pgeo 0) 1).setReg (.ctxcfg 0) 1).setReg (.troot 0)
      (BitVec.ofNat 64 (placedRoot + 1))).msys = s.msys := by simp
  exact wf_writeBytes (wf_writeAll (by rw [hm]; exact h) _) _ _

/-- At reset memory lists nothing. -/
theorem memoryOk_reset : State.reset.memoryOk := rfl

/-! ## A read after a write -/

theorem get_writeBytes (m : SMap Byte) (a : Nat) (bs : List Byte) (j : Nat) :
    SMap.get 0 (writeBytes m a bs) j = if a ≤ j ∧ j < a + bs.length then bs[j - a]?.getD 0 else SMap.get 0 m j := by
  induction bs generalizing m a with
  | nil => simp [writeBytes]
  | cons b bs ih =>
    simp only [writeBytes, ih, SMap.get_set, List.length_cons]
    by_cases h1 : j = a
    · subst h1; simp
    · by_cases h2 : a + 1 ≤ j ∧ j < a + 1 + bs.length
      · rw [if_pos h2, if_pos (by omega), show j - a = (j - (a + 1)) + 1 by omega, List.getElem?_cons_succ]
      · rw [if_neg h2, if_neg h1, if_neg (by omega)]

theorem get_writeMasked (m : SMap Byte) (line : Nat) (mask : BitVec 128) (d : Line) {n : Nat} (hn : n ≤ 128) (j : Nat) :
    SMap.get 0 (writeMasked m line mask d n) j =
      if j / 128 = line ∧ j % 128 < n ∧ mask.getLsbD (j % 128) then d.byte (j % 128) else SMap.get 0 m j := by
  induction n with
  | zero => simp [writeMasked]
  | succ n ih =>
    have ih := ih (by omega)
    simp only [writeMasked]
    by_cases hj : j = 128 * line + n
    · have h1 : j / 128 = line := by omega
      have h2 : j % 128 = n := by omega
      cases hm : mask.getLsbD n with
      | true => simp [SMap.get_set, hj, hm, show (128 * line + n) / 128 = line by omega, show (128 * line + n) % 128 = n by omega]
      | false => rw [if_neg (by simp), ih, h1, h2, hm]; simp
    · have h3 : (j / 128 = line ∧ j % 128 < n + 1 ∧ mask.getLsbD (j % 128)) ↔ (j / 128 = line ∧ j % 128 < n ∧ mask.getLsbD (j % 128)) := by
        constructor
        · rintro ⟨a, b, c⟩; exact ⟨a, by omega, c⟩
        · rintro ⟨a, b, c⟩; exact ⟨a, by omega, c⟩
      simp only [h3]
      split
      · rw [SMap.get_set, if_neg hj, ih]
      · exact ih

/-- A byte of a channel after a masked write of a line. -/
theorem MemSys.get_dramWrite (m : MemSys) (line : Nat) (mask : BitVec 128) (d : Line) (p : BitVec 16) (j : Nat) :
    SMap.get 0 (m.dramWrite line mask d p).cells j =
      if j / 128 = line ∧ mask.getLsbD (j % 128) then d.byte (j % 128) else SMap.get 0 m.cells j := by
  show SMap.get 0 (writeMasked m.cells line mask d 128) j = _
  rw [get_writeMasked m.cells line mask d (le_refl 128) j]
  have : j % 128 < 128 := Nat.mod_lt _ (by decide)
  simp [this]

/-- The bits of a sum of whole bytes. -/
theorem testBit_byteSum (m : BitVec 128) (n k : Nat) :
    ((List.range n).foldl (fun a i => if m.getLsbD i then a + 255 * 2 ^ (8 * i) else a) 0).testBit k = (decide (k < 8 * n) && m.getLsbD (k / 8)) ∧
      (List.range n).foldl (fun a i => if m.getLsbD i then a + 255 * 2 ^ (8 * i) else a) 0 < 2 ^ (8 * n) := by
  induction n with
  | zero => simp
  | succ n ih =>
    obtain ⟨hb, hl⟩ := ih
    simp only [List.range_succ, List.foldl_append, List.foldl_cons, List.foldl_nil]
    generalize (List.range n).foldl (fun a i => if m.getLsbD i then a + 255 * 2 ^ (8 * i) else a) 0 = x at hb hl
    have hp : (2 : Nat) ^ (8 * (n + 1)) = 256 * 2 ^ (8 * n) := by rw [show 8 * (n + 1) = 8 + 8 * n by ring, pow_add]; norm_num
    have h255 : ∀ i, Nat.testBit 255 i = decide (i < 8) := fun i => Nat.testBit_two_pow_sub_one 8 i
    cases hm : m.getLsbD n with
    | true =>
      rw [if_pos rfl]
      refine ⟨?_, by rw [hp]; omega⟩
      rw [show x + 255 * 2 ^ (8 * n) = 2 ^ (8 * n) * 255 + x by ring, Nat.testBit_two_pow_mul_add _ hl]
      split
      · rename_i h; rw [hb, decide_eq_true h, decide_eq_true (show k < 8 * (n + 1) by omega)]
      · rename_i h
        rw [h255]
        by_cases hk : k < 8 * (n + 1)
        · rw [show k / 8 = n by omega, hm, decide_eq_true (show k - 8 * n < 8 by omega), decide_eq_true hk]; rfl
        · rw [decide_eq_false (show ¬ k - 8 * n < 8 by omega), decide_eq_false hk]; rfl
    | false =>
      rw [if_neg (by decide)]
      refine ⟨?_, by rw [hp]; omega⟩
      rw [hb]
      by_cases hk : k < 8 * n
      · rw [decide_eq_true hk, decide_eq_true (show k < 8 * (n + 1) by omega)]
      · rw [decide_eq_false hk]
        by_cases hk2 : k < 8 * (n + 1)
        · rw [show k / 8 = n by omega, hm]; rw [Bool.and_false, Bool.and_false]
        · rw [decide_eq_false hk2]

theorem getLsbD_spreadMask (m : BitVec 128) {k : Nat} (hk : k < 1024) : (spreadMask m).getLsbD k = m.getLsbD (k / 8) := by
  unfold spreadMask
  rw [BitVec.getLsbD_ofNat, (testBit_byteSum m 128 k).1]
  simp [hk]

/-- A merged line holds the new bytes where the mask is set, and the old elsewhere. -/
theorem byte_merge (m : BitVec 128) (new old : Line) {i : Nat} (hi : i < 128) :
    (Line.merge m new old).byte i = if m.getLsbD i then new.byte i else old.byte i := by
  unfold Line.merge Line.byte
  ext k hk
  have h1 : 8 * i + k < 1024 := by omega
  have h2 : (8 * i + k) / 8 = i := by omega
  have h3 : (spreadMask m)[8 * i + k] = m.getLsbD i := by rw [← BitVec.getLsbD_eq_getElem, getLsbD_spreadMask m h1, h2]
  cases h : m.getLsbD i <;> simp_all

/-- A byte at its home slice after the device's own write of a line. -/
theorem MemSys.homeByte_homeWrite (m : MemSys) (sg line : Nat) (mask : BitVec 128) (d : Line) (a : Nat) :
    (m.homeWrite sg line mask d).homeByte sg a =
      if a / 128 = line ∧ mask.getLsbD (a % 128) then d.byte (a % 128) else m.homeByte sg a := by
  have hi : a % 128 < 128 := Nat.mod_lt _ (by decide)
  unfold MemSys.homeWrite
  have hk : ∀ n, l2Key sg n = l2Key sg line ↔ n = line := by intro n; unfold l2Key; omega
  cases hf : m.l2Find sg line with
  | none =>
    have hl : ∀ p n, (m.dramWrite line mask d p).l2Find sg n = m.l2Find sg n := fun _ _ => rfl
    simp only [MemSys.homeByte, hl, MemSys.get_dramWrite]
    by_cases h : a / 128 = line
    · rw [h, hf]
    · simp [h]
  | some l =>
    have hp : ∀ n v, ({ m with l2 := m.l2.put (l2Key sg line) v } : MemSys).l2Find sg n = if n = line then some v else m.l2Find sg n := by
      intro n v; unfold MemSys.l2Find; simp only [SMap.find_put, hk]
    simp only [MemSys.homeByte, hp]
    by_cases h : a / 128 = line
    · simp only [h, hf, if_true, true_and, BitVec.getLsbD_or, byte_merge mask d l.data hi]
      cases mask.getLsbD (a % 128) <;> simp
    · simp [h]

/-- A write in the device's own name keeps the form. -/
theorem memoryOk_virtWrite {s : State} (h : s.memoryOk) (ctx va : Nat) (bs : List Byte) : (s.virtWrite ctx va bs).memoryOk := by
  unfold State.virtWrite
  generalize linesOf va bs.length = ls
  induction ls generalizing s with
  | nil => exact h
  | cons l ls ih =>
    refine ih ?_
    dsimp only
    split
    · split
      · exact h
      · exact MemSys.wf_homeWrite h _ _ _ _
    · exact h

end Sys2Proof.Machine
end

