-- ==== Sys2Proof/Laws/Runs.lean ====
section
/-! SUPPORT. Laws that turn what an instruction's meaning answers into how the claims speak of its issue. -/

namespace Sys2Proof.Machine

variable {i : Instr} {s e : State} {c : Cur} {g h : Group} {code : Option Nat} {inf : Group → Info} {body : IssueCtx → Act}

/-- The path that issues stands in its group's table. -/
theorem Issues.path_lt {inf : Info} (hi : Issues s c g inf) : c.path < g.paths.length := by
  by_contra hc
  have hp : g.path c.path = {} := by
    unfold Group.path
    rw [List.getElem?_eq_none (Nat.le_of_not_lt hc)]; rfl
  have := hi.clause
  unfold IssueCtx.structureError State.issuing at this
  simp [hp] at this

theorem State.group?_withGroup (s : State) (c : Cur) (f : Group → Group) :
    (s.withGroup c f).group? c.core c.slot = (s.group? c.core c.slot).map f := by
  unfold State.withGroup; rw [State.group?_updGroup_self]; rfl

theorem retires_of (hx : exec i s = issue s code inf body) (hc : code = none) (hi : Issues s c g (inf g))
    (hb : body (s.issuing c g) = .done e) (hh : e.group? c.core c.slot = some h) : Retires s c g i (inf g) e := by
  obtain ⟨t, ht, hr⟩ := issue_retires (s := s) hc hi hb hh
  exact ⟨t, hx.trans ht, hr⟩

/-- An instruction that changes its group and retires. -/
theorem retires_withGroup {f : Group → Group} (hx : exec i s = issue s code inf body) (hc : code = none) (hi : Issues s c g (inf g))
    (hb : body (s.issuing c g) = .done (s.withGroup c f)) : Retires s c g i (inf g) (s.withGroup c f) :=
  retires_of (h := f g) hx hc hi hb (by rw [State.group?_withGroup, hi.group]; rfl)

/-- An instruction with no effect but to retire. -/
theorem retires_off (hx : exec i s = issue s code inf body) (hc : code = none) (hi : Issues s c g (inf g))
    (hb : body (s.issuing c g) = .done s.off) : Retires s c g i (inf g) s.off :=
  retires_of (h := g) hx hc hi hb hi.group

theorem transfers_of {pc : W64} (hx : exec i s = issue s code inf body) (hc : code = none) (hi : Issues s c g (inf g))
    (hb : body (s.issuing c g) = .jump e pc) (hh : e.group? c.core c.slot = some h) (hl : h.paths.length = g.paths.length) :
    Transfers s c g i (inf g) e pc := by
  obtain ⟨t, ht, hr⟩ := issue_transfers (s := s) hc hi hb hh (hl ▸ hi.path_lt)
  exact ⟨t, hx.trans ht, hr⟩

theorem stays_of (hx : exec i s = issue s code inf body) (hc : code = none) (hi : Issues s c g (inf g))
    (hb : body (s.issuing c g) = .stay e) (hh : e.group? c.core c.slot = some h) : Stays s c g i (inf g) e := by
  obtain ⟨t, ht, hr⟩ := issue_stays (s := s) hc hi hb hh
  exact ⟨t, hx.trans ht, hr⟩

theorem traps_of {cls det : Nat} {va : W64} (hx : exec i s = issue s code inf body) (hc : code = none) (hi : Issues s c g (inf g))
    (hb : body (s.issuing c g) = .trap cls va det) : Traps s c g i cls va det :=
  hx.trans (issue_traps hc hi hb)

theorem parks_of {a : Await} (hx : exec i s = issue s code inf body) (hc : code = none) (hi : Issues s c g (inf g))
    (hb : body (s.issuing c g) = .park a) : Parks s c i a :=
  hx.trans (issue_parks hc hi hb)

/-- A parcel whose encoding is no instruction raises class 1 with its code (R275). -/
theorem traps_code {k : Nat} (hx : exec i s = issue s code inf body) (hc : code = some k) (hi : Issues s c g (inf g)) :
    Traps s c g i 1 0 k := by
  subst hc
  have hl : ((s.issuing c g).p.left == 0) = false := by
    have := hi.clause
    unfold IssueCtx.structureError at this
    simp only [Bool.or_eq_false_iff] at this
    exact this.1.1
  have hg : ({ s with cur := none } : State).group? c.core c.slot = some g := hi.group
  unfold Traps
  rw [hx]
  unfold issue issueAt
  simp only [hi.cur, hg, hi.execute, hi.late, Option.isSome_none, Bool.false_eq_true, if_false]
  have hl' : ((g.path c.path).left == 0) = false := hl
  simp only [hl', Bool.false_eq_true, if_false]

end Sys2Proof.Machine
end

