-- ==== Sys2Proof/Tests/Slice0.lean ====
section
/-! SUPPORT. Tests of the decoder, the checks of well-formedness and single steps, with expected results worked out
from the chapters; and, for each claim with hypotheses, a state and operands that meet them. -/

namespace Sys2Proof.Tests

open Sys2Proof Sys2Proof.Machine

set_option Elab.async false

/-! ## Decoding (R260 to R274)

Each list holds one word for every row of a major opcode: the fixed bits that chapter 13 prints for the row, with operand
bits set, and the instruction that its format reads from them. -/

noncomputable def decodesAs (nbits : Nat) (ws : List (Nat × Instr)) : Bool := ws.all fun e => decodeTableWord nbits e.1 == some e.2

theorem test_decode_major0_1 : decodesAs 32
  [(0xB90C4801, .vadd { sp := 1, pred := 1, b := 50, a := 6, d := 9 }),
   (0x43B62041, .vsub { sp := 0, pred := 2, b := 7, a := 27, d := 4 }),
   (0x7A90F081, .vmul { sp := 0, pred := 3, b := 53, a := 8, d := 30 }),
   (0x639EE0C1, .vmulhS32 { sp := 0, pred := 3, b := 7, a := 15, d := 28 }),
   (0x63382901, .vmad { sp := 0, pred := 3, b := 6, a := 28, d := 5 }),
   (0x5AA47941, .vand { sp := 0, pred := 2, b := 53, a := 18, d := 15 }),
   (0xA6B17981, .vor { sp := 1, pred := 1, b := 13, a := 24, d := 47 }),
   (0x03B5F9C1, .vxor { sp := 0, pred := 0, b := 7, a := 26, d := 63 }),
   (0xC077D201, .vnot { sp := 1, pred := 2, a := 59, d := 58 }),
   (0xCFAEFA41, .vshl { sp := 1, pred := 2, b := 31, a := 23, d := 31 }),
   (0x5FD7CA81, .vshr { sp := 0, pred := 2, b := 63, a := 43, d := 57 }),
   (0x87EAAAC1, .vsar { sp := 1, pred := 0, b := 15, a := 53, d := 21 }),
   (0xBF6A2B01, .vminS32 { sp := 1, pred := 1, b := 62, a := 53, d := 5 }),
   (0x55D9FB41, .vmaxS32 { sp := 0, pred := 2, b := 43, a := 44, d := 63 }),
   (0x80171381, .vabs { sp := 1, pred := 0, a := 11, d := 34 }),
   (0x83CFCBC1, .vaddsS32 { sp := 1, pred := 0, b := 7, a := 39, d := 57 })] = true := by decide +kernel

theorem test_decode_major0_2 : decodesAs 32
  [(0xF605DC01, .vsubsS32 { sp := 1, pred := 3, b := 44, a := 2, d := 59 }),
   (0xA77E1C41, .vcmp { sp := 1, pred := 1, b := 14, a := 63, c := 0, d := 3 }),
   (0xAFE59481, .vsel { sp := 1, pred := 1, b := 31, a := 50, d := 50 }),
   (0x802BCCC1, .vmov { sp := 1, pred := 0, a := 21, d := 57 }),
   (0x892204C1, .vmovMbs { sp := 1, n := 2, a := 17 }),
   (0x9101ACC1, .vmovMbg { sp := 1, n := 2, d := 53 }),
   (0xEEA65501, .vli { sp := 1, pred := 3, j := 29, i := 19, d := 10 }),
   (0x2EBA0D41, .vbfe { sp := 0, pred := 1, b := 29, a := 29, d := 1 }),
   (0xB0C80581, .vbfi { sp := 1, pred := 1, b := 33, a := 36, d := 0 }),
   (0x62D085C1, .vclz { sp := 0, pred := 3, w := 5, a := 40, d := 16 }),
   (0x63659E01, .vctz { sp := 0, pred := 3, w := 6, a := 50, d := 51 }),
   (0x83E63E41, .vffs { sp := 1, pred := 0, w := 7, a := 51, d := 7 }),
   (0x01F0A681, .vpopc { sp := 0, pred := 0, w := 3, a := 56, d := 20 }),
   (0x431A06C1, .vdot4S8 { sp := 0, pred := 2, b := 6, a := 13, d := 0 })] = true := by decide +kernel

theorem test_decode_major1_1 : decodesAs 32
  [(0x17064803, .vaddVu { sp := 0, pred := 0, b := 46, a := 3, d := 9 }),
   (0x69C16043, .vsubVu { sp := 0, pred := 3, b := 19, a := 32, d := 44 }),
   (0xE79DF083, .vmulVu { sp := 1, pred := 3, b := 15, a := 14, d := 62 }),
   (0xFECE50C3, .vmulhS32Vu { sp := 1, pred := 3, b := 61, a := 39, d := 10 }),
   (0x15C3E903, .vmadVu { sp := 0, pred := 0, b := 43, a := 33, d := 61 }),
   (0x0D5C9143, .vandVu { sp := 0, pred := 0, b := 26, a := 46, d := 18 }),
   (0x45C37183, .vorVu { sp := 0, pred := 2, b := 11, a := 33, d := 46 }),
   (0x4E54E1C3, .vxorVu { sp := 0, pred := 2, b := 28, a := 42, d := 28 }),
   (0x39BACA43, .vshlVu { sp := 0, pred := 1, b := 51, a := 29, d := 25 }),
   (0xC1871A83, .vshrVu { sp := 1, pred := 2, b := 3, a := 3, d := 35 }),
   (0xCC59CAC3, .vsarVu { sp := 1, pred := 2, b := 24, a := 44, d := 57 }),
   (0xC5386B03, .vminS32Vu { sp := 1, pred := 2, b := 10, a := 28, d := 13 }),
   (0x6CD6D343, .vmaxS32Vu { sp := 0, pred := 3, b := 25, a := 43, d := 26 }),
   (0x9ED853C3, .vaddsS32Vu { sp := 1, pred := 0, b := 61, a := 44, d := 10 }),
   (0x6CFAB403, .vsubsS32Vu { sp := 0, pred := 3, b := 25, a := 61, d := 22 }),
   (0xC5E5F443, .vcmpVu { sp := 1, pred := 2, b := 11, a := 50, c := 7, d := 6 })] = true := by decide +kernel

theorem test_decode_major1_2 : decodesAs 32
  [(0x2AA01C83, .vselVu { sp := 0, pred := 1, b := 21, a := 16, d := 3 }),
   (0x69796543, .vbfeVu { sp := 0, pred := 3, b := 18, a := 60, d := 44 }),
   (0x21026D83, .vbfiVu { sp := 0, pred := 1, b := 2, a := 1, d := 13 }),
   (0x6C361EC3, .vdot4S8Vu { sp := 0, pred := 3, b := 24, a := 27, d := 3 })] = true := by decide +kernel

theorem test_decode_major2_1 : decodesAs 32
  [(0xB2BD4805, .faddF32 { sp := 1, pred := 1, b := 37, a := 30, d := 41 }),
   (0xE80F6845, .fsubF32 { sp := 1, pred := 3, b := 16, a := 7, d := 45 }),
   (0xE8261085, .fmulF32 { sp := 1, pred := 3, b := 16, a := 19, d := 2 }),
   (0xA026B0C5, .faccF32 { sp := 1, pred := 1, b := 0, a := 19, d := 22 }),
   (0x678F4905, .fminF32 { sp := 0, pred := 3, b := 15, a := 7, d := 41 }),
   (0x83BEC145, .fmaxF32 { sp := 1, pred := 0, b := 7, a := 31, d := 24 }),
   (0x8019C985, .fneg { sp := 1, pred := 0, a := 12, d := 57 }),
   (0x007149C5, .fabs { sp := 0, pred := 0, a := 56, d := 41 }),
   (0x5CFAE205, .fcmp { sp := 0, pred := 2, b := 57, a := 61, c := 3, d := 4 }),
   (0x6023AA45, .fclass { sp := 0, pred := 3, a := 17, d := 53 }),
   (0x7C504A85, .fscale { sp := 0, pred := 3, b := 56, a := 40, d := 9 }),
   (0x60B732C5, .frnd { sp := 0, pred := 3, o := 1, a := 27, d := 38 }),
   (0x37250305, .fdot2F16 { sp := 0, pred := 1, b := 46, a := 18, d := 32 }),
   (0x6E199345, .fdot2Bf16 { sp := 0, pred := 3, b := 28, a := 12, d := 50 }),
   (0xAE29BB85, .faddF16x2 { sp := 1, pred := 1, b := 28, a := 20, d := 55 }),
   (0xDAB36BC5, .fsubF16x2 { sp := 1, pred := 2, b := 53, a := 25, d := 45 })] = true := by decide +kernel

theorem test_decode_major2_2 : decodesAs 32
  [(0x97055C05, .fmulF16x2 { sp := 1, pred := 0, b := 46, a := 2, d := 43 }),
   (0xE1635445, .faccF16x2 { sp := 1, pred := 3, b := 2, a := 49, d := 42 }),
   (0x873A6C85, .faddBf16x2 { sp := 1, pred := 0, b := 14, a := 29, d := 13 }),
   (0x510ABCC5, .fsubBf16x2 { sp := 0, pred := 2, b := 34, a := 5, d := 23 }),
   (0xBB439D05, .fmulBf16x2 { sp := 1, pred := 1, b := 54, a := 33, d := 51 }),
   (0x74971D45, .faccBf16x2 { sp := 0, pred := 3, b := 41, a := 11, d := 35 }),
   (0x206C4D85, .rcp { sp := 0, pred := 1, a := 54, d := 9 }),
   (0x80170DC5, .rsq { sp := 1, pred := 0, a := 11, d := 33 }),
   (0x20110E05, .sqrt { sp := 0, pred := 1, a := 8, d := 33 }),
   (0x60035E45, .exp2 { sp := 0, pred := 3, a := 1, d := 43 }),
   (0xC0202E85, .log2 { sp := 1, pred := 2, a := 16, d := 5 }),
   (0x00290EC5, .sin { sp := 0, pred := 0, a := 20, d := 33 }),
   (0x20333F05, .cos { sp := 0, pred := 1, a := 25, d := 39 }),
   (0xA04BCF45, .tanh { sp := 1, pred := 1, a := 37, d := 57 })] = true := by decide +kernel

theorem test_decode_major3_1 : decodesAs 32
  [(0x56050007, .faddF32Vu { sp := 0, pred := 2, b := 44, a := 2, d := 32 }),
   (0x0131E047, .fsubF32Vu { sp := 0, pred := 0, b := 2, a := 24, d := 60 }),
   (0x66EFF887, .fmulF32Vu { sp := 0, pred := 3, b := 13, a := 55, d := 63 }),
   (0xCDBB58C7, .faccF32Vu { sp := 1, pred := 2, b := 27, a := 29, d := 43 }),
   (0x39D83107, .fminF32Vu { sp := 0, pred := 1, b := 51, a := 44, d := 6 }),
   (0x04C1B947, .fmaxF32Vu { sp := 0, pred := 0, b := 9, a := 32, d := 55 }),
   (0x05611A07, .fcmpVu { sp := 0, pred := 0, b := 10, a := 48, c := 4, d := 3 }),
   (0x9D2EA287, .fscaleVu { sp := 1, pred := 0, b := 58, a := 23, d := 20 }),
   (0xE0437307, .fdot2F16Vu { sp := 1, pred := 3, b := 0, a := 33, d := 46 }),
   (0xCF893B47, .fdot2Bf16Vu { sp := 1, pred := 2, b := 31, a := 4, d := 39 }),
   (0x4B815387, .faddF16x2Vu { sp := 0, pred := 2, b := 23, a := 0, d := 42 }),
   (0x9E46CBC7, .fsubF16x2Vu { sp := 1, pred := 0, b := 60, a := 35, d := 25 }),
   (0x05C25C07, .fmulF16x2Vu { sp := 0, pred := 0, b := 11, a := 33, d := 11 }),
   (0x62E41447, .faccF16x2Vu { sp := 0, pred := 3, b := 5, a := 50, d := 2 }),
   (0xCE949C87, .faddBf16x2Vu { sp := 1, pred := 2, b := 29, a := 10, d := 19 }),
   (0xDFA724C7, .fsubBf16x2Vu { sp := 1, pred := 2, b := 63, a := 19, d := 36 })] = true := by decide +kernel

theorem test_decode_major3_2 : decodesAs 32
  [(0x1B221507, .fmulBf16x2Vu { sp := 0, pred := 0, b := 54, a := 17, d := 2 }),
   (0x018A8D47, .faccBf16x2Vu { sp := 0, pred := 0, b := 3, a := 5, d := 17 })] = true := by decide +kernel

theorem test_decode_major4_1 : decodesAs 32
  [(0x998C1009, .cvtToF32 { sp := 1, pred := 0, t := 12, i := 3, a := 6, d := 2 }),
   (0x70744049, .cvtFromF32 { sp := 0, pred := 3, o := 4, t := 0, a := 58, d := 8 }),
   (0x1E130889, .cvtInt { sp := 0, pred := 0, y := 7, x := 4, a := 9, d := 33 }),
   (0x2F7B20C9, .cvtF16F8 { sp := 0, pred := 1, o := 1, h := 1, w := 1, e := 1, f := 0, a := 61, d := 36 }),
   (0x21550109, .pack2 { sp := 0, pred := 1, o := 1, t := 0, a := 42, d := 32 }),
   (0xA17D1149, .pack4 { sp := 1, pred := 1, o := 0, t := 1, tlo := 0, a := 62, d := 34 }),
   (0x3E77D989, .unpk { sp := 0, pred := 1, j := 3, o := 1, y := 4, a := 59, d := 59 }),
   (0x80CE51C9, .pk6 { sp := 1, pred := 0, j := 1, a := 39, d := 10 }),
   (0x81744A09, .upk6 { sp := 1, pred := 0, j := 2, a := 58, d := 9 }),
   (0xC0620249, .cbset { sp := 1, pred := 2, a := 49 }),
   (0x20969289, .cbenc { sp := 0, pred := 1, n := 1, a := 11, d := 18 }),
   (0xC84672C9, .shfl { sp := 1, pred := 2, b := 16, a := 35, d := 14 }),
   (0xA18F9309, .vote { sp := 1, pred := 1, o := 3, a := 7, d := 50 }),
   (0x207DCB49, .bcast { sp := 0, pred := 1, k := 0, a := 62, d := 57 }),
   (0xC0009389, .lanei { sp := 1, pred := 2, d := 18 }),
   (0xC3507BC9, .redu { sp := 1, pred := 2, o := 6, a := 40, d := 15 })] = true := by decide +kernel

theorem test_decode_major4_2 : decodesAs 32
  [(0x86E47C09, .scan { sp := 1, pred := 0, e := 1, o := 5, a := 50, d := 15 }),
   (0x02082C49, .pand { sp := 0, pred := 0, b := 4, a := 4, d := 5 }),
   (0x63022C89, .por { sp := 0, pred := 3, b := 6, a := 1, d := 5 }),
   (0xC0080CC9, .pxor { sp := 1, pred := 2, b := 0, a := 4, d := 1 }),
   (0x40041D09, .pnot { sp := 0, pred := 2, a := 2, d := 3 }),
   (0xE00A1D49, .pmov { sp := 1, pred := 3, a := 5, d := 3 })] = true := by decide +kernel

theorem test_decode_major5 : decodesAs 32
  [(0xE1E6D2CB, .shflVu { sp := 1, pred := 3, b := 3, a := 51, d := 26 })] = true := by decide +kernel

theorem test_decode_major6_1 : decodesAs 32
  [(0x1A72880D, .vmulhZ32 { sp := 0, pred := 0, b := 52, a := 57, d := 17 }),
   (0xE320A84D, .vminZ32 { sp := 1, pred := 3, b := 6, a := 16, d := 21 }),
   (0xF5C9308D, .vmaxZ32 { sp := 1, pred := 3, b := 43, a := 36, d := 38 }),
   (0xD9BD30CD, .vaddsZ32 { sp := 1, pred := 2, b := 51, a := 30, d := 38 }),
   (0xE7AAA10D, .vsubsZ32 { sp := 1, pred := 3, b := 15, a := 21, d := 20 }),
   (0x3FB9C94D, .vdot4Z8 { sp := 0, pred := 1, b := 63, a := 28, d := 57 }),
   (0xFB22C20D, .vaddI16x2 { sp := 1, pred := 3, b := 54, a := 17, d := 24 }),
   (0x0B565A4D, .vsubI16x2 { sp := 0, pred := 0, b := 22, a := 43, d := 11 }),
   (0xB7C2CA8D, .vmulI16x2 { sp := 1, pred := 1, b := 47, a := 33, d := 25 }),
   (0x78E8D2CD, .vminS16x2 { sp := 0, pred := 3, b := 49, a := 52, d := 26 }),
   (0xD58FFB0D, .vmaxS16x2 { sp := 1, pred := 2, b := 43, a := 7, d := 63 }),
   (0xC8365B4D, .vminZ16x2 { sp := 1, pred := 2, b := 16, a := 27, d := 11 }),
   (0xB8E7CB8D, .vmaxZ16x2 { sp := 1, pred := 1, b := 49, a := 51, d := 57 }),
   (0xC12023CD, .vaddsS16x2 { sp := 1, pred := 2, b := 2, a := 16, d := 4 }),
   (0xFF004C0D, .vsubsS16x2 { sp := 1, pred := 3, b := 62, a := 0, d := 9 }),
   (0xFCBE6C4D, .vaddsZ16x2 { sp := 1, pred := 3, b := 57, a := 31, d := 13 })] = true := by decide +kernel

theorem test_decode_major6_2 : decodesAs 32
  [(0x299BD48D, .vsubsZ16x2 { sp := 0, pred := 1, b := 19, a := 13, d := 58 }),
   (0x0020ECCD, .vaddI8x4 { sp := 0, pred := 0, b := 0, a := 16, d := 29 }),
   (0x4841BD0D, .vsubI8x4 { sp := 0, pred := 2, b := 16, a := 32, d := 55 }),
   (0x04CCC54D, .vmulI8x4 { sp := 0, pred := 0, b := 9, a := 38, d := 24 }),
   (0xCE000D8D, .vminS8x4 { sp := 1, pred := 2, b := 28, a := 0, d := 1 }),
   (0xF1D0FDCD, .vmaxS8x4 { sp := 1, pred := 3, b := 35, a := 40, d := 31 }),
   (0xAF87A60D, .vminZ8x4 { sp := 1, pred := 1, b := 31, a := 3, d := 52 }),
   (0x8131FE4D, .vmaxZ8x4 { sp := 1, pred := 0, b := 2, a := 24, d := 63 }),
   (0x903BB68D, .vaddsS8x4 { sp := 1, pred := 0, b := 32, a := 29, d := 54 }),
   (0xBF895ECD, .vsubsS8x4 { sp := 1, pred := 1, b := 63, a := 4, d := 43 }),
   (0xD932070D, .vaddsZ8x4 { sp := 1, pred := 2, b := 50, a := 25, d := 0 }),
   (0x8D7ECF4D, .vsubsZ8x4 { sp := 1, pred := 0, b := 26, a := 63, d := 25 })] = true := by decide +kernel

theorem test_decode_major7_1 : decodesAs 32
  [(0xAEF6E00F, .vmulhZ32Vu { sp := 1, pred := 1, b := 29, a := 59, d := 28 }),
   (0xC6FEB84F, .vminZ32Vu { sp := 1, pred := 2, b := 13, a := 63, d := 23 }),
   (0x7A8E908F, .vmaxZ32Vu { sp := 0, pred := 3, b := 53, a := 7, d := 18 }),
   (0x8D8690CF, .vaddsZ32Vu { sp := 1, pred := 0, b := 27, a := 3, d := 18 }),
   (0x83AF910F, .vsubsZ32Vu { sp := 1, pred := 0, b := 7, a := 23, d := 50 }),
   (0xC714A94F, .vdot4Z8Vu { sp := 1, pred := 2, b := 14, a := 10, d := 21 }),
   (0xABF6220F, .vaddI16x2Vu { sp := 1, pred := 1, b := 23, a := 59, d := 4 }),
   (0xF7D5C24F, .vsubI16x2Vu { sp := 1, pred := 3, b := 47, a := 42, d := 56 }),
   (0x00151A8F, .vmulI16x2Vu { sp := 0, pred := 0, b := 0, a := 10, d := 35 }),
   (0x5A9ED2CF, .vminS16x2Vu { sp := 0, pred := 2, b := 53, a := 15, d := 26 }),
   (0xD3EE5B0F, .vmaxS16x2Vu { sp := 1, pred := 2, b := 39, a := 55, d := 11 }),
   (0x6CDFCB4F, .vminZ16x2Vu { sp := 0, pred := 3, b := 25, a := 47, d := 57 }),
   (0x57781B8F, .vmaxZ16x2Vu { sp := 0, pred := 2, b := 46, a := 60, d := 3 }),
   (0xB98B83CF, .vaddsS16x2Vu { sp := 1, pred := 1, b := 51, a := 5, d := 48 }),
   (0x640F040F, .vsubsS16x2Vu { sp := 0, pred := 3, b := 8, a := 7, d := 32 }),
   (0x15DD144F, .vaddsZ16x2Vu { sp := 0, pred := 0, b := 43, a := 46, d := 34 })] = true := by decide +kernel

theorem test_decode_major7_2 : decodesAs 32
  [(0x90D11C8F, .vsubsZ16x2Vu { sp := 1, pred := 0, b := 33, a := 40, d := 35 }),
   (0x8406ECCF, .vaddI8x4Vu { sp := 1, pred := 0, b := 8, a := 3, d := 29 }),
   (0x7DE3050F, .vsubI8x4Vu { sp := 0, pred := 3, b := 59, a := 49, d := 32 }),
   (0xE87EBD4F, .vmulI8x4Vu { sp := 1, pred := 3, b := 16, a := 63, d := 23 }),
   (0x49BD4D8F, .vminS8x4Vu { sp := 0, pred := 2, b := 19, a := 30, d := 41 }),
   (0xF714CDCF, .vmaxS8x4Vu { sp := 1, pred := 3, b := 46, a := 10, d := 25 }),
   (0xAFE8460F, .vminZ8x4Vu { sp := 1, pred := 1, b := 31, a := 52, d := 8 }),
   (0x74A9B64F, .vmaxZ8x4Vu { sp := 0, pred := 3, b := 41, a := 20, d := 54 }),
   (0x1094D68F, .vaddsS8x4Vu { sp := 0, pred := 0, b := 33, a := 10, d := 26 }),
   (0x7FF2B6CF, .vsubsS8x4Vu { sp := 0, pred := 3, b := 63, a := 57, d := 22 }),
   (0x3AF4F70F, .vaddsZ8x4Vu { sp := 0, pred := 1, b := 53, a := 58, d := 30 }),
   (0x52C7174F, .vsubsZ8x4Vu { sp := 0, pred := 2, b := 37, a := 35, d := 34 })] = true := by decide +kernel

theorem test_decode_major8 : decodesAs 32
  [(0xBE828511, .uadd { b := 190, a := 130, d := 133 }),
   (0x65E07E51, .usub { b := 101, a := 224, d := 126 }),
   (0x5F7D7891, .umul { b := 95, a := 125, d := 120 }),
   (0x4E9060D1, .umulh { b := 78, a := 144, d := 96 })] = true := by decide +kernel

theorem test_decode_major9 : decodesAs 32
  [(0xA721CA13, .umad { b := 167, a := 33, d := 202 }),
   (0x807D7653, .uand { b := 128, a := 125, d := 118 }),
   (0x33ED1293, .uor { b := 51, a := 237, d := 18 }),
   (0x3402F3D3, .uxor { b := 52, a := 2, d := 243 })] = true := by decide +kernel

theorem test_decode_major10 : decodesAs 32
  [(0x76E5BF15, .ushl { b := 118, a := 229, d := 191 }),
   (0x14967755, .ushr { b := 20, a := 150, d := 119 }),
   (0x3D196195, .usar { b := 61, a := 25, d := 97 }),
   (0x6326BED5, .umin { b := 99, a := 38, d := 190 })] = true := by decide +kernel

theorem test_decode_major11 : decodesAs 32
  [(0x5BE58517, .umax { b := 91, a := 229, d := 133 }),
   (0x03362D57, .ucmp { b := 3, a := 54, c := 11, k := 1 }),
   (0x04AB4897, .usel { b := 4, k := 2, a := 43, d := 72 }),
   (0x001668D7, .umov { a := 22, d := 104 })] = true := by decide +kernel

theorem test_decode_major12 : decodesAs 32
  [(0x00821319, .uclz { a := 130, d := 19 }),
   (0x00680559, .upopc { a := 104, d := 5 }),
   (0xA7D1BE99, .ubfe { b := 167, a := 209, d := 190 })] = true := by decide +kernel

theorem test_decode_major13 : decodesAs 32
  [(0x5E9F271B, .uld { b := 94, a := 159, d := 39 }),
   (0x6810FD5B, .ust { b := 104, a := 16, d := 253 })] = true := by decide +kernel

theorem test_decode_major14 : decodesAs 32
  [(0xF78E201D, .uli { i := 63374, d := 32 }),
   (0xD0FB335D, .ulih { i := 53499, d := 51 }),
   (0xCA644F9D, .uaddi { i := 51812, d := 79 }),
   (0x2EAB53DD, .urds { i := 11947, d := 83 })] = true := by decide +kernel

theorem test_decode_major15 : decodesAs 32
  [(0xCBA88A1F, .uwrs { i := 52136, d := 138 }),
   (0x0000005F, .racq),
   (0x0000009F, .rrel),
   (0x0000D1DF, .rdpm { d := 209 })] = true := by decide +kernel

theorem test_decode_major16 : decodesAs 32
  [(0x910CDC21, .bra { o := 297062, g := 1, n := 6 }),
   (0x1A4BEC61, .brak { o := 53855, g := 1, k := 2 }),
   (0xD40250A1, .brx { o := 434194, g := 1, n := 0 }),
   (0x000000E1, .join),
   (0xBA418D21, .call { o := 381452, c := 6 })] = true := by decide +kernel

theorem test_decode_major17 : decodesAs 32
  [(0x00001823, .jmpi { c := 12 }),
   (0x00001863, .ret { c := 12 }),
   (0x000006A3, .exit { n := 3 }),
   (0x03025AE3, .yieldd { o := 6162, e := 13 }),
   (0x0006C723, .waitmem { e := 0, v := 54, c := 3 }),
   (0x2E547963, .sleep { o := 94883, e := 12 }),
   (0x00BAA1A3, .bar { v := 46, x := 1, b := 5 }),
   (0x004023A3, .bara { v := 16, x := 0, b := 1 }),
   (0x000085A3, .barw { b := 4 }),
   (0x000001E3, .nop),
   (0xCB1EC3E3, .trap { n := 415990 }),
   (0x000005E3, .bkpt)] = true := by decide +kernel

theorem test_decode_major18 : decodesAs 32
  [(0x44AC9065, .ldgReg { sp := 0, pred := 2, l := 0, n := 18, b := 44, d := 36, z := 1 }),
   (0x0C7E6565, .ldgSxReg { sp := 0, pred := 0, l := 0, n := 49, b := 62, d := 25, z := 1 }),
   (0x1A06C625, .stgReg { sp := 0, pred := 0, l := 1, n := 40, b := 6, d := 49, z := 0 })] = true := by decide +kernel

theorem test_decode_major19 : decodesAs 32
  [(0x367C5C67, .ldgImm { sp := 0, pred := 1, l := 1, i := 25, b := 60, d := 23, z := 1 }),
   (0x6C6D3D27, .ldgSxImm { sp := 0, pred := 3, l := 0, i := 49, b := 45, d := 15, z := 0 }),
   (0x21293EE7, .stgImm { sp := 0, pred := 1, l := 0, i := 4, b := 41, d := 15, z := 3 })] = true := by decide +kernel

theorem test_decode_major20 : decodesAs 32
  [(0xD9DFD8E9, .ldsp { sp := 1, pred := 2, l := 1, n := 39, i := 31, d := 54, z := 3 }),
   (0xF5820169, .ldspSx { sp := 1, pred := 3, l := 1, n := 22, i := 2, d := 0, z := 1 }),
   (0xBE96F2E9, .stsp { sp := 1, pred := 1, l := 1, n := 58, i := 22, d := 60, z := 3 })] = true := by decide +kernel

theorem test_decode_major21 : decodesAs 32
  [(0x0B77B8AB, .atom { sp := 0, c := 0, l := 0, n := 45, b := 55, d := 46, o := 2 })] = true := by decide +kernel

theorem test_decode_major22 : decodesAs 32
  [(0x840AA0AD, .red { sp := 1, c := 0, l := 0, n := 16, b := 10, d := 40, o := 2 })] = true := by decide +kernel

theorem test_decode_major23 : decodesAs 32
  [(0x60C839AF, .atsp { sp := 0, c := 3, l := 0, n := 3, i := 8, d := 14, o := 6 })] = true := by decide +kernel

theorem test_decode_major24 : decodesAs 32
  [(0x755C0031, .pref { sp := 0, pred := 3, l := 1, n := 21, b := 28 }),
   (0x02800871, .fence { sp := 0, g := 2, k := 2, t := 2 }),
   (0x800010B1, .fwait { sp := 1, t := 4 }),
   (0x801210F1, .waitc { sp := 1, v := 18, c := 4 }),
   (0x801A2131, .spmap { sp := 1, b := 26, r := 8 }),
   (0x102F1971, .spfill { sp := 0, l := 1, b := 47, g := 0, r := 6 }),
   (0x101469B1, .spwb { sp := 0, l := 1, b := 20, g := 1, r := 10 }),
   (0x80154DF1, .spinv { sp := 1, b := 21, g := 1, r := 3 }),
   (0x10390231, .cpy { sp := 0, l := 1, b := 57 }),
   (0x10320271, .chain { sp := 0, l := 1, b := 50 }),
   (0x80210EB1, .mbsetSend { sp := 1, a := 33, n := 3 }),
   (0x80121AB1, .mbsetRecv { sp := 1, a := 18, n := 2 }),
   (0x800A2EB1, .mbsetRoute { sp := 1, a := 10, n := 3 }),
   (0x000032B1, .mbsetLocal { sp := 0 }),
   (0x00000AF1, .mbpoll { sp := 0, k := 0, n := 2 }),
   (0x921C0331, .coll { sp := 1, l := 1, g := 2, r := 0, e := 0, b := 28 })] = true := by decide +kernel

theorem test_decode_major25 : decodesAs 32
  [(0x03DD4A33, .afor { g := 1, c := 1, k := 13, a := 53, x := 5 }),
   (0x00000073, .anext { x := 0 }),
   (0x439036B3, .aldq { i := 1081, q := 3, x := 3 }),
   (0x175000F3, .astq { i := 373, q := 0, x := 0 }),
   (0x015B4933, .aset { i := 21, a := 45, x := 4 }),
   (0x367B4D73, .ainc { i := 871, a := 45, f := 0, x := 6 }),
   (0x046001B3, .asig { g := 2, c := 0, k := 6 }),
   (0x000001F3, .ahalt)] = true := by decide +kernel

theorem test_decode_major26 : decodesAs 32
  [(0x00000035, .mbank),
   (0x00000075, .mfree),
   (0x000174B5, .mzero { r := 93 }),
   (0xF01098F5, .mld { b := 60, g := 1, l := 0, e := 0, c := 0, r := 38 }),
   (0xE4039935, .mst { b := 57, g := 0, l := 0, e := 0, c := 1, r := 102 }),
   (0x02100175, .mmask { d := 33 }),
   (0x047BC5B5, .mma { b := 1, a := 7, t := 5, r := 113 }),
   (0xFDF401F5, .mml { k := 63, l := 31, t := 2, r := 0 }),
   (0x14701A35, .msca { b := 5, a := 7, r := 6 }),
   (0x1976A275, .mcvt { o := 6, d := 23, t := 3, r := 40 })] = true := by decide +kernel

theorem test_decode_major27_1 : decodesAs 32
  [(0x00589037, .dld { sp := 0, l := 0, b := 1, a := 12, x := 18 }),
   (0x8D573877, .dst { sp := 1, l := 0, b := 53, a := 11, x := 39 }),
   (0x098618B7, .dfromv { sp := 0, b := 38, a := 3, t := 3 }),
   (0x61CBC8F7, .dtov { sp := 0, r := 6, k := 1, t := 3, a := 5, x := 57 }),
   (0x001C6937, .dmov { sp := 0, a := 14, x := 13 }),
   (0x87447977, .dadd { sp := 1, b := 29, a := 2, x := 15 }),
   (0x884711B7, .dsub { sp := 1, b := 33, a := 3, x := 34 }),
   (0x8864D9F7, .dmix { sp := 1, b := 33, a := 18, x := 27 }),
   (0x00550A37, .dhad { sp := 0, b := 1, a := 10, x := 33 }),
   (0x0640A277, .dscl { sp := 0, b := 25, x := 20 }),
   (0x86018AB7, .dsetn { sp := 1, b := 24, x := 49 }),
   (0x801F82F7, .dnrm { sp := 1, a := 15, x := 48 }),
   (0xF003BB37, .ddot { sp := 1, r := 7, b := 0, a := 1, x := 55 }),
   (0x46F24B77, .ddotf { sp := 0, r := 4, b := 27, a := 25, x := 9 }),
   (0x04841BB7, .dproj { sp := 0, b := 18, a := 2, x := 3 }),
   (0x035563F7, .drefl { sp := 0, b := 13, a := 10, x := 44 })] = true := by decide +kernel

theorem test_decode_major27_2 : decodesAs 32
  [(0x00020437, .dtest { sp := 0, c := 0, a := 1, k := 0 })] = true := by decide +kernel

theorem test_decode_major28 : decodesAs 32
  [(0x040A4039, .faddF32Rz { sp := 0, pred := 0, b := 8, a := 5, d := 8 }),
   (0xA4626879, .fsubF32Rz { sp := 1, pred := 1, b := 8, a := 49, d := 13 }),
   (0x2D1C20B9, .fmulF32Rz { sp := 0, pred := 1, b := 26, a := 14, d := 4 }),
   (0x127A60F9, .faccF32Rz { sp := 0, pred := 0, b := 36, a := 61, d := 12 }),
   (0x0D4B4139, .faddF32Ru { sp := 0, pred := 0, b := 26, a := 37, d := 40 }),
   (0xF0856179, .fsubF32Ru { sp := 1, pred := 3, b := 33, a := 2, d := 44 }),
   (0xC35F49B9, .fmulF32Ru { sp := 1, pred := 2, b := 6, a := 47, d := 41 }),
   (0xC1E819F9, .faccF32Ru { sp := 1, pred := 2, b := 3, a := 52, d := 3 }),
   (0x96783239, .faddF32Rd { sp := 1, pred := 0, b := 44, a := 60, d := 6 }),
   (0x122BBA79, .fsubF32Rd { sp := 0, pred := 0, b := 36, a := 21, d := 55 }),
   (0x320C02B9, .fmulF32Rd { sp := 0, pred := 1, b := 36, a := 6, d := 0 }),
   (0xE67CBAF9, .faccF32Rd { sp := 1, pred := 3, b := 12, a := 62, d := 23 }),
   (0xD0A92339, .fminF16x2 { sp := 1, pred := 2, b := 33, a := 20, d := 36 }),
   (0x3FAA7379, .fmaxF16x2 { sp := 0, pred := 1, b := 63, a := 21, d := 14 }),
   (0x66D36BB9, .fminBf16x2 { sp := 0, pred := 3, b := 13, a := 41, d := 45 }),
   (0x7917B3F9, .fmaxBf16x2 { sp := 0, pred := 3, b := 50, a := 11, d := 54 })] = true := by decide +kernel

theorem test_decode_major29 : decodesAs 32
  [(0x4D4D083B, .faddF32RzVu { sp := 0, pred := 2, b := 26, a := 38, d := 33 }),
   (0xB83BD07B, .fsubF32RzVu { sp := 1, pred := 1, b := 48, a := 29, d := 58 }),
   (0x165298BB, .fmulF32RzVu { sp := 0, pred := 0, b := 44, a := 41, d := 19 }),
   (0xCAF7C0FB, .faccF32RzVu { sp := 1, pred := 2, b := 21, a := 59, d := 56 }),
   (0xA855D93B, .faddF32RuVu { sp := 1, pred := 1, b := 16, a := 42, d := 59 }),
   (0x314C997B, .fsubF32RuVu { sp := 0, pred := 1, b := 34, a := 38, d := 19 }),
   (0x34D8A1BB, .fmulF32RuVu { sp := 0, pred := 1, b := 41, a := 44, d := 20 }),
   (0x4C4269FB, .faccF32RuVu { sp := 0, pred := 2, b := 24, a := 33, d := 13 }),
   (0x0CE29A3B, .faddF32RdVu { sp := 0, pred := 0, b := 25, a := 49, d := 19 }),
   (0x536F1A7B, .fsubF32RdVu { sp := 0, pred := 2, b := 38, a := 55, d := 35 }),
   (0x06C6D2BB, .fmulF32RdVu { sp := 0, pred := 0, b := 13, a := 35, d := 26 }),
   (0xE2039AFB, .faccF32RdVu { sp := 1, pred := 3, b := 4, a := 1, d := 51 }),
   (0xB2F6133B, .fminF16x2Vu { sp := 1, pred := 1, b := 37, a := 59, d := 2 }),
   (0x5980FB7B, .fmaxF16x2Vu { sp := 0, pred := 2, b := 51, a := 0, d := 31 }),
   (0xEEBABBBB, .fminBf16x2Vu { sp := 1, pred := 3, b := 29, a := 29, d := 23 }),
   (0x7BD10BFB, .fmaxBf16x2Vu { sp := 0, pred := 3, b := 55, a := 40, d := 33 })] = true := by decide +kernel

theorem test_decode_major31 : decodesAs 32
  [(0x335F337F, .clauseHeader { len := 12, setb := 13, seta := 7, wait := 3277 })] = true := by decide +kernel

theorem test_decode_short0_1 : decodesAs 16
  [(0x5400, .vaddN { a := 10, d := 32 }),
   (0xDFA2, .vsubN { a := 27, d := 61 }),
   (0xE844, .vmulN { a := 29, d := 2 }),
   (0xD2E6, .vandN { a := 26, d := 23 }),
   (0xA028, .vorN { a := 20, d := 1 }),
   (0xC7CA, .vxorN { a := 24, d := 62 }),
   (0x308C, .vshlN { a := 6, d := 4 }),
   (0x836E, .vshrN { a := 16, d := 27 })] = true := by decide +kernel

theorem test_decode_short1_1 : decodesAs 16
  [(0x5330, .vsarN { a := 10, d := 25 }),
   (0xB192, .vmovN { a := 22, d := 12 }),
   (0xEB54, .vminS32N { a := 29, d := 26 }),
   (0xF056, .vmaxS32N { a := 30, d := 2 }),
   (0xBD78, .faddF32N { a := 23, d := 43 }),
   (0xD75A, .fsubF32N { a := 26, d := 58 }),
   (0x6AFC, .fmulF32N { a := 13, d := 23 }),
   (0xC9FE, .fmaxF32N { a := 25, d := 15 })] = true := by decide +kernel

/-- Parcels that are no instruction, with the trap code of R275. -/
noncomputable def refusesAs (ws : List (Nat × Nat)) : Bool :=
  ws.all fun e => match decodeParcel (leBytes 4 e.1) with
    | .error (.illegal code) => code == e.2
    | _ => false

/-- Major 30 (code 1); minors and sub-codes of no row (2); VNOT with its unused B, and JOIN with a reserved bit (3); VMOV
with a B of no meaning (4); a VU form of VNOT and of VCLZ (8). -/
theorem test_decode_refuses : refusesAs
  [(0x0000003D, 1), (0x00000781, 2), (0x000000D9, 2), (0x00000161, 2), (0x00000477, 2), (0x00000785, 2), (0x000007A3, 2),
   (0x00800201, 3), (0x800000E1, 3), (0x180004C1, 4), (0x00000203, 8), (0x000005C3, 8)] = true := by decide +kernel

/-- The words of chapters 13 to 21 that show a field at its bound: LEN of 63, an OFF of −1, the sixteen-bit VADD.n V5, V9. -/
theorem test_decode_bounds : decodeTableWord 32 0xFFFFFFFF = some (.clauseHeader { len := 63, setb := 15, seta := 15, wait := 0xFFF }) ∧
    decodeTableWord 32 0xFFFFE021 = some (.bra { o := 0x7FFFF, g := 0, n := 0 }) ∧
    decodeTableWord 16 0x48A0 = some (.vaddN { a := 9, d := 5 }) := by decide +kernel

/-! ## Well-formedness (R275, R276) -/

def illFormed (is : List (Instr × Nat)) : Bool := is.all fun e => e.1.illegalCode == some e.2 && !e.1.wf

theorem test_wf_structure_and_selectors : illFormed
  [(.clauseHeader { len := 0, setb := 15, seta := 15, wait := 0 }, 6),
   (.bra { o := 0, g := 1, n := 0 }, 2), (.brx { o := 0, g := 0, n := 0 }, 2),
   (.urds { i := 3, d := 0 }, 2), (.uwrs { i := 1, d := 0 }, 2), (.atom { sp := 0, c := 0, l := 0, n := 0, b := 0, d := 0, o := 15 }, 2),
   (.red { sp := 0, c := 0, l := 0, n := 0, b := 0, d := 0, o := 15 }, 2), (.atsp { sp := 0, c := 0, l := 0, n := 0, i := 0, d := 0, o := 15 }, 2),
   (.bar { v := 1, x := 0, b := 0 }, 3), (.spfill { sp := 0, l := 0, b := 2, g := 0, r := 0 }, 3), (.spinv { sp := 0, b := 2, g := 0, r := 0 }, 3),
   (.vote { sp := 0, pred := 0, o := 0, a := 1, d := 8 }, 3), (.ainc { i := 0, f := 1, a := 1, x := 0 }, 3)] = true := by decide +kernel

theorem test_wf_modes : illFormed
  [(.vcmp { sp := 0, pred := 0, b := 0, a := 0, c := 6, d := 1 }, 4), (.fcmp { sp := 0, pred := 0, b := 0, a := 0, c := 7, d := 1 }, 4),
   (.vsel { sp := 0, pred := 0, b := 0, a := 0, d := 0 }, 4), (.vclz { sp := 0, pred := 0, w := 3, a := 0, d := 0 }, 4),
   (.frnd { sp := 0, pred := 0, o := 4, a := 0, d := 0 }, 4), (.cvtFromF32 { sp := 0, pred := 0, o := 5, t := 0, a := 0, d := 0 }, 4),
   (.cvtInt { sp := 0, pred := 0, y := 7, x := 0, a := 0, d := 0 }, 4), (.unpk { sp := 0, pred := 0, j := 0, o := 0, y := 7, a := 0, d := 0 }, 4),
   (.unpk { sp := 0, pred := 0, j := 2, o := 0, y := 0, a := 0, d := 0 }, 4), (.vote { sp := 0, pred := 0, o := 3, a := 0, d := 1 }, 4),
   (.ucmp { b := 0, a := 0, c := 10, k := 0 }, 4), (.yieldd { e := 14, o := 1 }, 4), (.yieldd { e := 0, o := 0 }, 4),
   (.atsp { sp := 0, c := 2, l := 0, n := 0, i := 0, d := 0, o := 0 }, 4), (.red { sp := 0, c := 0, l := 0, n := 0, b := 0, d := 0, o := 11 }, 4),
   (.fence { sp := 0, g := 0, k := 0, t := 0 }, 4), (.waitc { sp := 0, v := 0, c := 6 }, 4), (.asig { c := 0, g := 0, k := 12 }, 4),
   (.afor { a := 0, k := 12, c := 0, g := 0, x := 0 }, 4), (.mzero { r := 32 }, 4), (.mma { b := 0, a := 0, t := 7, r := 0 }, 4),
   (.mcvt { o := 5, d := 0, t := 0, r := 0 }, 4), (.dfromv { sp := 0, b := 0, a := 0, t := 3 }, 4),
   (.dtov { sp := 0, r := 5, k := 0, t := 0, a := 0, x := 0 }, 4), (.ddot { sp := 0, r := 5, b := 0, a := 0, x := 0 }, 4),
   (.dtest { sp := 0, c := 3, a := 0, k := 0 }, 4)] = true := by decide +kernel

theorem test_wf_registers : illFormed
  [(.uadd { b := 0, a := 0, d := 192 }, 5), (.umov { a := 255, d := 0 }, 5), (.uaddi { i := 0, d := 192 }, 5), (.usel { k := 0, b := 0, a := 0, d := 192 }, 5),
   (.rdpm { d := 1 }, 5), (.uld { b := 0, a := 1, d := 0 }, 5), (.vcmp { sp := 0, pred := 0, b := 0, a := 0, c := 0, d := 0 }, 5),
   (.pand { sp := 0, pred := 0, b := 0, a := 0, d := 0 }, 5), (.ldgReg { sp := 0, pred := 0, l := 0, n := 0, b := 1, d := 0, z := 0 }, 5),
   (.ldgReg { sp := 0, pred := 0, l := 0, n := 0, b := 0, d := 63, z := 3 }, 5), (.ldgSxImm { sp := 0, pred := 0, l := 0, i := 0, b := 1, d := 0, z := 0 }, 5),
   (.ldsp { sp := 0, pred := 0, l := 0, n := 0, i := 0, d := 63, z := 3 }, 5), (.atom { sp := 0, c := 0, l := 0, n := 0, b := 0, d := 63, o := 1 }, 5),
   (.cpy { sp := 0, l := 0, b := 1 }, 5), (.spwb { sp := 0, l := 0, b := 1, g := 1, r := 0 }, 5), (.mmask { d := 60 }, 5), (.aset { i := 0, a := 1, x := 0 }, 5),
   (.dmov { sp := 0, a := 0, x := 32 }, 5), (.dadd { sp := 0, b := 32, a := 0, x := 0 }, 5), (.dld { sp := 0, l := 0, b := 1, a := 0, x := 0 }, 5)] = true := by
  decide +kernel

/-- Operands of the device's steps past the device's own sizes (R9). -/
theorem test_wf_ranges : ([.regulatorFault 8, .voltageSettled 4, .hbmChannelRetraining 64, .lodraLaneRecalibration 16 0, .lodraLaneRecalibration 0 8,
    .spareRemap true 128, .contextDestroy 257, .partitionTableChange 48, .wayMaskChange 256 0, .serverTemplateChange 0 5, .hardwareQueueBind 64,
    .mailboxRetry 256 0 0, .mailboxRetry 0 64 0, .linkDown 16, .arbitration 5 0, .lendDelayExpiry 128, .clauseEntry 0 0 8, .droopTrip 64, .barrierRelease 0 16,
    .fenceTakesEffect 0 0 8, .copyChunk 0 48, .matrixQueueTurn 0 2, .sample 0 4, .voltageBackInRegulation 8] : List Instr).all (fun i => !i.wf) = true := by
  decide +kernel

theorem test_wf_accepts : ([.regulatorFault 7, .nop, .join, .bra { o := 0, g := 0, n := 0 }, .clauseHeader { len := 1, setb := 15, seta := 15, wait := 0 },
    .mma { b := 0, a := 0, t := 6, r := 81 }, .vsel { sp := 0, pred := 1, b := 0, a := 0, d := 0 }, .lateFault 255 63] : List Instr).all Instr.wf = true := by
  decide +kernel

/-! ## A small state in which core 0 runs one group -/

def after (o : Host.Outcome State Fault Refusal) : State := match o with | .next t => t | _ => {}
/-- The state after `exec i s`, if that is a next state. -/
abbrev ran (i : Instr) (s : State) : State := after (exec i s)
def goesOn (i : Instr) (s : State) : Bool := match exec i s with | .next _ => true | _ => false
def grpOf (s : State) : Group := (s.group? 0 0).getD {}

def c0 : Cur := { core := 0, slot := 0, path := 0 }
def desc0 : Desc := { placedGrid.desc with vbase := 16, vext := 4, dirs := 4, qmask := 3, qdepth := 2 }

/-- Group `g` on core 0, its path issuing, in a grid with descriptor `d`; its
lease is [0x1000, 0x2000), where a clause header of 3 parcels stands first. -/
def world (g : Group) (d : Desc := desc0) : State :=
  let s := (State.reset.withFetchWord 32 0x0FFC003F).updGroup 0 0 fun _ => g
  { s with sched := { s.sched with grids := s.sched.grids.put 1 { placedGrid with desc := d } } }

/-- All 16 lanes active; S1 to S6, V1, V2 and P1 hold values. -/
def g1 : Group := { placedGroup 1 with
  s := [(1, 5), (2, 0xFFFFFFFF), (3, 0x80000000), (4, 0x3F800000), (8, 0x1000)], p := [(1, 0x00FF), (2, 0xFFFF)]
  v := [(1, 0x80000000_7FFFFFFF_00000005), (2, 0x00000003_00000001_00000007)] }

/-- The group with `n` parcels of its path's clause left. -/
def withLeft (g : Group) (n : Nat) : Group := g.updPath 0 fun p => { p with left := n }

def issuesB (s : State) (c : Cur) (g : Group) (inf : Info) : Bool :=
  s.cur == some c && !c.access && s.group? c.core c.slot == some g && decide (c.path < 8) && g.lateOf c.path == none &&
  !(s.issuing c g).structureError inf && !((s.grid g.grid).desc.wdog && !inf.yieldd && decide (g.watchdog ≤ 1)) &&
  (!inf.draws || ({ s with cur := none } : State).vectorResv c.core g.quarter)

theorem issues_of_check {s : State} {c : Cur} {g : Group} {inf : Info} (h : issuesB s c g inf = true) : Issues s c g inf := by
  simp only [issuesB, Bool.and_eq_true, Bool.not_eq_true', beq_iff_eq, decide_eq_true_eq, Bool.or_eq_true] at h
  obtain ⟨⟨⟨⟨⟨⟨⟨h1, h2⟩, h3⟩, h4⟩, h5⟩, h6⟩, h7⟩, h8⟩ := h
  exact ⟨h1, h2, h3, h4, h5, h6, h7, fun hb => h8.resolve_left (by simp [hb])⟩

/-! ## Steps of one instruction, with the results that the chapters give -/

/-- UADDI S4, −1 from the bytes at the pc: S4 wraps from 0 (R301), the path goes on by one parcel (R262). -/
theorem test_step_uaddi : (grpOf (after (step (State.reset.withFetchWord 32 0xFFFF049D)))).sreg 4 = 0xFFFFFFFF ∧
    ((grpOf (after (step (State.reset.withFetchWord 32 0xFFFF049D)))).path 0).pc = 0x1004 := by decide +kernel
theorem test_uadd_wraps : (grpOf (ran (.uadd { b := 2, a := 1, d := 3 }) (world g1))).sreg 3 = 4 := by decide +kernel
theorem test_umulh_high : (grpOf (ran (.umulh { b := 2, a := 2, d := 5 }) (world g1))).sreg 5 = 0xFFFFFFFE := by decide +kernel
theorem test_umad_adds_old : (grpOf (ran (.umad { b := 1, a := 1, d := 4 }) (world g1))).sreg 4 = 0x3F800019 := by decide +kernel
theorem test_ushr_past_width : (grpOf (ran (.ushr { b := 2, a := 2, d := 5 }) (world { g1 with s := [(2, 0x20)] }))).sreg 5 = 0 := by decide +kernel
theorem test_usar_past_width : (grpOf (ran (.usar { b := 1, a := 3, d := 5 }) (world { g1 with s := [(1, 40), (3, 0x80000000)] }))).sreg 5 = 0xFFFFFFFF := by
  decide +kernel
theorem test_ucmp_signed : (grpOf (ran (.ucmp { b := 1, a := 2, c := 2, k := 3 }) (world g1))).k = 8 := by decide +kernel
theorem test_ulih_keeps_low : (grpOf (ran (.ulih { i := 0x1234, d := 1 }) (world g1))).sreg 1 = 0x12340005 := by decide +kernel
/-- VADD V3, V1, V2: lane 1 wraps past the most positive number (R312). -/
theorem test_vadd_wraps : ((grpOf (ran (.vadd { sp := 0, pred := 0, b := 2, a := 1, d := 3 }) (world g1))).vreg 3) = 0x80000003_80000000_0000000C := by decide +kernel
theorem test_vadds_saturates : (((grpOf (ran (.vaddsS32 { sp := 0, pred := 0, b := 2, a := 1, d := 3 }) (world g1))).vreg 3).lane 1) = 0x7FFFFFFF := by decide +kernel
/-- Under PRED 1 only the lanes of P1 are written (R305). -/
theorem test_predicated_lanes : ((grpOf (ran (.vli { sp := 0, pred := 1, j := 2, i := 1, d := 2 }) (world { g1 with p := [(1, 2)] }))).vreg 2) =
    0x00000003_00000042_00000007 := by decide +kernel
/-- 1.0 + 2⁻²⁴ ties to even, and rounds up under .ru (R231, R317). -/
theorem test_fadd_ties_to_even : (((grpOf (ran (.faddF32 { sp := 0, pred := 0, b := 2, a := 1, d := 3 }) (world { g1 with v := [(1, 0x3F800000), (2, 0x33800000)] }))).vreg 3).lane 0) = 0x3F800000 := by
  decide +kernel
theorem test_fadd_rounds_up : (((grpOf (ran (.faddF32Ru { sp := 0, pred := 0, b := 2, a := 1, d := 3 }) (world { g1 with v := [(1, 0x3F800000), (2, 0x33800000)] }))).vreg 3).lane 0) = 0x3F800001 := by
  decide +kernel
/-- ∞ − ∞ is the canonical NaN (R233). -/
theorem test_fsub_infinities : (((grpOf (ran (.fsubF32 { sp := 0, pred := 0, b := 1, a := 1, d := 3 }) (world { g1 with v := [(1, 0x7F800000)] }))).vreg 3).lane 0) = 0x7FC00000 := by
  decide +kernel
theorem test_sqrt_two : (((grpOf (ran (.sqrt { sp := 0, pred := 0, a := 1, d := 3 }) (world { g1 with v := [(1, 0x40000000)] }))).vreg 3).lane 0) = 0x3FB504F3 := by decide +kernel
theorem test_cvt_saturates : (((grpOf (ran (.cvtFromF32 { sp := 0, pred := 0, o := 0, t := 4, a := 1, d := 3 }) (world { g1 with v := [(1, 0x43800000)] }))).vreg 3).lane 0) = 0x7F := by
  decide +kernel
/-- SHFL reads a lane past W as 0 and sets XR (R331). -/
theorem test_shfl_past_width : (grpOf (ran (.shflVu { sp := 0, pred := 0, b := 2, a := 1, d := 3 }) (world g1))).gsrBit 4 = true ∧
    ((grpOf (ran (.shflVu { sp := 0, pred := 0, b := 2, a := 1, d := 3 }) (world g1))).vreg 3) = 0 := by decide +kernel
theorem test_vcmp_writes_predicate : ((grpOf (ran (.vcmp { sp := 0, pred := 0, b := 2, a := 1, c := 2, d := 3 }) (world g1))).p.get 0 3) &&& 7 = 5 := by decide +kernel
/-- BRX with half the lanes taken splits the path (R285). -/
theorem test_brx_splits : let g := grpOf (ran (.brx { o := 0, g := 0, n := 1 }) (world g1))
    (g.path 0).mask = 0xFF00 ∧ (g.path 1).mask = 0x00FF ∧ (g.path 1).pc = 0x1000 ∧ (g.path 0).pc = 0x1004 := by decide +kernel
/-- A TRAP with no handler ends the grid with class 16 and its number (R137, R297). -/
theorem test_trap_records : (((ran (.trap { n := 0x77 }) (world g1)).sched.grids.find 1).bind Grid.fault).map (fun r => (r.cls, r.detail)) = some (16, 0x77) := by
  decide +kernel
/-- With a handler the path alone goes there, HNDL set (R139, R290). -/
theorem test_trap_enters_handler : ((grpOf (ran (.trap { n := 1 }) (world g1 { desc0 with handler := 0x1800 }))).path 0).pc = 0x1800 ∧
    ((grpOf (ran (.trap { n := 1 }) (world g1 { desc0 with handler := 0x1800 }))).path 0).hndl = true := by decide +kernel
/-- S192 does not exist (R199, code 5). -/
theorem test_bad_register_traps : (((ran (.uadd { b := 192, a := 0, d := 0 }) (world g1)).sched.grids.find 1).bind Grid.fault).map (fun r => (r.cls, r.detail)) = some (1, 5) := by
  decide +kernel

/-! ## Witnesses: states and operands that meet the hypotheses of the claims -/

def cA : Cur := { core := 0, slot := 0, path := 0, access := true }

/-- A lane claim's hypotheses hold. -/
def LaneMeets (i : Instr) (F : LaneForm) (g : Group) : Prop :=
  i.illegalCode = none ∧ Issues (world g) c0 g (F.inf g) ∧ F.ok ((world g).issuing c0 g) = true ∧
    LaneReady ((world g).issuing c0 g) (F.op ((world g).issuing c0 g))

theorem witness_LaneIntegerResults : ∃ F, laneInteger (.vadd { sp := 0, pred := 0, b := 2, a := 1, d := 3 }) = some F ∧ LaneMeets (.vadd { sp := 0, pred := 0, b := 2, a := 1, d := 3 }) F (g1) :=
  ⟨_, rfl, by decide +kernel, issues_of_check (by decide +kernel), by decide +kernel,
    ⟨by decide +kernel, by decide +kernel, by decide +kernel, by decide +kernel⟩⟩

theorem witness_LaneIntegerResults_queue : ∃ F, laneInteger (.vmov { sp := 0, pred := 1, a := 1, d := 60 }) = some F ∧ LaneMeets (.vmov { sp := 0, pred := 1, a := 1, d := 60 }) F (g1) :=
  ⟨_, rfl, by decide +kernel, issues_of_check (by decide +kernel), by decide +kernel,
    ⟨by decide +kernel, by decide +kernel, by decide +kernel, by decide +kernel⟩⟩

theorem witness_LaneIntegerResults_packed : ∃ F, lanePacked (.vaddsS16x2 { sp := 0, pred := 3, b := 2, a := 1, d := 15 }) = some F ∧ LaneMeets (.vaddsS16x2 { sp := 0, pred := 3, b := 2, a := 1, d := 15 }) F (g1) :=
  ⟨_, rfl, by decide +kernel, issues_of_check (by decide +kernel), by decide +kernel,
    ⟨by decide +kernel, by decide +kernel, by decide +kernel, by decide +kernel⟩⟩

theorem witness_LaneFloatResults : ∃ F, laneFloat (.faddF32 { sp := 0, pred := 0, b := 2, a := 1, d := 3 }) = some F ∧ LaneMeets (.faddF32 { sp := 0, pred := 0, b := 2, a := 1, d := 3 }) F (g1) :=
  ⟨_, rfl, by decide +kernel, issues_of_check (by decide +kernel), by decide +kernel,
    ⟨by decide +kernel, by decide +kernel, by decide +kernel, by decide +kernel⟩⟩

theorem witness_LaneFloatResults_convert : ∃ F, laneConvert (.pack4 { sp := 0, pred := 0, o := 4, t := 1, tlo := 1, a := 12, d := 3 }) = some F ∧ LaneMeets (.pack4 { sp := 0, pred := 0, o := 4, t := 1, tlo := 1, a := 12, d := 3 }) F (g1) :=
  ⟨_, rfl, by decide +kernel, issues_of_check (by decide +kernel), by decide +kernel,
    ⟨by decide +kernel, by decide +kernel, by decide +kernel, by decide +kernel⟩⟩

theorem witness_LaneCrossResults : ∃ F, laneCross (.shfl { sp := 0, pred := 0, b := 2, a := 1, d := 3 }) = some F ∧ LaneMeets (.shfl { sp := 0, pred := 0, b := 2, a := 1, d := 3 }) F (g1) :=
  ⟨_, rfl, by decide +kernel, issues_of_check (by decide +kernel), by decide +kernel,
    ⟨by decide +kernel, by decide +kernel, by decide +kernel, by decide +kernel⟩⟩

theorem witness_LanePredicateResults : ∃ F, lanePred (.vcmp { sp := 0, pred := 3, b := 2, a := 1, c := 5, d := 7 }) = some F ∧
    Issues (world g1) c0 g1 (F.inf g1) ∧ F.ok ((world g1).issuing c0 g1) = true ∧ ((world g1).issuing c0 g1).laneFault F.srcs [] [] = none ∧
    ((world g1).issuing c0 g1).laneWait F.srcs [] [] = none :=
  ⟨_, rfl, issues_of_check (by decide +kernel), by decide +kernel, by decide +kernel, by decide +kernel⟩

theorem witness_UniformResults_pending :
    let s := { world g1 with ops := [(7, { kind := .uload 1, left := 1 })] }
    let g := g1
    let x := s.issuing c0 g
    Issues s c0 g {} ∧
    x.sWait [1, 2, 3] = some (.sreg 1) :=
  ⟨issues_of_check (by decide +kernel), by decide +kernel⟩

theorem witness_UniformResults_ready :
    let s := world (g1)
    let g := g1
    let x := s.issuing c0 g
    Issues s c0 g {} ∧
    (uniResult (.uadd { b := 2, a := 1, d := 3 })).isSome = true ∧
    (Instr.uadd { b := 2, a := 1, d := 3 }).illegalCode = none ∧
    x.sWait [1, 2, 3] = none :=
  ⟨issues_of_check (by decide +kernel), by decide +kernel⟩

theorem witness_UniformResults_compare :
    let s := world (g1)
    let g := g1
    let x := s.issuing c0 g
    Issues s c0 g {} ∧
    (Instr.ucmp { b := 191, a := 191, c := 9, k := 3 }).illegalCode = none ∧
    x.sWait [191, 191] = none ∧
    10 ≤ (10 : BitVec 4).toNat :=
  ⟨issues_of_check (by decide +kernel), by decide +kernel⟩

/-- Team 1 of the world stands at (0, 0, 0) of its grid; the last word of the fault record reads 0 outside the handler. -/
theorem witness_StateSelectors_urds :
    let s := world (g1)
    let g := g1
    let x := s.issuing c0 g
    let d := (s.grid g.grid).desc
    Issues s c0 g {} ∧
    (Instr.urds { i := 0x3F, d := 191 }).illegalCode = none ∧
    x.sWait [191] = none ∧
    s.team? g.team = some { grid := 1, ctx := 0, idx := 0, core := some 0 } ∧
    0 < d.gx ∧ 0 < d.gy ∧ (0 : Nat) = 0 + d.gx * (0 + d.gy * 0) ∧
    (0x3F, (0 : W32)) ∈ selectorReads c0 g d 0 0 0 ∧ (0x00, g.gsr) ∈ selectorReads c0 g d 0 0 0 ∧
    (∀ w ∈ g.dpipe, w.id ∉ (g.path 0).past) :=
  ⟨issues_of_check (by decide +kernel), by decide +kernel⟩

def gSnap : Group := { g1 with snap := some (127, 7) }
theorem witness_StateSelectors_counters :
    Issues (world gSnap) c0 gSnap {} ∧ (Instr.urds { i := 0x1FF, d := 191 }).illegalCode = none ∧ ((world gSnap).issuing c0 gSnap).sWait [191] = none ∧
    (127 : Nat) < 128 ∧ (0x1FF : BitVec 16).toNat = 0x101 + 2 * 127 ∧ (0x1FE : BitVec 16).toNat = 0x100 + 2 * 127 ∧ gSnap.snap = some (127, 7) ∧
    (∀ u, gSnap.snap ≠ some (126, u)) :=
  ⟨issues_of_check (by decide +kernel), by decide +kernel, by decide +kernel, by decide, by decide, by decide, rfl, fun u => by simp [gSnap]⟩

/-- A direction write of the path's own past stands in the pipe. -/
def gPipe : Group := { onPast with dpipe := [{ id := 9, d := 1, path := 0, pid := 0, after := [], val := { comps := 1, norm := 2 }, dov := true, ready := true }] }
where onPast : Group := g1.updPath 0 fun p => { p with past := [9] }
theorem witness_StateSelectors_waits :
    Issues (world gPipe) c0 gPipe {} ∧ (Instr.urds { i := 0, d := 0 }).illegalCode = none ∧ ((world gPipe).issuing c0 gPipe).sWait [0] = none ∧
    (∃ w ∈ gPipe.dpipe, w.id ∈ (gPipe.path 0).past) :=
  ⟨issues_of_check (by decide +kernel), by decide +kernel⟩

/-- Selectors 3 and 0x200 are of no row of R302. -/
theorem witness_StateSelectors_illegal : Issues (world g1) c0 g1 {} ∧ (191 : BitVec 8).toNat < 192 ∧
    (∀ n ∈ [3, 0x200], ∀ v, (n, v) ∉ selectorReads c0 g1 {} 0 0 0) ∧ (3 < 0x100) ∧ 0x200 ≤ 0x200 :=
  ⟨issues_of_check (by decide +kernel), by decide,
    fun n hn v h => (by decide +kernel : ∀ n ∈ [3, 0x200], n ∉ (selectorReads c0 g1 {} 0 0 0).map Prod.fst) n hn (List.mem_map_of_mem (f := Prod.fst) h), by decide⟩

theorem witness_StateSelectors_rdpm :
    let s := world (g1)
    let g := g1
    let x := s.issuing c0 g
    Issues s c0 g {} ∧
    (Instr.rdpm { d := 190 }).illegalCode = none ∧
    x.sWait [190, 191] = none :=
  ⟨issues_of_check (by decide +kernel), by decide +kernel⟩

theorem witness_StateSelectors_uwrs :
    let s := world (g1)
    let g := g1
    let x := s.issuing c0 g
    Issues s c0 g {} ∧
    (Instr.uwrs { i := 2, d := 1 }).illegalCode = none ∧
    (Instr.uwrs { i := 0, d := 1 }).illegalCode = none ∧
    x.sWait [1] = none :=
  ⟨issues_of_check (by decide +kernel), by decide +kernel⟩

theorem witness_StateSelectors_racq_fits :
    let s := world (g1)
    let g := g1
    Issues s c0 g {} ∧
    g.gsrBit 3 = false ∧
    (s.grid g.grid).desc.vext ≠ 0 ∧
    s.off.poolFits 0 g.wc (s.grid g.grid).desc.vext = true :=
  ⟨issues_of_check (by decide +kernel), by decide +kernel⟩

theorem witness_StateSelectors_racq_full :
    let s := world g1 { desc0 with vext := 8192 }
    let g := g1
    Issues s c0 g {} ∧
    g.gsrBit 3 = false ∧
    (s.grid g.grid).desc.vext ≠ 0 ∧
    s.off.poolFits 0 g.wc (s.grid g.grid).desc.vext = false :=
  ⟨issues_of_check (by decide +kernel), by decide +kernel⟩

theorem witness_StateSelectors_held :
    let s := world ({ g1 with gsr := 8 })
    let g := { g1 with gsr := 8 }
    let x := s.issuing c0 g
    Issues s c0 g {} ∧
    g.gsrBit 3 = true ∧
    ∀ r, r < (s.grid g.grid).desc.vext → x.vPending ((s.grid g.grid).desc.vbase + r) = false :=
  ⟨issues_of_check (by decide +kernel), by decide +kernel⟩

theorem witness_BranchesTaken_taken :
    let s := world (g1)
    let g := g1
    let x := s.issuing c0 g
    Issues s c0 g { last := true } ∧
    (Instr.bra { o := 0, g := 0, n := 2 }).illegalCode = none ∧
    (∀ l : Fin 64, (g.path 0).mask.getLsbD l = true → (g.preg (g.path 0) 2).getLsbD l = decide ((0 : BitVec 1) ≠ 1)) ∧
    x.targetFault ((g.path 0).pc + BitVec.ofInt 64 (2 * (0 : BitVec 19).toInt)) = none :=
  ⟨issues_of_check (by decide +kernel), by decide +kernel⟩

theorem witness_BranchesTaken_taken_odd :
    let s := world (g1)
    let g := g1
    let x := s.issuing c0 g
    Issues s c0 g { last := true } ∧
    (Instr.bra { o := -4096, g := 0, n := 2 }).illegalCode = none ∧
    (∀ l : Fin 64, (g.path 0).mask.getLsbD l = true → (g.preg (g.path 0) 2).getLsbD l = decide ((0 : BitVec 1) ≠ 1)) ∧
    x.targetFault ((g.path 0).pc + BitVec.ofInt 64 (2 * (-4096 : BitVec 19).toInt)) = some (1, 0, 6) :=
  ⟨issues_of_check (by decide +kernel), by decide +kernel⟩

theorem witness_BranchesTaken_taken_rights :
    let s := world (g1)
    let g := g1
    let x := s.issuing c0 g
    Issues s c0 g { last := true } ∧
    (Instr.bra { o := 4096, g := 0, n := 2 }).illegalCode = none ∧
    (∀ l : Fin 64, (g.path 0).mask.getLsbD l = true → (g.preg (g.path 0) 2).getLsbD l = decide ((0 : BitVec 1) ≠ 1)) ∧
    x.targetFault ((g.path 0).pc + BitVec.ofInt 64 (2 * (4096 : BitVec 19).toInt)) = some (3, 0x3000, 0) :=
  ⟨issues_of_check (by decide +kernel), by decide +kernel⟩

theorem witness_BranchesTaken_taken_header :
    let s := world (g1)
    let g := g1
    let x := s.issuing c0 g
    Issues s c0 g { last := true } ∧
    (Instr.bra { o := 2, g := 0, n := 2 }).illegalCode = none ∧
    (∀ l : Fin 64, (g.path 0).mask.getLsbD l = true → (g.preg (g.path 0) 2).getLsbD l = decide ((0 : BitVec 1) ≠ 1)) ∧
    x.targetFault ((g.path 0).pc + BitVec.ofInt 64 (2 * (2 : BitVec 19).toInt)) = some (1, 0, 6) :=
  ⟨issues_of_check (by decide +kernel), by decide +kernel⟩

theorem witness_BranchesTaken_not_taken :
    let s := world (g1)
    let g := g1
    Issues s c0 g { last := true } ∧
    (g.path 0).mask.getLsbD 8 = true ∧
    (g.preg (g.path 0) 1).getLsbD 8 = false ∧
    g.kreg 0 = false :=
  ⟨issues_of_check (by decide +kernel), by decide +kernel⟩

theorem witness_BranchesTaken_by_flag :
    let s := world ({ g1 with k := 1 })
    let g := { g1 with k := 1 }
    let x := s.issuing c0 g
    Issues s c0 g { last := true } ∧
    g.kreg 0 = decide ((0 : BitVec 1) ≠ 1) ∧
    x.targetFault ((g.path 0).pc + BitVec.ofInt 64 (2 * (0 : BitVec 19).toInt)) = none :=
  ⟨issues_of_check (by decide +kernel), by decide +kernel⟩

theorem witness_PathSplits_none :
    let s := world (g1)
    let g := g1
    Issues s c0 g { last := true } ∧
    (g.path 0).mask &&& g.preg (g.path 0) 3 = 0 :=
  ⟨issues_of_check (by decide +kernel), by decide +kernel⟩

theorem witness_PathSplits_all :
    let s := world (g1)
    let g := g1
    let x := s.issuing c0 g
    Issues s c0 g { last := true } ∧
    (g.path 0).mask &&& g.preg (g.path 0) 2 = (g.path 0).mask ∧
    (g.path 0).mask &&& g.preg (g.path 0) 2 ≠ 0 ∧
    x.targetFault (g.path 0).pc = none :=
  ⟨issues_of_check (by decide +kernel), by decide +kernel⟩

theorem witness_PathSplits_splits :
    let s := world (g1)
    let g := g1
    let x := s.issuing c0 g
    Issues s c0 g { last := true } ∧
    (g.path 0).mask &&& g.preg (g.path 0) 1 ≠ (g.path 0).mask ∧
    (g.path 0).mask &&& g.preg (g.path 0) 1 ≠ 0 ∧
    x.targetFault (g.path 0).pc = none ∧
    (g.path 1).valid = false ∧
    ∀ j, j < 1 → (g.path j).valid = true :=
  ⟨issues_of_check (by decide +kernel), by decide +kernel⟩

theorem witness_PathSplits_last_entry :
    let s := world ({ g1 with paths := g1.paths.take 7 |>.map (fun p => { p with valid := true }) |>.append [{}] })
    let g := { g1 with paths := g1.paths.take 7 |>.map (fun p => { p with valid := true }) |>.append [{}] }
    Issues s c0 g { last := true } ∧
    (g.path 7).valid = false ∧
    ∀ j, j < 7 → (g.path j).valid = true :=
  ⟨issues_of_check (by decide +kernel), by decide +kernel⟩

theorem witness_PathSplits_full :
    let s := world ({ g1 with paths := g1.paths.map fun p => { p with valid := true } })
    let g := { g1 with paths := g1.paths.map fun p => { p with valid := true } }
    let x := s.issuing c0 g
    Issues s c0 g { last := true } ∧
    (g.path 0).mask &&& g.preg (g.path 0) 1 ≠ (g.path 0).mask ∧
    (g.path 0).mask &&& g.preg (g.path 0) 1 ≠ 0 ∧
    x.targetFault (g.path 0).pc = none ∧
    ∀ i, i < 8 → (g.path i).valid = true :=
  ⟨issues_of_check (by decide +kernel), by decide +kernel⟩

theorem witness_PathSplits_bad_target :
    let s := world (g1)
    let g := g1
    let x := s.issuing c0 g
    Issues s c0 g { last := true } ∧
    (g.path 0).mask &&& g.preg (g.path 0) 1 ≠ 0 ∧
    x.targetFault ((g.path 0).pc + 4) = some (1, 0, 6) :=
  ⟨issues_of_check (by decide +kernel), by decide +kernel⟩

theorem witness_CallsAndReturns_ready :
    let s := world (g1)
    let g := g1
    let x := s.issuing c0 g
    Issues s c0 g { last := true } ∧
    x.sWait [8, 9] = none ∧
    x.targetFault (g.path 0).pc = none ∧
    x.targetFault (g.spair 8) = none :=
  ⟨issues_of_check (by decide +kernel), by decide +kernel⟩

theorem witness_CallsAndReturns_bad_target :
    let s := world (g1)
    let g := g1
    let x := s.issuing c0 g
    Issues s c0 g { last := true } ∧
    x.sWait [4, 5] = none ∧
    x.targetFault (g.spair 4) = some (3, 0x3F800000, 0) :=
  ⟨issues_of_check (by decide +kernel), by decide +kernel⟩

theorem witness_CallsAndReturns_pending :
    let s := { world g1 with ops := [(7, { kind := .uload 9, left := 1 })] }
    let g := g1
    let x := s.issuing c0 g
    Issues s c0 g { last := true } ∧
    x.sWait [8, 9] = some (.sreg 9) :=
  ⟨issues_of_check (by decide +kernel), by decide +kernel⟩

theorem witness_CallsAndReturns_call_target :
    let x := (world g1).issuing c0 g1
    Issues (world g1) c0 g1 { last := true } ∧ x.sWait [8, 9] = none ∧
    x.targetFault ((g1.path 0).pc + BitVec.ofInt 64 (2 * (2 : BitVec 19).toInt)) = some (1, 0, 6) :=
  ⟨issues_of_check (by decide +kernel), by decide +kernel⟩

/-- Paths of a group at JOINs: a path by its link, if it has one, and whether it waits at a JOIN, and where. -/
def pJ (link : Option Nat) (at? : Option W64 := none) : Path :=
  { (placedGroup 1).path 0 with link := link.getD 0, linkv := link.isSome, wait := if at?.isSome then .join else .none, pc := at?.getD 0x1000 }
def gJ (ps : List Path) : Group := { g1 with paths := ps ++ List.replicate (8 - ps.length) {} }
def joinSt (ps : List Path) (n : Nat) : State := { world (gJ ps) with cur := some { core := 0, slot := 0, path := n } }
def childJ (g : Group) (i q : Nat) : Bool := decide (q < 8) && (g.path q).valid && (g.path q).linkv && (g.path q).link == i
def waitsJ (g : Group) (i : Nat) : Bool := (g.path i).valid && (g.path i).wait == .join
def stillJ (g : Group) (i : Nat) : Bool :=
  !waitsJ g i || (List.range 8).any (childJ g i) || ((g.path i).linkv && !((g.path (g.path i).link).wait == .join))
/-- The hypotheses that all clauses of JOIN share, for path n, and those paths but `r` that wait on. -/
def joinB (ps : List Path) (n : Nat) (r : Option Nat := none) : Bool :=
  let g := gJ ps
  issuesB (joinSt ps n) { core := 0, slot := 0, path := n } g { last := true } && g.paths.length == 8 && (g.path n).valid && (g.path n).wait == .none &&
    (List.range 8).all fun i => i == n || some i == r || stillJ g i
def childrenJ (ps : List Path) (i : Nat) : List Nat := (List.range 8).filter (childJ (gJ ps) i)

/-- In turn: a root with no child; one with a child that runs; a child whose parent runs; whose parent waits elsewhere; whose parent waits
here with another child, or with no other; and a root whose one child waits here, or elsewhere. -/
theorem witness_CallsAndReturns_join :
    (joinB [pJ none] 0 ∧ childrenJ [pJ none] 0 = []) ∧
    (joinB [pJ none, pJ (some 0)] 0 ∧ childrenJ [pJ none, pJ (some 0)] 0 = [1] ∧ waitsJ (gJ [pJ none, pJ (some 0)]) 1 = false) ∧
    (joinB [pJ none, pJ (some 0)] 1 ∧ childrenJ [pJ none, pJ (some 0)] 1 = [] ∧ waitsJ (gJ [pJ none, pJ (some 0)]) 0 = false) ∧
    (joinB [pJ none (some 0x1400), pJ (some 0)] 1 ∧ (0x1400 : W64) ≠ 0x1000) ∧
    (joinB [pJ none (some 0x1000), pJ (some 0), pJ (some 0)] 1 ∧ childrenJ [pJ none (some 0x1000), pJ (some 0), pJ (some 0)] 0 = [1, 2]) ∧
    (joinB [pJ none (some 0x1000), pJ (some 0)] 1 ∧ childrenJ [pJ none (some 0x1000), pJ (some 0)] 0 = [1]) ∧
    (joinB [pJ none, pJ (some 0) (some 0x1000)] 0 (some 1) ∧ childrenJ [pJ none, pJ (some 0) (some 0x1000)] 0 = [1] ∧
      childrenJ [pJ none, pJ (some 0) (some 0x1000)] 1 = [] ∧ waitsJ (gJ [pJ none, pJ (some 0) (some 0x1000)]) 1 = true) ∧
    (joinB [pJ none, pJ (some 0) (some 0x1400)] 0 (some 1) ∧ waitsJ (gJ [pJ none, pJ (some 0) (some 0x1400)]) 1 = true) := by decide +kernel

/-- The child that waits at the same JOIN merges into its parent, which goes on with all the lanes (R286). -/
theorem test_join_merges :
    let c : Path := { pJ (some 0) (some 0x1000) with mask := 0xF0 }
    let h := grpOf (ran .join (joinSt [{ pJ none with mask := 0x0F }, c] 0))
    (h.path 0).mask = 0xFF ∧ (h.path 0).pc = 0x1004 ∧ (h.path 1).valid = false := by decide +kernel

theorem witness_CallsAndReturns_exit :
    let s := world (g1)
    let g := g1
    Issues s c0 g { last := true } ∧
    (g.path 0).mask &&& g.preg (g.path 0) 3 = 0 ∧
    (g.path 0).mask &&& g.preg (g.path 0) 1 ≠ 0 ∧
    (g.path 0).mask &&& g.preg (g.path 0) 1 ≠ (g.path 0).mask ∧
    (g.path 0).mask &&& g.preg (g.path 0) 2 ≠ 0 ∧
    (g.path 0).mask &&& g.preg (g.path 0) 2 = (g.path 0).mask ∧
    (∀ i, i < 8 → (g.path i).valid = true → (g.path i).wait ≠ .join) ∧
    (∀ i, i < 8 → i ≠ 0 → (g.path i).valid = false) :=
  ⟨issues_of_check (by decide +kernel), by decide +kernel⟩

theorem witness_CallsAndReturns_exit_child :
    let g := gJ [pJ none, pJ (some 0)]
    Issues (world g) c0 g { last := true } ∧ (g.path 0).mask &&& g.preg (g.path 0) 2 = (g.path 0).mask ∧
    (∀ i, i < 8 → (g.path i).valid = true → (g.path i).wait ≠ .join) ∧ (g.path 1).valid = true :=
  ⟨issues_of_check (by decide +kernel), by decide +kernel⟩

theorem witness_PlainAndTrappingControl :
    let s := world (g1)
    let g := g1
    Issues s c0 g {} ∧
    s.rfld (.dbgcfg g.ctx) 0 1 = 0 :=
  ⟨issues_of_check (by decide +kernel), by decide +kernel⟩

theorem witness_PlainAndTrappingControl_debug :
    let s := (world g1).setRfld (.dbgcfg 0) 0 1 1
    let g := g1
    Issues s c0 g {} ∧
    s.rfld (.dbgcfg g.ctx) 0 1 = 1 :=
  ⟨issues_of_check (by decide +kernel), by decide +kernel⟩

theorem witness_YieldsAndSleeps_yield :
    let s := world { g1 with watchdog := 1 } { desc0 with wdog := true }
    let g := { g1 with watchdog := 1 }
    Issues s c0 g { yieldd := true } ∧
    (Instr.yieldd { e := 13, o := 1 }).illegalCode = none :=
  ⟨issues_of_check (by decide +kernel), by decide +kernel⟩

theorem witness_YieldsAndSleeps_waitmem :
    let s := world (g1)
    let g := g1
    let x := s.issuing c0 g
    Issues s c0 g {} ∧
    x.sWait [8, 9, 1] = none ∧
    s.off.mayAccess (s.grid g.grid) 1 0x1000 4 = true ∧
    (s.off.homeWord g.ctx 0x1000).toOption = some 0x0FFC003F ∧
    (s.off.watchSlice g.ctx 0x1000).isSome = true :=
  ⟨issues_of_check (by decide +kernel), by decide +kernel⟩

theorem witness_YieldsAndSleeps_waitmem_rights :
    let s := world (g1)
    let g := g1
    let x := s.issuing c0 g
    Issues s c0 g {} ∧
    x.sWait [4, 5, 1] = none ∧
    s.off.mayAccess (s.grid g.grid) 1 (g.spair 4 &&& ~~~3).toNat 4 = false :=
  ⟨issues_of_check (by decide +kernel), by decide +kernel⟩

/-- The word that it would read is poisoned. -/
theorem witness_YieldsAndSleeps_waitmem_fails :
    let s := { world g1 with msys := { (world g1).msys with poison := [0x400] } }
    Issues s c0 g1 {} ∧ (s.issuing c0 g1).sWait [8, 9, 1] = none ∧ s.off.mayAccess (s.grid g1.grid) 1 0x1000 4 = true ∧
    (match s.off.homeWord g1.ctx 0x1000 with | .error e => some e | .ok _ => none) = some (6, 0) :=
  ⟨issues_of_check (by decide +kernel), by decide +kernel⟩

theorem witness_BarrierArrivals :
    let s := world (g1)
    let g := g1
    let x := s.issuing c0 g
    Issues s c0 g {} ∧
    (Instr.bar { v := 1, x := 1, b := 15 }).illegalCode = none ∧
    x.sWait [1] = none ∧
    (s.team? g.team).map (fun t => ((t.bar 15).groups.contains g.num, (t.bar 15).paths.contains (g.num, 0))) = some (false, false) ∧
    (∀ i, i < 8 → i ≠ 0 → (g.path i).valid = true → false = true) ∧
    ¬ ((g.sreg 1).toInt ≤ ((s.grid g.grid).desc.gpt : Int)) :=
  ⟨issues_of_check (by decide +kernel), by decide +kernel⟩

theorem witness_BarrierArrivals_default :
    let s := world ({ g1 with paths := g1.paths.take 1 ++ g1.paths.take 1 ++ g1.paths.drop 2 })
    let g := { g1 with paths := g1.paths.take 1 ++ g1.paths.take 1 ++ g1.paths.drop 2 }
    Issues s c0 g {} ∧
    (g.path 1).valid = true ∧
    (s.team? g.team).map (fun t => (t.bar 0).paths.contains (g.num, 1)) = some false :=
  ⟨issues_of_check (by decide +kernel), by decide +kernel⟩

theorem witness_BarrierArrivals_waits :
    let s := (world g1).updTeam 1 fun t => t.setBar 3 { groups := [0], paths := [(0, 0)], arrivals := 1 }
    let g := g1
    Issues s c0 g {} ∧
    (s.team? g.team).map (fun t => (t.bar 3).groups.contains g.num) = some true :=
  ⟨issues_of_check (by decide +kernel), by decide +kernel⟩

theorem witness_ClauseHeaders :
    let s := world (withLeft g1 0)
    s.cur = some c0 ∧ s.group? 0 0 = some (withLeft g1 0) ∧ (withLeft g1 0).lateOf 0 = none ∧ ((withLeft g1 0).path 0).left = 0 ∧
    (world g1).group? 0 0 = some g1 ∧ (g1.path 0).left ≠ 0 := by decide +kernel

theorem witness_ClauseHeaders_access :
    let a : Acc := { pc := 0x1000 }
    let s := { world { g1 with acc := some a } with cur := some cA }
    s.cur = some cA ∧ s.group? 0 0 = some { g1 with acc := some a } ∧ a.left = 0 := by decide +kernel

theorem of_none {x : Option Nat} {P : Nat → Prop} (h : x = none) : ∀ f, x = some f → P f := by simp [h]
theorem of_some {x : Option Nat} {k : Nat} {P : Nat → Prop} (h : x = some k) (hp : P k) : ∀ f, x = some f → P f := by
  rintro f hf; simp_all

theorem ok_of_toOption {ε α : Type} {e : Except ε α} {a : α} (h : e.toOption = some a) : e = .ok a := by
  cases e with
  | error _ => simp [Except.toOption] at h
  | ok b => simpa [Except.toOption] using h

/-- Every lane reads address 0x1000, which the lease allows; V6's first lane leaves the lease. -/
def gM : Group := { g1 with v := [(5, 0), (6, 0x10000), (7, 0x00000001)], s := [(1, 5), (8, 0x1000)] }

theorem witness_GlobalAccesses_load : ∃ m, globalLoad (.ldgReg { sp := 0, pred := 0, l := 0, n := 5, b := 8, d := 15, z := 2 }) = some m ∧
    Issues (world gM) c0 gM (memInf m.sp gM) ∧ MemReady ((world gM).issuing c0 gM) m false ∧
    let x := (world gM).issuing c0 gM
    let ls := m.accesses x
    x.allowed ls 4 1 ∧ ls ≠ [] ∧ x.storeWait false ls 4 = none ∧ x.room 0 (x.flagOf m.l) = none ∧
      (x.s.core 0).lookup (x.loadKey m.word m.n (gM.spair m.b) (gM.written (gM.path 0) m.pred.toNat) m.d none (touchedPages ls 4)) = none ∧
      queueOf x.d.qmask m.d = none :=
  ⟨_, rfl, issues_of_check (by decide +kernel), ⟨by decide +kernel, by decide +kernel, by decide +kernel⟩, by show _ = _; decide +kernel, by decide +kernel⟩

theorem witness_GlobalAccesses_load_fault : ∃ m, globalLoad (.ldgReg { sp := 0, pred := 0, l := 0, n := 6, b := 8, d := 15, z := 2 }) = some m ∧
    Issues (world gM) c0 gM (memInf m.sp gM) ∧ MemReady ((world gM).issuing c0 gM) m false ∧
    ((world gM).issuing c0 gM).accessFault? (m.accesses ((world gM).issuing c0 gM)) 4 1 = some (3, 0x11000, 0) :=
  ⟨_, rfl, issues_of_check (by decide +kernel), ⟨by decide +kernel, by decide +kernel, by decide +kernel⟩, by decide +kernel⟩

theorem witness_GlobalAccesses_store : ∃ m, globalStore (.stgImm { sp := 0, pred := 0, l := 0, i := 3, b := 8, d := 14, z := 3 }) = some m ∧
    Issues (world gM) c0 gM (memInf m.sp gM) ∧ MemReady ((world gM).issuing c0 gM) m true ∧
    let x := (world gM).issuing c0 gM
    let ls := (m.accesses x).map fun l => { l with x := x.storeData m.d m.run l.lane }
    x.allowed ls 8 2 ∧ m.accesses x ≠ [] ∧ x.loadWait false ls 8 = none ∧ x.room 1 (x.flagOf m.l) = none :=
  ⟨_, rfl, issues_of_check (by decide +kernel), ⟨by decide +kernel, by decide +kernel, by decide +kernel⟩, by show _ = _; decide +kernel, by decide +kernel⟩

theorem witness_GlobalAccesses_store_none : ∃ m, globalStore (.stgReg { sp := 0, pred := 3, l := 0, n := 6, b := 8, d := 14, z := 0 }) = some m ∧
    Issues (world gM) c0 gM (memInf m.sp gM) ∧ MemReady ((world gM).issuing c0 gM) m true ∧ m.accesses ((world gM).issuing c0 gM) = [] ∧ ((world gM).issuing c0 gM).allowed [] 1 2 :=
  ⟨_, rfl, issues_of_check (by decide +kernel), ⟨by decide +kernel, by decide +kernel, by decide +kernel⟩, by decide +kernel, by show _ = _; decide +kernel⟩

theorem witness_GlobalAccesses_store_fault : ∃ m, globalStore (.stgReg { sp := 0, pred := 0, l := 0, n := 6, b := 8, d := 14, z := 0 }) = some m ∧
    Issues (world gM) c0 gM (memInf m.sp gM) ∧ MemReady ((world gM).issuing c0 gM) m true ∧
    let x := (world gM).issuing c0 gM
    x.accessFault? ((m.accesses x).map fun l => { l with x := x.storeData m.d m.run l.lane }) 1 2 = some (3, 0x11000, 0) :=
  ⟨_, rfl, issues_of_check (by decide +kernel), ⟨by decide +kernel, by decide +kernel, by decide +kernel⟩, by decide +kernel⟩

theorem witness_UniformMemory :
    let x := (world gM).issuing c0 gM
    let l : LaneAcc := { lane := 0, addr := 0x1004, x := 0 }
    let far : LaneAcc := { lane := 0, addr := 0, x := 0 }
    Issues (world gM) c0 gM {} ∧ illegalUaMem { b := 1, a := 8, d := 191 } = none ∧
      4 * ((gM.spair 8 + BitVec.ofInt 64 (gM.sreg 1).toInt).toNat / 4) = 0x1004 ∧ x.sWait [8, 9, 1, 191] = none ∧
      x.accessFault? [l] 4 1 = none ∧ x.accessFault? [l] 4 2 = none ∧ x.storeWait false [l] 4 = none ∧ x.loadWait false [l] 4 = none ∧ x.room 0 none = none ∧ x.room 1 none = none ∧
      x.accessFault? [far] 4 1 = some (3, 0, 0) ∧ x.accessFault? [far] 4 2 = some (3, 0, 0) :=
  ⟨issues_of_check (by decide +kernel), by decide +kernel⟩

theorem witness_UniformMemory_pref :
    let x := (world gM).issuing c0 gM
    let ls := (lanesOf x.w (gM.written (gM.path 0) 0)).map fun l =>
      ({ lane := l, addr := (gM.spair 8 + BitVec.ofInt 64 ((x.vsrc 5).lane l).toInt).toNat } : LaneAcc)
    Issues (world gM) c0 gM (memInf 0 gM) ∧ (Instr.pref { sp := 0, pred := 0, l := 0, n := 5, b := 8 }).illegalCode = none ∧ x.laneFault [5] [] [] = none ∧
      x.sWait [8, 9] = none ∧ x.vWait (plainRegs x.d [5]) = none ∧ x.popWait [5] = none ∧ gM.rOn = false ∧ ls ≠ [] ∧ x.accessFault? ls 1 1 = none ∧
      x.room 0 (x.flagOf 0) = none :=
  ⟨issues_of_check (by decide +kernel), by decide +kernel⟩

/-- The atomic's lanes by the vector register that holds their offsets. -/
def atomLanes (x : IssueCtx) (n : Nat) : List LaneAcc :=
  (lanesOf x.w x.p.mask).map fun l => { lane := l, addr := (x.g.spair 8 + BitVec.ofInt 64 ((x.vsrc n).lane l).toInt).toNat, x := (x.atomData 3 0 l).1, y := (x.atomData 3 0 l).2 }

theorem witness_AtomicsStart :
    let x := (world gM).issuing c0 gM
    Issues (world gM) c0 gM (memInf 0 gM) ∧ (Instr.atom { sp := 0, c := 0, l := 0, n := 5, b := 8, d := 3, o := 0 }).illegalCode = none ∧
      (Instr.red { sp := 0, c := 0, l := 0, n := 5, b := 8, d := 3, o := 0 }).illegalCode = none ∧ gM.rOn = false ∧ x.memFault [5] 3 (atomRun 0) = none ∧
      x.sWait [8, 9] = none ∧ x.memWait [5] 3 (atomRun 0) true true = none ∧ (∀ l ∈ atomLanes x 5, l.addr % 4 = 0 ∧ x.laneAccess 4 3 l = none ∧ x.laneAccess 4 2 l = none) ∧
      x.loadWait false (atomLanes x 5) 4 = none ∧ x.room 1 (x.flagOf 0) = none ∧ x.room 0 (x.flagOf 0) = none ∧ queueOf x.d.qmask 3 = none ∧ ((atomLanes x 7).head?.map LaneAcc.addr) = some 0x1001 :=
  ⟨issues_of_check (by decide +kernel), by decide +kernel⟩

/-- The second lane of V7 is misaligned, the second of V6 leaves the lease; the lanes before them are in order. -/
theorem witness_AtomicsStart_lanes :
    let g := { gM with v := [(6, 0x10000_00000000), (7, 0x00000001_00000000)] }
    let x := (world g).issuing c0 g
    Issues (world g) c0 g (memInf 0 g) ∧
      (∃ l post, (atomLanes x 7) = (atomLanes x 7).take 1 ++ l :: post ∧ l.addr % 4 ≠ 0) ∧ (∀ m ∈ (atomLanes x 7).take 1, m.addr % 4 = 0 ∧ x.laneAccess 4 3 m = none) ∧
      (∃ l post, (atomLanes x 6) = (atomLanes x 6).take 1 ++ l :: post ∧ l.addr % 4 = 0 ∧ x.laneAccess 4 3 l = some (3, 0x11000, 0)) ∧
      (∀ m ∈ (atomLanes x 6).take 1, m.addr % 4 = 0 ∧ x.laneAccess 4 3 m = none) :=
  ⟨issues_of_check (by decide +kernel), ⟨_, _, rfl, by decide +kernel⟩, by decide +kernel, ⟨_, _, rfl, by decide +kernel⟩, by decide +kernel⟩

/-- An atomic of one word into queue 1, which has room (R309). -/
theorem witness_AtomicsStart_queue :
    let g := { gM with queues := [(1, { slots := [(0, 7)], tail := 1 })] }
    let x := (world g).issuing c0 g
    (Instr.atom { sp := 0, c := 0, l := 0, n := 5, b := 8, d := 61, o := 0 }).illegalCode = none ∧ atomRun 0 = 1 ∧ queueOf x.d.qmask 61 = some 1 ∧
      x.memFault [5] 61 1 = none ∧ x.memWait [5] 61 1 true true = none := by decide +kernel

/-- A team with one scratchpad page, and a region of one line there. -/
def descSp : Desc := { desc0 with spages := 1 }
def teamSp : Team := { grid := 1, ctx := 0, idx := 0, core := some 0 }

theorem spReady_of_check {x : IssueCtx} {m : SpOp} {t : Team} {store : Bool}
    (h : x.s.team? x.g.team = some t ∧ x.memFault [m.n] m.d m.run = none ∧ x.memWait [m.n] m.d m.run store (!store) = none ∧
      (x.spLanes (x.g.written x.p m.pred.toNat) m.n m.imm (formBytes m.form) 1).toOption = some (m.accesses x) ∧
      (∀ ln ∈ touchedLines (m.accesses x) (formBytes m.form), t.lineFilling ln = false ∧ t.lineI ln = false) ∧
      t.isFar x.c.core (m.accesses x) (formBytes m.form) = false ∧ x.spWait store (m.accesses x) (formBytes m.form) = none)
    (hf : ∀ f, x.flagOf m.l = some f → x.g.flag f < 255) : SpReady x m t store :=
  ⟨h.1, h.2.1, h.2.2.1, ok_of_toOption h.2.2.2.1, h.2.2.2.2.1, h.2.2.2.2.2.1, h.2.2.2.2.2.2, hf⟩

theorem witness_ScratchpadAccesses_load : ∃ m, spLoad (.ldsp { sp := 0, pred := 0, l := 0, n := 5, i := 63, d := 3, z := 2 }) = some m ∧
    let g := { gM with gsr := 4 }
    let x := (world g descSp).issuing c0 g
    Issues (world g descSp) c0 g (memInf m.sp g) ∧ SpReady x m teamSp false ∧ g.gsrBit 2 = true ∧ (x.s.core 0).canPlace 0 g.wc = true :=
  ⟨_, rfl, issues_of_check (by decide +kernel), spReady_of_check (by decide +kernel) (of_none (by decide +kernel)), by decide +kernel⟩

/-- The ordinary load, of a group with reuse on, that misses the table (R208). -/
theorem witness_ScratchpadAccesses_misses : ∃ m, spLoad (.ldsp { sp := 0, pred := 0, l := 0, n := 5, i := 63, d := 3, z := 2 }) = some m ∧
    let x := (world gM descSp).issuing c0 gM
    Issues (world gM descSp) c0 gM (memInf m.sp gM) ∧ SpReady x m teamSp false ∧ m.run = 1 ∧ x.eligible [m.d, m.n] = true ∧ x.looksUp m.d (gM.written (gM.path 0) 0) = true ∧
      ((world gM descSp).core 0).lookup (x.loadKey m.word (some m.n) 0 (gM.written (gM.path 0) 0) m.d (some gM.team) (touchedPages (m.accesses x) 4)) = none :=
  ⟨_, rfl, issues_of_check (by decide +kernel), spReady_of_check (by decide +kernel) (of_none (by decide +kernel)), by decide +kernel⟩

theorem witness_ScratchpadAccesses_wide : ∃ m, spLoad (.ldsp { sp := 0, pred := 0, l := 0, n := 5, i := 0, d := 14, z := 3 }) = some m ∧
    let g := { gM with gsr := 4 }
    let x := (world g descSp).issuing c0 g
    SpReady x m teamSp false ∧ m.form = 3 ∧ (x.s.core 0).twoFree g.wc :=
  ⟨_, rfl, spReady_of_check (by decide +kernel) (of_none (by decide +kernel)), rfl,
    ⟨8, 9, by decide +kernel⟩⟩

theorem witness_ScratchpadAccesses_store : ∃ m, spStore (.stsp { sp := 0, pred := 0, l := 0, n := 5, i := 63, d := 3, z := 3 }) = some m ∧
    let g := { gM.updPath 0 (fun p => { p with seta := 11 }) with flags := [(11, 254)] }
    let x := (world g descSp).issuing c0 g
    Issues (world g descSp) c0 g (memInf m.sp g) ∧ SpReady x m teamSp true :=
  ⟨_, rfl, issues_of_check (by decide +kernel), spReady_of_check (by decide +kernel) (of_some (k := 11) (by decide +kernel) (by decide +kernel))⟩

theorem witness_ScratchpadAtomics :
    let x := (world gM descSp).issuing c0 gM
    let ls := (lanesOf x.w x.p.mask).map fun l => ({ lane := l, addr := (((x.vsrc 5).lane l).toInt + (63 * 4 : Nat)).toNat } : LaneAcc)
    Issues (world gM descSp) c0 gM (memInf 0 gM) ∧ (Instr.atsp { sp := 0, c := 0, l := 0, n := 5, i := 63, d := 3, o := 0 }).illegalCode = none ∧
      x.s.team? gM.team = some teamSp ∧ x.memFault [5] 3 (atomRun 0) = none ∧ x.memWait [5] 3 (atomRun 0) true true = none ∧
      x.spLanes x.p.mask 5 (63 * 4) 4 4 = .ok ls ∧ (∀ ln ∈ touchedLines ls 4, teamSp.lineFilling ln = false ∧ teamSp.lineI ln = false) ∧ teamSp.isFar 0 ls 4 = false ∧ x.spWait true ls 4 = none ∧ x.flagOf 0 = none ∧ queueOf x.d.qmask 3 = none ∧
      (x.s.core 0).canPlace 0 gM.wc = true ∧ atomRegs 3 0 = [3] :=
  ⟨issues_of_check (by decide +kernel), by decide +kernel, by decide +kernel, by decide +kernel, by decide +kernel, ok_of_toOption (by decide +kernel),
    by decide +kernel⟩

/-- A token outstanding, a token complete, and one with a failed write-back that no FWAIT reported. -/
def gF : Group := { g1 with tokens := [(0, { out := true }), (2, { wbFault := some 0x1000 })], ctrs := [(0, [(7, false), (8, false)])] }

theorem witness_FencesAndCounters :
    let s := world gF
    let x := s.issuing c0 gF
    Issues s c0 gF { sp := (0 : BitVec 1) == 1 } ∧ (Instr.fence { sp := 0, g := 3, k := 3, t := 7 }).illegalCode = none ∧
      (gF.tokens.get {} 0).out = true ∧ (gF.tokens.get {} 7).out = false ∧ (gF.tokens.get {} 7).wbFault = none ∧
      (gF.tokens.get {} 2).out = false ∧ (gF.tokens.get {} 2).wbFault = some 0x1000 ∧ s.team? gF.team = some teamSp ∧
      (teamSp.dirtyLines fun _ r => decide ((if r.sys then 3 else 2) ≤ (3 : BitVec 2).toNat)) = [] ∧
      (Instr.waitc { sp := 0, v := 1, c := 5 }).illegalCode = none ∧ x.sWait [1] = none ∧ gF.ctr 0 ≤ (gF.sreg 1).toNat ∧ (gF.sreg 9).toNat < gF.ctr 0 :=
  ⟨issues_of_check (by decide +kernel), by decide +kernel⟩

/-- The path waits for fence 3 of token 0; a sibling has bound the token to fence 9. -/
def gFw : Group := { g1 with tokens := [(0, { out := true, bound := 9 })] }.updPath 0 fun p => { p with fwait := some (p.pc, 3) }

theorem witness_FencesAndCounters_rebound :
    Issues (world gFw) c0 gFw { sp := (0 : BitVec 1) == 1 } ∧ (gFw.path 0).fwait = some ((gFw.path 0).pc, 3) ∧ 3 ≠ (gFw.tokens.get {} 0).bound :=
  ⟨issues_of_check (by decide +kernel), by decide +kernel⟩

/-- Operands of SPMAP in S8 to S11: the lease's first 128 bytes at offset 0 of the scratchpad. -/
def gR (va off w : W32) : Group := { g1 with s := [(8, va), (10, off), (11, w)] }
def spmapGood (g : Group) (t : Team) (r : Nat) : Bool :=
  let va := g.spair 8
  let off := (g.sreg 10).toNat
  let w := g.sreg 11
  let len := w.toNat % 2 ^ 20
  decide (va.toNat < 2 ^ 52 ∧ va.toNat % 128 = 0 ∧ off < 2 ^ 19 ∧ off % 128 = 0 ∧ len % 128 = 0 ∧ w.toNat / 2 ^ 20 % 2 ^ 10 = 0) &&
    spRangeOk descSp off len && !t.meetsRegion (some r) off len

theorem witness_Regions_spmap :
    let g := gR 0x1000 0 128
    let s := world g descSp
    let x := s.issuing c0 g
    Issues s c0 g { sp := (0 : BitVec 1) == 1 } ∧ (Instr.spmap { sp := 0, b := 8, r := 7 }).illegalCode = none ∧ x.sWait [8, 9, 10, 11] = none ∧
      s.team? g.team = some teamSp ∧ spmapGood g teamSp 7 = true ∧ s.off.spBusy g.team 0 128 = false ∧ teamSp.regions.find 7 = none ∧
      s.off.mayAccess (s.grid g.grid) 1 0x1000 128 = true :=
  ⟨issues_of_check (by decide +kernel), by decide +kernel⟩

theorem witness_Regions_spmap_bad : spmapGood (gR 0x1000 0 127) teamSp 7 = false ∧ spmapGood (gR 0x1000 0x80000 128) teamSp 7 = false ∧
    spmapGood (gR 0x1000 0 0) teamSp 7 = true ∧ spmapGood (gR 0x8000 0 128) teamSp 7 = true ∧
    (world (gR 0x8000 0 128) descSp).off.mayAccess ((world (gR 0x8000 0 128) descSp).grid 1) 1 0x8000 128 = false := by decide +kernel

/-- Region 0 is mapped with line 0 dirty and line 1 not filled. -/
def teamR : Team := { teamSp with regions := [(0, { off := 0, len := 256, va := 0x1000, sys := false, we := true })], lines := [(0, { filling := false, dirty := 1 })] }
def worldR (g : Group) : State := (world g descSp).updTeam 1 fun _ => teamR

theorem witness_Regions_mapped :
    let s := worldR g1
    let x := s.issuing c0 g1
    let lns := x.regionLines { off := 0, len := 256, va := 0x1000, sys := false, we := true } 0 0
    Issues s c0 g1 { sp := (0 : BitVec 1) == 1 } ∧ s.team? g1.team = some teamR ∧ illegalRegion 0 0 = none ∧ teamR.regions.find 7 = none ∧
      teamR.regions.find 0 = some { off := 0, len := 256, va := 0x1000, sys := false, we := true } ∧ lns ≠ [] ∧ lns.find? teamR.lineFilling = none ∧
      x.fillFault teamR lns = none ∧ x.room 2 (x.flagOf 0) = none ∧ x.room 3 (x.flagOf 0) = none :=
  ⟨issues_of_check (by decide +kernel), by decide +kernel⟩

/-- Region 0 is mapped and clean, and SPMAP puts it elsewhere in the page. -/
theorem witness_Regions_remap :
    let t : Team := { teamR with lines := [] }
    let g := gR 0x1000 0x100 256
    let s := (world g descSp).updTeam 1 fun _ => t
    let x := s.issuing c0 g
    Issues s c0 g { sp := (0 : BitVec 1) == 1 } ∧ x.sWait [8, 9, 10, 11] = none ∧ s.team? g.team = some t ∧ spmapGood g t 0 = true ∧
      s.off.mayAccess (s.grid g.grid) 1 0x1000 256 = true ∧ s.off.spBusy g.team 0x100 256 = false ∧ (t.regions.find 0).isSome = true ∧
      s.off.spBusy g.team 0 256 = false ∧ (t.dirtyLines fun q _ => q == 0) = [] ∧ (∀ o ∈ s.ops, o.2.team ≠ g.team) :=
  ⟨issues_of_check (by decide +kernel), by decide +kernel⟩

/-- A COPY and a MATRIX instance of context 0 on core 0. -/
def engines (s : State) : State := { s with srvs := [{ cls := 1, inst := 0, ctx := 0 }, { cls := 2, inst := 0, ctx := 0 }] }
def gC : Group := { g1 with s := [(16, 0x1800), (18, 0x1000), (20, 64)] }

theorem witness_CopiesStart :
    let s := engines (world gC)
    let x := s.issuing c0 gC
    Issues s c0 gC { sp := (0 : BitVec 1) == 1 } ∧ oddReg (16 : BitVec 6) = false ∧ x.sWait [16, 17, 18, 19, 20, 21] = none ∧
      s.off.hasCopy 0 gC.ctx = true ∧ (gC.sreg 21).toNat < 2 ^ 18 ∧ (gC.sreg 20).toNat ≤ 2 ^ 31 ∧ CopyReady x (cpyReq gC 16) 0 teamSp 0 :=
  ⟨issues_of_check (by decide +kernel), by decide +kernel, by decide +kernel, by decide +kernel, by decide +kernel, by decide +kernel, by constructor <;> decide +kernel⟩

theorem witness_CopiesStart_chain :
    let s := engines (world gC)
    let x := s.issuing c0 gC
    let q : CopyReq := { cpyReq gC 16 with srcLen := 64 * chainSize 0, dstLen := 64 * chainSize 0, remote := false, fm := false, route := 0, chain := some { srcTy := 0, dstTy := 0, ops := [] } }
    x.sWait ((List.range 16).map fun k => 16 + k) = none ∧
      chainOps (decide ((0 : Nat) = 3 ∧ (0 : Nat) = 3)) (fun k => gC.sreg (24 + k)) ((bytesLE 8 (gC.spair 22).toNat).map BitVec.toNat) = some [] ∧
      CopyReady x q 0 teamSp 0 :=
  ⟨by decide +kernel, by decide +kernel, by constructor <;> decide +kernel⟩

theorem witness_CopiesStart_no_engine : (world gC).off.hasCopy 0 gC.ctx = false := by decide +kernel

/-- Route 0 of context 0 to device 1, for job 9; devices 0 and 1 in a mesh; receive queue 2 of core 0 holds a message of 16 lanes. -/
def linked (s : State) : State :=
  (((s.setReg (.rte 0 0) 0x3).setReg (.rte 0 1) (9 * 2 ^ 14)).setReg .lcfg 0x3E8_0240).updCore 0 fun k =>
    { k with recv := [(1, { ctx := 0, team := 9, st := 1 }), (2, { ctx := 0, team := 1, st := 1, msgs := [{ width := 16, img := 5, flits := 2 }] })] }
def gB : Group := { g1 with mbs := [(1, { svalid := true })], mbg := [(1, { rq := 2, rvalid := true })] }

/-- The queue's first waiter is group 0, which issues. -/
def mailWaits (ws : List (Nat × Nat)) (m : List Msg) : RecvQ := { ctx := 0, team := 1, st := 1, msgs := m, waiters := ws }

theorem witness_Mailboxes :
    let s := linked (world gB)
    let x := s.issuing c0 gB
    Issues s c0 gB { sp := (0 : BitVec 1) == 1 } ∧ Issues s c0 gB (unitInf 0 gB) ∧ x.sWait [9] = none ∧ (gB.sreg 9).toNat < 2 ^ 11 ∧
      s.off.partHasUnit (s.off.ctxPart gB.ctx) (unitOfCore 0) = true ∧ (gB.mbSend 0).busy = false ∧ (gB.mbSend 0).svalid = false ∧
      ((s.core 0).recvQ 0).st = 0 ∧ ((s.core 0).recvQ 2).team = gB.team ∧ ((s.core 0).recvQ 1).team ≠ gB.team ∧ ((s.core 0).recvQ 1).st ≠ 0 ∧
      s.off.rteValid 0 = true ∧ s.off.rteLctx 0 = gB.ctx ∧ s.off.rteDrain 0 = false ∧ s.off.rteValid 1023 = false ∧ (gB.mbRecv 0).rvalid = false ∧
      (gB.mbRecv 1).rvalid = true ∧ (gB.mbSend 1).svalid = true ∧ (gB.mbSend 1).busy = false ∧ x.laneFault [1] [] [] = none ∧ x.laneWait [1] [] [] = none ∧
      x.laneFault [] [] [3] = none ∧ x.laneWait [] [] [3] = none ∧ (s.core 0).canPlace 0 gB.wc = true ∧ queueOf x.d.qmask 3 = none ∧
      ((s.core 0).recvQ 2).msgs = [{ width := 16, img := 5, flits := 2 }] ∧ ((s.core 0).recvQ 2).waiters = [] ∧ 2 ^ 12 ≤ (g1.sreg 2).toNat :=
  ⟨issues_of_check (by decide +kernel), issues_of_check (by decide +kernel), by decide +kernel⟩

/-- Values of MBSET at their bounds: core 255, of no partition; queue 16; a word of 2^11, and route 1023, which is not valid; register 3. -/
theorem witness_Mailboxes_limits :
    let s (v : W32) : State := linked (world { gB with s := [(9, v)] })
    (∀ v ∈ [(0xFFF : W32), 15, 16, 0x800, 0x3FF], Issues (s v) c0 { gB with s := [(9, v)] } { sp := (0 : BitVec 1) == 1 }) ∧
      (s 0xFFF).off.partHasUnit ((s 0xFFF).off.ctxPart 0) (unitOfCore (0xFFF % 256)) = false ∧ 0xFFF < 2 ^ 12 ∧ 16 ≤ 16 ∧ 2 ^ 11 ≤ 0x800 ∧
      (s 0x3FF).off.rteValid (0x3FF % 1024) = false ∧ (3 : BitVec 2) ≠ 0 :=
  ⟨by
    intro v hv
    fin_cases hv <;> exact issues_of_check (by decide +kernel), by decide +kernel⟩

/-- A message that is bad; an empty queue, waited for already or not; one whose first waiter is another group. -/
theorem witness_Mailboxes_waits :
    (mailWaits [] [{ width := 16, img := 5, flits := 2, bad := true }]).msgs = [{ width := 16, img := 5, flits := 2, bad := true }] ∧
    ((c0.slot, c0.path) ∈ (mailWaits [(0, 0)] []).waiters) ∧ (mailWaits [(0, 0)] []).msgs = [] ∧ ((c0.slot, c0.path) ∉ (mailWaits [] []).waiters) ∧
    (∃ w ws, (mailWaits [(4, 0)] [{ width := 16, img := 5, flits := 2 }]).waiters = w :: ws ∧ w.1 ≠ c0.slot) ∧
    (∃ w ws, (mailWaits [(0, 2), (4, 0)] []).waiters = w :: ws ∧ w.1 = c0.slot) ∧ (gB.mbSend 1).svalid = true :=
  ⟨rfl, by decide +kernel, rfl, by decide +kernel, ⟨_, _, rfl, by decide⟩, ⟨_, _, rfl, rfl⟩, by decide +kernel⟩

/-- The remote binding is on: over route 0, whose link is up; and over route 5, which is not valid (R342). -/
def gRem (route : Nat) : Group := { gM with rOn := true, route }
def remSt (route : Nat) : State := (linked (world (gRem route))).setReg (.lstat 0) (BitVec.ofNat 64 (1 + 255 * 2 + 2 * 2 ^ 9))

theorem witness_GlobalAccesses_remote : ∃ m n, globalLoad (.ldgReg { sp := 0, pred := 0, l := 0, n := 5, b := 8, d := 15, z := 2 }) = some m ∧
    globalStore (.stgReg { sp := 0, pred := 0, l := 0, n := 5, b := 8, d := 14, z := 2 }) = some n ∧
    Issues (remSt 0) c0 (gRem 0) (memInf m.sp (gRem 0)) ∧ MemReady ((remSt 0).issuing c0 (gRem 0)) m false ∧ MemReady ((remSt 0).issuing c0 (gRem 0)) n true ∧
    ((remSt 0).issuing c0 (gRem 0)).allowed [] 4 1 ∧
    (let x := (remSt 0).issuing c0 (gRem 0)
     x.storeWait true (m.accesses x) 4 = none ∧ x.loadWait true (n.accesses x) 4 = none ∧ m.accesses x ≠ [] ∧ x.room 0 (x.flagOf 0) = none) ∧
    Issues (remSt 5) c0 (gRem 5) (memInf m.sp (gRem 5)) ∧ MemReady ((remSt 5).issuing c0 (gRem 5)) m false ∧ (remSt 5).off.routeOpen 0 5 = false :=
  ⟨_, _, rfl, rfl, issues_of_check (by decide +kernel), ⟨by decide +kernel, by decide +kernel, by decide +kernel⟩, ⟨by decide +kernel, by decide +kernel, by decide +kernel⟩,
    by show _ = _; decide +kernel, by decide +kernel, issues_of_check (by decide +kernel), ⟨by decide +kernel, by decide +kernel, by decide +kernel⟩, by decide +kernel⟩

/-- A remote atomic of SYSTEM scope on open route 0, one of another scope, and one on route 5 (R340, R342). -/
theorem witness_AtomicsStart_remote :
    let x := (remSt 0).issuing c0 (gRem 0)
    (Instr.atom { sp := 0, c := 3, l := 0, n := 5, b := 8, d := 3, o := 0 }).illegalCode = none ∧ (gRem 0).rOn = true ∧ (remSt 0).off.routeOpen 0 0 = true ∧
      (remSt 5).off.routeOpen 0 5 = false ∧ (2 : BitVec 2) ≠ 3 ∧ x.memFault [5] 3 (atomRun 0) = none ∧ x.memWait [5] 3 (atomRun 0) true true = none ∧
      x.sWait [8, 9] = none ∧ (∀ l ∈ atomLanes x 5, l.addr % 4 = 0) ∧ x.loadWait true (atomLanes x 5) 4 = none ∧ x.room 0 (x.flagOf 0) = none := by decide +kernel

/-- A descriptor at 0x1000: job 9, a broadcast of 4 words from device 0 over devices 0 and 1, SEND and RECV in the lease. -/
def collImage : Nat := 9 + 0 * 2 ^ 64 + 4 * 2 ^ 128 + 0x1100 * 2 ^ 192 + 0x1200 * 2 ^ 256 + 3 * 2 ^ 320
def collWorld : State :=
  let s := linked (world gM)
  { s with msys := { s.msys with cells := writeBytes s.msys.cells placedFrame (bytesLE 64 collImage) } }

/-- Its path has read the descriptor `img`, or not asked for it, or failed to read it. -/
def gColl (d : Option CollDesc) : Group := gM.updPath 0 fun p => { p with desc := d, seta := 11 }
def collRead (d : Option CollDesc) (colls : SMap Coll := []) : State :=
  let s := collWorld.updGroup 0 0 fun _ => gColl d
  { s with lodra := { s.lodra with colls } }

theorem witness_CollectivesStart_reads :
    let s := collRead none
    let x := s.issuing c0 (gColl none)
    Issues s c0 (gColl none) { sp := (0 : BitVec 1) == 1 } ∧ (Instr.coll { sp := 0, l := 0, b := 8, g := 0, r := 0, e := 0 }).illegalCode = none ∧
      x.sWait [8, 9] = none ∧ ((gColl none).path 0).desc = none ∧ ((gColl none).spair 8).toNat = 0x1000 ∧ x.laneAccess 64 1 { lane := 0, addr := 0x1000 } = none ∧
      x.laneAccess 64 1 { lane := 0, addr := 0x8000 } ≠ none ∧ 0x1004 % 64 ≠ 0 ∧
      Issues (collRead (some (.failed 5 0 0))) c0 (gColl (some (.failed 5 0 0))) { sp := (0 : BitVec 1) == 1 } :=
  ⟨issues_of_check (by decide +kernel), by decide +kernel, by decide +kernel, by decide +kernel, by decide +kernel, by decide +kernel, by decide +kernel, by decide,
    issues_of_check (by decide +kernel)⟩

def collImg (job count send recv peers : Nat) : Nat := job + count * 2 ^ 128 + send * 2 ^ 192 + recv * 2 ^ 256 + peers * 2 ^ 320
/-- Which refusal, if any, a descriptor meets: its form, SEND, RECV, a route. -/
def collChecks (img : Nat) : List Bool :=
  let s := collRead (some (.bytes img))
  let d := collDesc img
  [decide (d.legal s.off.devId), s.off.mayRange (s.grid 1) 1 d.send (d.count * collSize d.ty),
   s.off.mayRange (s.grid 1) 2 d.recv (collRecvCount d.op d.count d.devices.length * collSize d.ty),
   d.devices.all fun n => n == s.off.devId || (s.off.jobRoute 0 d.job n).isSome]

/-- In turn: a descriptor in order; one of no elements; SEND outside the lease; RECV outside it; a peer that no route of its job reaches. -/
theorem witness_CollectivesStart :
    let img := collImg 9 4 0x1100 0x1200 3
    let s := collRead (some (.bytes img))
    let g := gColl (some (.bytes img))
    Issues s c0 g { sp := (0 : BitVec 1) == 1 } ∧ (s.issuing c0 g).sWait [8, 9] = none ∧ (g.path 0).desc = some (.bytes img) ∧ collChecks img = [true, true, true, true] ∧
      s.lodra.colls = [] ∧ (s.issuing c0 g).flagOf 0 = some 11 ∧ g.flag 11 < 255 ∧
      collChecks (collImg 9 0 0x1100 0x1200 3) = [false, true, true, true] ∧ collChecks (collImg 9 4 0x8100 0x1200 3) = [true, false, true, true] ∧
      collChecks (collImg 9 4 0x1100 0x8200 3) = [true, true, false, true] ∧ collChecks (collImg 7 4 0x1100 0x1200 3) = [true, true, true, false] :=
  ⟨issues_of_check (by decide +kernel), by decide +kernel⟩

/-- The team has a collective of the same job and instance, or two of others. -/
def otherColl (job : Nat) : Coll :=
  { team := 1, ctx := 0, core := 0, slot := 0, gen := 0, path := 0, pid := 0, pc := 0, job, inst := 0, op := 0, ty := 0, hto := 5, count := 1, send := 0, recv := 0
    peers := 3, root := 0, st := .wait, hoisted := 1, timer := 0 }
theorem witness_CollectivesStart_team :
    ((collRead none [(1, otherColl 9)]).lodra.colls.filter fun y => y.2.team == gM.team) = [(1, otherColl 9)] ∧ (otherColl 9).job = (collDesc (collImg 9 4 0x1100 0x1200 3)).job ∧
    (otherColl 9).inst = (collDesc (collImg 9 4 0x1100 0x1200 3)).inst ∧ ((collRead none [(1, otherColl 8), (2, otherColl 7)]).lodra.colls.filter fun y => y.2.team == gM.team).length = 2 := by
  decide +kernel

/-! ### The access thread -/

def a0 : Acc := { pc := 0x1000, left := 1, ax := [(1, 0x1000), (2, 0x1001)], loops := [{ count := 2, body := 0x1000, left := 5 }] }
def gA : Group := { g1 with acc := some a0, flags := [(1, 1), (2, 255)], queues := [(1, { slots := [(0, 7)], tail := 1 })] }
def accWorld : State := { world gA with cur := some cA }

theorem witness_AccessThreads : AccIssues accWorld cA gA a0 ∧
    (Instr.afor { a := 1, k := 11, c := 0, g := 0, x := 1 }).illegalCode = none ∧ (1 : BitVec 3).toNat = a0.loops.length ∧ 0 < (gA.sreg 1).toNat ∧
    gA.flag 11 = 0 ∧ gA.flag 1 ≠ 0 ∧ (0 : BitVec 3).toNat ≠ a0.loops.length ∧ (0 : BitVec 3).toNat + 1 = a0.loops.length ∧
    a0.loops = [] ++ [{ count := 2, body := 0x1000, left := 5 }] ∧ (1 : BitVec 3).toNat + 1 ≠ a0.loops.length ∧
    (Instr.aset { i := 0, a := 2, x := 0 }).illegalCode = none ∧ (Instr.ainc { i := 0, f := 1, a := 0, x := 0 }).illegalCode = none ∧
    (Instr.asig { c := 1, g := 0, k := 11 }).illegalCode = none ∧ gA.flag 1 < 255 ∧ 255 ≤ gA.flag 2 :=
  ⟨⟨by decide +kernel, by decide +kernel, by decide +kernel, by decide +kernel, by decide +kernel⟩, by decide +kernel⟩

theorem witness_AccessThreads_queues :
    let x := accWorld.accessing cA gA a0
    let d := (accWorld.grid gA.grid).desc
    d.qmask.testBit 2 = false ∧ d.qmask.testBit 1 = true ∧ (a0.ax.get 0 2).toNat % 4 ≠ 0 ∧ (a0.ax.get 0 1).toNat % 4 = 0 ∧ (gA.queue 1).room d.qdepth = true ∧
      x.fault? 0x1000 1 = none ∧ x.fault? 0x1000 2 = none ∧ gA.ctr 5 < 255 ∧ (gA.queue 0).len = 0 ∧ (gA.queue 1).len ≠ 0 ∧
      ({ slots := [(0, 1), (1, 2)], tail := 2 } : OpQueue).room d.qdepth = false := by decide +kernel

/-- An AFOR with a count of 0 goes on after the ANEXT at the next parcel; one with its acquire bit waits for the thread's accesses; ASIG with
its release bit for a store. -/
def aLoop : Acc := { a0 with loops := [], left := 3, stores := [40] }
def gLoop : Group := { gA with acc := some aLoop }
def loopSt : State :=
  let s := { world gLoop with cur := some cA, ops := [(40, { kind := .astq, left := 1 })] }
  { s with msys := { s.msys with cells := writeBytes s.msys.cells 0x2004 (bytesLE 4 115) } }
theorem witness_AccessThreads_loops : AccIssues loopSt cA gLoop aLoop ∧ (0 : BitVec 3).toNat = aLoop.loops.length ∧ (gLoop.sreg 9).toNat = 0 ∧
    (loopSt.off.afterNext gLoop.ctx (aLoop.pc + 4) (aLoop.left - 1) 0 (loopSt.off.slotParcels (loopSt.grid gLoop.grid) (aLoop.pc + 4).toNat)).isSome = true ∧
    (loopSt.accessing cA gLoop aLoop).unperformed = true ∧ (accWorld.accessing cA gA a0).unperformed = false ∧ aLoop.stores ≠ [] ∧ gLoop.flag 1 < 255 ∧
    ({ a0 with loops := [{ count := 1, body := 0x1000, left := 5 }] } : Acc).loops = [] ++ [{ count := 1, body := 0x1000, left := 5 }] :=
  ⟨⟨by decide +kernel, by decide +kernel, by decide +kernel, by decide +kernel, by decide +kernel⟩, by decide +kernel⟩

theorem witness_CodebookLoads :
    let x := (world g1).issuing c0 g1
    Issues (world g1) c0 g1 (memInf 0 g1) ∧ x.laneFault [1] [] [] = none ∧ x.laneWait [1] [] [] = none ∧ (1 : BitVec 6).toNat < 60 :=
  ⟨issues_of_check (by decide +kernel), by decide +kernel⟩

/-! ### The matrix engine -/

def mop0 : MOp := { kind := .zero, ctx := 0, team := 1, slot := 0, gen := 0, path := 0, pc := 0, mask := 0 }
def banked (b : Bank) (g : Group := g1) (d : Desc := desc0) : State := (world g d).updCore 0 fun k => { k with banks := [(0, b)] }
def bank0 : Bank := { team := some 1, rowM := 3, colM := 1, depM := 1 }

theorem witness_MatrixEntries : ∃ F, mxForm (.mzero { r := 81 }) = some F ∧
    let s := banked bank0
    let x := s.issuing c0 g1
    (Instr.mzero { r := 81 }).illegalCode = none ∧ Issues s c0 g1 {} ∧ s.bankOf 0 g1.team = some (0, bank0) ∧ (s.core 0).banks.find 0 = some bank0 ∧
      x.sWait F.s = none ∧ F.limits x = true ∧ x.runsFault (F.runs x) = none ∧ x.vWait ((F.runs x).flatMap runRegs) = none ∧ bank0.q.length < 8 :=
  ⟨_, rfl, by decide +kernel, issues_of_check (by decide +kernel), by decide +kernel⟩

theorem witness_MatrixEntries_mma : ∃ F, mxForm (.mma { b := 4, a := 0, t := 2, r := 0 }) = some F ∧
    let x := (banked bank0).issuing c0 g1
    (Instr.mma { b := 4, a := 0, t := 2, r := 0 }).illegalCode = none ∧ x.runsFault (F.runs x) = none ∧ x.vWait ((F.runs x).flatMap runRegs) = none :=
  ⟨_, rfl, by decide +kernel⟩

theorem witness_MatrixEntries_mml : ∃ F, mxForm (.mml { k := 0, l := 1, t := 2, r := 0 }) = some F ∧
    let g := { g1 with s := [(1, 0x02000000 + 0x01000000)] }
    let x := (banked bank0 g { desc0 with qdepth := 32 }).issuing c0 g
    (Instr.mml { k := 0, l := 1, t := 2, r := 0 }).illegalCode = none ∧ x.sWait F.s = none ∧ F.limits x = true ∧ x.runsFault (F.runs x) = none :=
  ⟨_, rfl, by decide +kernel⟩

theorem witness_MatrixEntries_none_and_full : (world g1).bankOf 0 g1.team = none ∧
    (banked { bank0 with q := List.replicate 8 mop0 }).bankOf 0 g1.team = some (0, { bank0 with q := List.replicate 8 mop0 }) ∧
    8 ≤ (List.replicate 8 mop0).length := by decide +kernel

theorem witness_BankAcquisition : Issues (engines (world g1)) c0 g1 {} ∧ (engines (world g1)).bankOf 0 g1.team = none ∧
    (engines (world g1)).srv? 1 0 g1.ctx 0 ≠ none ∧ (world g1).srv? 1 0 g1.ctx 0 = none ∧
    (((engines (world g1)).core 0).banks.get {} 0).team = none ∧ (((engines (world g1)).core 0).banks.get {} 0).q = [] ∧
    (banked bank0).bankOf 0 g1.team ≠ none ∧ ((banked { bank0 with team := some 9 }).core 0).banks.get {} 0 = { bank0 with team := some 9 } :=
  ⟨issues_of_check (by decide +kernel), by decide +kernel⟩

/-- S8 to S10 name a tile of the lease; S2 is no multiple of 4. -/
def gT : Group := { g1 with s := [(4, 0x1002), (8, 0x1000), (10, 64), (12, 0x8000)] }

theorem witness_MatrixMemory :
    let f : MemTileF := { b := 8, g := 2, l := 0, e := 0, c := 0, r := 0 }
    let s := banked bank0 gT
    let x := s.issuing c0 gT
    (Instr.mld f).illegalCode = none ∧ (Instr.mst f).illegalCode = none ∧ Issues s c0 gT {} ∧ s.bankOf 0 gT.team = some (0, bank0) ∧
      (s.core 0).banks.find 0 = some bank0 ∧ x.sWait [8, 9, 10] = none ∧ (gT.spair 8).toNat % 4 = 0 ∧ (gT.sreg 10).toNat % 4 = 0 ∧
      x.accessFault? (tileLanes x bank0 f false) 4 1 = none ∧ x.accessFault? (tileLanes x bank0 f true) 4 2 = none ∧ tileLanes x bank0 f false ≠ [] ∧
      x.room 0 (x.flagOf f.l) = none ∧ x.room 1 (x.flagOf f.l) = none ∧ tileLanes x { bank0 with rowM := 0 } f false = [] ∧
      (gT.spair 4).toNat % 4 ≠ 0 ∧ x.accessFault? (tileLanes x bank0 { f with b := 12 } false) 4 1 ≠ none :=
  ⟨by decide +kernel, by decide +kernel, issues_of_check (by decide +kernel), by decide +kernel⟩

/-- Bank 0 with `m` at its head, started or not, and the operation 40 that it may have. -/
def turnSt (m : MOp) (started : Bool := false) (o : Option Op := none) : State :=
  { banked { bank0 with q := [m], started } with ops := match o with | some o => [(40, o)] | none => [] }
def turnsB (m : MOp) (started : Bool) (o : Option Op := none) : Bool :=
  ((turnSt m started o).core 0).banks.find 0 == some { bank0 with q := [m], started } && !(turnSt m started o).teamHalted m.team
/-- An MLD and an MST of one element, element (0, 0) of the region, at 0x1000. -/
def tileOp (kind : OpKind) (flag : Option Nat := none) (fail : Option (Nat × W64 × Nat) := none) : Op :=
  { kind, left := 0, flag, fail, lanes := [{ lane := 0, addr := 0x1000 }], got := [(0x20, 7)] }

theorem witness_BankTurns : ((banked bank0).core 0).banks.find 0 = some bank0 ∧ bank0.q = [] ∧ turnsB mop0 false ∧ turnsB { mop0 with kind := .mask } false ∧
    turnsB { mop0 with kind := .free } false ∧ turnsB { mop0 with kind := .mma, frags := [([1], [2])] } true ∧
    turnsB { mop0 with kind := .mml, steps := 2, frags := [([1], [2]), ([3], [4])] } true ∧
    turnsB { mop0 with kind := .mml, steps := 2, step := 1, frags := [([1], [2]), ([3], [4])] } true ∧
    turnsB { mop0 with kind := .sca, frags := [([1], [2])] } true := by decide +kernel

theorem witness_BankTurns_writes :
    let m : MOp := { mop0 with kind := .cvt, d := 3, ty := 2, mask := 0xFFFF, region := 81 }
    turnsB m true ∧ (turnSt m true).group? 0 0 = some g1 ∧ g1.gen = m.gen ∧
    ((turnSt m true).writeCvt 0 0 m ({ bank0 with q := [m], started := true }.cvtImage m) 16 (List.range (mcvtCount 16 (regionAt 81).n 2))).isSome = true := by
  decide +kernel

theorem witness_BankTurns_memory :
    (∀ f ∈ [none, some (5, (0 : W64), 0)], turnsB { mop0 with kind := .ld, op := some 40, step := 1 } false (some (tileOp .mld none f)) ∧
      (turnSt { mop0 with kind := .ld, op := some 40, step := 1 } false (some (tileOp .mld none f))).ops.find 40 = some (tileOp .mld none f)) ∧
    turnsB { mop0 with kind := .ld, op := some 40 } false (some (tileOp .mld)) ∧ (turnSt mop0).performed mop0.acqOps = true ∧ (tileOp .mld).left = 0 ∧
    ((tileOp .mld).lanes.map LaneAcc.lane).Nodup ∧ (∀ l ∈ (tileOp .mld).lanes, l.lane < (regionAt 0).n * (regionAt 0).n) ∧
    (∀ f ∈ [none, some 3], turnsB { mop0 with kind := .st, op := some 40 } false (some (tileOp .mst f)) ∧
      (turnSt { mop0 with kind := .st, op := some 40 } false (some (tileOp .mst f))).group? 0 mop0.slot = some g1) ∧ g1.gen = mop0.gen := by decide +kernel

/-- An MLD that has its word writes it into the element that it selects, bit for bit (R371). -/
theorem test_mld_writes : (ran (.matrixQueueTurn 0 0) (turnSt { mop0 with kind := .ld, op := some 40, step := 1 } false (some (tileOp .mld)))).acc 0 0 0 = 7 := by
  decide +kernel

/-- MZERO sets the accumulators of its region to 0 (R364). -/
theorem test_mzero_clears_region : (ran (.matrixQueueTurn 0 0) (banked { bank0 with q := [mop0], tiles := [(0, 0x3F800000)] })).acc 0 0 0 = 0 ∧
    (ran (.matrixQueueTurn 0 0) (banked { bank0 with q := [mop0], tiles := [(0, 0x3F800000)] })).cores.length = 1 := by decide +kernel

/-! ### Directions -/

/-- D0 is the unit vector of component 0, D1 the zero code, D2 undefined. -/
def gD : Group := { g1 with d := [(0, { comps := 0x7FFF, norm := 0 }), (2, { comps := 0, norm := 0x8001 })], s := [(1, 5), (8, 0x1000)] }

theorem witness_DirectionWriters : ∃ F, dirForm (.dadd { sp := 0, b := 3, a := 0, x := 3 }) = some F ∧
    let x := (world gD).issuing c0 gD
    (Instr.dadd { sp := 0, b := 3, a := 0, x := 3 }).illegalCode = none ∧ Issues (world gD) c0 gD (F.inf gD) ∧ DirReady x (F.d :: F.srcs) F.srcs ∧ x.sWait F.s = none ∧
      F.ok x = true ∧ x.d.dirs ≤ 4 :=
  ⟨_, rfl, by decide +kernel, issues_of_check (by decide +kernel), ⟨by decide +kernel, by decide +kernel⟩, by decide +kernel⟩

theorem witness_DirectionWriters_mix : ∃ F, dirForm (.dmix { sp := 0, b := 1, a := 0, x := 3 }) = some F ∧
    let x := (world gD).issuing c0 gD
    DirReady x (F.d :: F.srcs) F.srcs ∧ x.sWait F.s = none ∧ F.ok x = true ∧ 65536 < (g1.sreg 2).toNat ∧ gD.sreg 2 = 0 :=
  ⟨_, rfl, ⟨by decide +kernel, by decide +kernel⟩, by decide +kernel⟩

/-- A write of D1 that is ready, behind one of D0 whose words have not come; they are of two paths. -/
def dw0 : DWrite := { id := 31, d := 1, path := 0, pid := 0, after := [30], val := { comps := 1, norm := 2 }, dov := true, ready := true }
theorem witness_DirectionWriters_pipe : (world { gD with dpipe := [{ dw0 with id := 30, ready := false, d := 0 }, dw0] }).group? 0 0 = some { gD with dpipe := [{ dw0 with id := 30, ready := false, d := 0 }, dw0] } ∧
    dw0.ready = true ∧ ¬ ((0 : Nat) = dw0.d ∧ (30 : Nat) ∈ dw0.after) ∧ ({ dw0 with ready := false } : DWrite).ready = false := by decide +kernel

/-- The pipe holds a write of D3 that a sibling has made, which this path does not wait for (R214, R391). -/
theorem witness_DirectionWriters_sibling :
    let g := { gD with dpipe := [{ dw0 with d := 3, path := 1 }] }
    DirReady ((world g).issuing c0 g) [0, 3] [3] := ⟨by decide +kernel, by decide +kernel⟩

theorem witness_DirectionScalars :
    let x := (world gD).issuing c0 gD
    Issues (world gD) c0 gD { sp := (0 : BitVec 1) == 1 } ∧ Issues (world gD) c0 gD { sp := (0 : BitVec 1) == 1, beats := beatsOf gD } ∧
      DirReady x [0, 2, 1] [0, 2, 1] ∧ (Instr.dscl { sp := 0, b := 1, x := 3 }).illegalCode = none ∧ (Instr.dsetn { sp := 0, b := 1, x := 3 }).illegalCode = none ∧
      (Instr.ddot { sp := 0, r := 4, b := 0, a := 0, x := 255 }).illegalCode = none ∧ x.sWait [1] = none ∧ (x.dread 0).isZero = false ∧ (x.dread 0).isUndef = false ∧
      (x.dread 1).isZero = true ∧ (x.dread 2).isUndef = true ∧ 32767 < (x.dread 0).norm.toInt + 32768 ∧ (x.dread 0).comp 0 * (x.dread 0).comp 0 ≠ 0 :=
  ⟨issues_of_check (by decide +kernel), issues_of_check (by decide +kernel), ⟨by decide +kernel, by decide +kernel⟩, by decide +kernel⟩

theorem witness_DirectionMoves :
    let x := (world gD).issuing c0 gD
    let words : List LaneAcc := (List.range (gD.w + 1)).map fun n => { lane := n, addr := 0x1000 + 4 * n, x := if n < gD.w then (dZero.comps.lane n).setWidth 64 else dZero.norm.setWidth 64 }
    Issues (world gD) c0 gD { sp := (0 : BitVec 1) == 1, beats := beatsOf gD } ∧ illegalDmem { sp := 0, l := 0, b := 8, a := 3, x := 0 } = none ∧ x.sWait [8, 9] = none ∧
      (3 : BitVec 5).toNat < x.d.dirs ∧ (gD.spair 8).toNat % 4 = 0 ∧ x.accessFault? words 4 1 = none ∧ x.accessFault? words 4 2 = none ∧ x.storeWait false words 4 = none ∧
      x.loadWait false words 4 = none ∧ x.room 0 (x.flagOf 0) = none ∧ x.room 1 (x.flagOf 0) = none ∧ DirReady x [3] [3] :=
  by
  refine ⟨issues_of_check (by decide +kernel), ?_, ?_, ?_, ?_, ?_, ?_, ?_, ?_, ?_, ?_, ⟨?_, ?_⟩⟩ <;> decide +kernel

/-- A direction's words outside the lease, and a place that is no multiple of 4 (R382). -/
theorem witness_DirectionMoves_faults :
    let g := { gD with s := [(8, 0x8000), (10, 0x1002)] }
    let x := (world g).issuing c0 g
    let words : List LaneAcc := (List.range (g.w + 1)).map fun n => { lane := n, addr := 0x8000 + 4 * n, x := if n < g.w then (dZero.comps.lane n).setWidth 64 else dZero.norm.setWidth 64 }
    Issues (world g) c0 g (memInf 0 g) ∧ (g.spair 8).toNat = 0x8000 ∧ (x.accessFault? words 4 1).isSome = true ∧ (x.accessFault? words 4 2).isSome = true ∧ (g.spair 10).toNat % 4 ≠ 0 :=
  ⟨issues_of_check (by decide +kernel), by decide +kernel⟩

/-- The magnitude factor of norms that sum to 0: p = 2²³ is the number nearest to 2²³ (R241, R390). -/
theorem witness_DirectionScalars_factor : (2 * 2 ^ 23 - 1) ^ 256 < 2 ^ (24 * 256 + (0 : Nat)) ∧ 2 ^ (24 * 256 + (0 : Nat)) < (2 * 2 ^ 23 + 1) ^ 256 := by
  decide +kernel

theorem witness_DirectionMoves_vectors :
    let x := (world gD).issuing c0 gD
    let o : LaneOp := { dst := 3, mask := (gD.path 0).mask, lane := fun _ => 0 }
    (Instr.dfromv { sp := 0, b := 14, a := 3, t := 0 }).illegalCode = none ∧ (Instr.dfromv { sp := 0, b := 15, a := 3, t := 2 }).illegalCode = none ∧
      (Instr.dtov { sp := 0, r := 4, k := 1, t := 2, a := 0, x := 3 }).illegalCode = none ∧ x.laneFault [] [(14, 2)] [] = none ∧ x.laneWait [] [(14, 2)] [] = none ∧
      x.laneFault [15] [] [] = none ∧ x.laneWait [15] [] [] = none ∧ LaneReady x o ∧ (x.s.core 0).twoFree gD.wc ∧ queueOf x.d.qmask 14 = none :=
  by
  refine ⟨?_, ?_, ?_, ?_, ?_, ?_, ?_, ⟨?_, ?_, ?_, ?_⟩, ⟨8, 9, ?_⟩, ?_⟩ <;> decide +kernel

/-- DNRM reads the zero code as 0xFFFF_8000; DTEST.undef of D2; DDOT of a unit vector with itself rounds to 0x3F7FFC00 (R389, R390). -/
theorem test_dnrm_zero : (grpOf (ran (.dnrm { sp := 0, a := 1, x := 5 }) (world gD))).sreg 5 = 0xFFFF8000 := by decide +kernel
theorem test_ddot_unit : (grpOf (ran (.ddot { sp := 0, r := 0, b := 0, a := 0, x := 5 }) (world gD))).sreg 5 = 0x3F7FFC00 := by decide +kernel
theorem test_dscl_saturates : (grpOf (ran (.dscl { sp := 0, b := 1, x := 0 }) (world { gD with s := [(1, 0x8000)] }))).d.find 0 = some { comps := 0x7FFF, norm := 32767 } ∧
    (grpOf (ran (.dscl { sp := 0, b := 1, x := 0 }) (world { gD with s := [(1, 0x8000)] }))).gsrBit 7 = true := by decide +kernel

/-! ### The device's events -/

def s0 : State := State.reset
/-- The device in a state of bring-up, with its host lanes trained. -/
def inState (n : Nat) : State := (s0.setRfld .bstat 0 3 n).setRfld .hpstat 0 4 15
def ready : State := inState 4
/-- The device is ready and context 0 exists in partition 0, which holds the units of quadrant 0's first slice column. -/
def guest : State := world g1

theorem witness_BringUp : s0.bring = 0 ∧ (inState 1).bring = 1 ∧ (inState 2).bring = 2 ∧ (inState 3).bring = 3 ∧
    ((3 : Nat) ∈ [0, 1, 3] ∧ (2 : Nat) ∉ [0, 1, 3] ∧ ∀ i, i < 2 → i ∈ [0, 1, 3]) ∧ (∀ f ∈ [TestFailure.lodraLane 0 0], f = .lodraLane 0 0) ∧
    loadOrder [] = [] ∧ s0.boot.entered + 5000000 < ({ s0 with now := 5000001 } : State).now ∧
    ((inState 3).rfld .bstat 8 8 = 0) ∧ ({ s0 with boot := { s0.boot with rise := [(3, 8)] } } : State).boot.rise.find 3 = some 8 := by decide +kernel

/-- REG ends once 5 ms have passed, and not at 5 ms (R15). -/
theorem test_reg_limit : (ran .bringupStateTimeout { s0 with now := 5000001 }).bring = 5 ∧ (ran .bringupStateTimeout { s0 with now := 5000000 }).bring = 0 ∧
    (ran .bringupStateTimeout { s0 with now := 5000001 }).rfld .bstat 8 8 = 2 := by decide +kernel

theorem witness_Maintenance : ready.bring = 4 ∧ guest.partValid 0 = true ∧ s0.boot.hbmHeld = none ∧
    (s0.setRfld (.lstat 15) 9 3 2).rfld (.lstat 15) 9 3 = 2 ∧ (s0.setRfld (.lstat 15) 9 3 5).rfld (.lstat 15) 9 3 = 5 ∧
    ((s0.lodra.links.put 15 { ({} : Link) with recal := some 7 }).get {} 15).recal = some 7 ∧ s0.boot.hostLane = none ∧
    (s0.setRfld .hpstat 3 1 1).rfld .hpstat 3 1 = 1 ∧ ready.boot.remap = none ∧ ready.freeSpare (quadOfPart true 63) true = some 2 ∧
    (((ready.setReg .spmap 0xFFFFFFFFFFFFFFFF).freeSpare (quadOfPart true 0) true) = none) := by decide +kernel

/-- An image that its key's signature check accepts, if any does, meets the claim on updates; the check is opaque. -/
theorem witness_Maintenance_update (image : FwImage) (h : imageOk image = true) (h2 : image.stage = 2) (h0 : image.part = 0) :
    (world g1).bring = 4 ∧ (world g1).partValid 0 = true ∧ image.stage = 2 ∧ image.part = 0 ∧ imageOk image = true :=
  ⟨by decide +kernel, by decide +kernel, h2, h0, h⟩

/-- A management message: the 64-byte command with the bytes that are not zero at their places. -/
def msg (fs : List (Nat × Byte)) (payload : Bytes := []) : MgmtMsg :=
  { mseq := 1, resv := 0, command := (List.range 64).map fun i => ((fs.find? fun e => e.1 == i).map Prod.snd).getD 0, payload
    signature := List.replicate 64 0 }

theorem accepted_of_check {s : State} {m : MgmtMsg} {signed early : Bool} {ops : List (Nat × Nat)}
    (hs : signed = true → Config.ed25519Verify s.mgmtKey (Config.sha512 (signedBytes m)) m.signature = true)
    (h : s.rfld .hpstat 0 4 ≠ 0 ∧ (m.command.length = 64 ∧ m.payload.length ≤ 8128 ∧ m.signature.length = 64) ∧
      (s.reg .mseqlast).toNat < m.mseq.toNat ∧ reservedOk m ops = true ∧ (early = true ∨ s.bring = 4)) : Accepted s m signed early ops :=
  { lane := h.1, sizes := h.2.1, fresh := h.2.2.1, signed := hs, zeros := h.2.2.2.1, ready := h.2.2.2.2 }

theorem witness_ManagementMessages :
    Accepted (inState 5) (msg [(0, 0x40)]) false true [(8, 1)] ∧ isConfig (msg [(0, 0x40)]) 0 = true ∧
    Accepted ready (msg [(0, 0x40), (8, 2)] (List.replicate 8 0)) false false [(8, 1)] ∧ isConfig (msg [(0, 0x40), (8, 2)] (List.replicate 8 0)) 2 = true ∧
    Accepted (inState 5) (msg [(0, 0x40), (8, 6)]) false true [(8, 1), (16, 32)] :=
  ⟨accepted_of_check nofun (by decide +kernel), by decide +kernel, accepted_of_check nofun (by decide +kernel), by decide +kernel,
   accepted_of_check nofun (by decide +kernel)⟩

/-- Signed messages meet the claims if the opaque check accepts them. -/
theorem witness_ManagementMessages_signed
    (h : ∀ m : MgmtMsg, Config.ed25519Verify (State.mgmtKey (inState 5)) (Config.sha512 (signedBytes m)) m.signature = true) :
    Accepted (inState 5) (msg [(0, 0x40), (8, 4)]) true true [(8, 1)] ∧ isConfig (msg [(0, 0x40), (8, 4)]) 4 = true ∧ (inState 5).bring = 5 ∧
    Accepted (inState 5) (msg [(0, 0x40), (8, 5)]) true true [(8, 1)] ∧ Accepted (inState 5) (msg [(0, 0x40), (8, 3)] [7]) true true [(8, 2), (16, 8)] ∧
    cmdField (msg [(0, 0x40), (8, 3)] [7]) 9 1 = 0 :=
  ⟨accepted_of_check (fun _ => h _) (by decide +kernel), by decide +kernel, by decide +kernel, accepted_of_check (fun _ => h _) (by decide +kernel),
   accepted_of_check (fun _ => h _) (by decide +kernel), by decide +kernel⟩

theorem witness_ManagementMessages_signed_ready
    (h : ∀ m : MgmtMsg, Config.ed25519Verify (State.mgmtKey ready) (Config.sha512 (signedBytes m)) m.signature = true) :
    Accepted ready (msg [(0, 0x40), (8, 1)]) true false [(8, 1)] ∧ regWrites (words (msg [(0, 0x40), (8, 1)]).payload 0) = some [] ∧
    Accepted ready (msg [(0, 0x40), (8, 7), (16, 16)]) true false [(8, 2), (16, 2), (20, 28)] ∧ ready.host.qps.find 16 = none ∧
    Accepted ready (msg [(0, 0x41), (16, 9)]) true false [(8, 3), (16, 8)] ∧ (ready.reg (.fmeter 0 0)).toNat ≤ 9 :=
  ⟨accepted_of_check (fun _ => h _) (by decide +kernel), rfl, accepted_of_check (fun _ => h _) (by decide +kernel), by decide +kernel,
   accepted_of_check (fun _ => h _) (by decide +kernel), by decide +kernel⟩

/-- The identity register reads part 0x9740 and vendor 0xDA through the register-read command's own path (R25). -/
theorem test_unsigned_read_answers : (ran (.configRegisterRead (msg [(0, 0x40), (8, 2)] (bytesLE 8 0x8))) ready).host.out =
    [.mgmtReply 1 0 (bytesLE 8 4)] := by decide +kernel
/-- A message whose sequence is not new is refused (R89). -/
theorem test_stale_message : ((ran (.configRegisterRead (msg [(0, 0x40), (8, 2)])) (ready.setReg .mseqlast 1)).host.out.length, (ran (.configRegisterRead (msg [(0, 0x40), (8, 2)])) (ready.setReg .mseqlast 1)).reg .mseqlast) = (1, 1) := by
  decide +kernel

theorem witness_RegisterWritesStart : ready.ctxValid 5 = false ∧ Bare ready 5 ∧ (∀ i, i < 1024 → ready.rteValid i = true → ready.rteLctx i ≠ 5) ∧
    (∃ e ∈ ({ ready with host := { ready.host with replies := [(1, [.partitionTableChange 3])] } } : State).host.replies, Instr.partitionTableChange 3 ∈ e.2) ∧
    (∀ e ∈ ready.pkts, e.2.part = 3 → ∀ r, r < 16 → e.2.stage ≠ .net r) ∧ guest.ctxValid 0 = true ∧
    ready.rfld (.ctxcfg 5) 15 1 = 0 ∧ ready.sched.cmds = [] ∧ (∀ c ∈ ready.homes 5, ready.clState c ≤ 1) ∧
    (((ready.setReg (.hqcfg 63) 0x100000).updRing 63 fun _ => { isSet := true, ctx := 9 }).ring 63).isSet = true ∧
    ((ready.setReg (.hqcfg 63) 0x100000).updRing 63 fun _ => { isSet := true, ctx := 9 }).queueCtx 63 = some 0 ∧
    ((0 : Nat) ≠ 9) ∧ ready.msys.tinvs = [] ∧ (∀ e ∈ ready.pkts, e.2.ctx ≠ fld 0x200 0 9) ∧ ready.msys.walkers = [] ∧ (∀ e ∈ guest.msys.tinvs, e.1 ≠ 0x200) ∧
    (0x200 : W64).getLsbD 9 = true ∧ (∃ e ∈ guest.msys.leases, e.1 / 256 = fld 0x200 0 9 ∧ e.2.st ≠ 0 ∧ e.2.base < 2 ^ 52 ∧ 0 < e.2.base + e.2.len) ∧
    (∀ e ∈ ready.msys.leases, e.1 / 256 = fld 0x200 0 9 → e.2.st = 0) :=
  ⟨by decide +kernel, by constructor <;> decide +kernel, by decide +kernel⟩

theorem witness_DebugBlock :
    let s := guest.setRfld (.dbgcfg 0) 1 1 1
    s.rfld (.dbgcfg 0) 1 1 = 1 ∧ (∀ e ∈ s.ops, e.2.ctx ≠ 0) ∧ guest.rfld (.dbgcfg 0) 1 1 = 0 ∧ (∃ e ∈ (guest.core 0).groups, e.2.ctx = 0) ∧
      ((({ guest with mon := { guest.mon with sampleFrom := [(sampleKey 0 0 0, 2 ^ 20)] } } : State).setRfld (.dbgcfg 0) 8 5 20).sampleDue 0 0 0) = true ∧
      s0.now % 1000 = 0 ∧ (∀ e ∈ s0.mon.snaps, e.1 ≠ s0.now) ∧ guest.group? (fld 0 0 8) (fld 0 8 6) = some g1 ∧ g1.ctx = fld 0 22 9 ∧ g1.ctx = fld (0 : W64) 22 9 := by
  decide +kernel

/-! ### The host port -/

/-- Guest address 5, management address 6; queue pair 16 of context 0 has the peer 9 with its queue pair 3; lease 0 lets the host in under key 0x100. -/
def port (us : List Unacked := []) : State :=
  let s := (((guest.updLease 0 0 fun l => { l with rights := 7, rkey := 0x100 }).setReg (.haddr 0 0) 5).setReg (.hmaddr 0) 6).setReg .hpcfg 0x70000
  let s := s.setRfld .hpstat 0 4 15
  { s with host := { s.host with qps := [(16, { peer := 9, peerQp := 3, rxPsn := 7, unacked := us }), (17, { peer := 9, peerQp := 3, rxPsn := 7 })] } }
def hdr (psn : BitVec 24) (qpn : Nat := 16) : RoceHdr := { src := 9, qpn, srcQp := 3, psn }
def pair0 : QPair := { peer := 9, peerQp := 3, rxPsn := 7 }
def bell (kind : Byte) : Bytes := kind :: 0 :: List.replicate 14 0
def sent (psn : BitVec 24) : Unacked := { psn, out := .send 16 psn [] }
def asked (psn : BitVec 24) (cmd : Option Nat := none) : Unacked := { psn, out := .rdmaRead 16 psn 0x200 0 4, cmd }

theorem inTurn_witness : InTurn (port) (hdr 7) pair0 ∧ InTurn port (hdr 7 17) pair0 :=
  ⟨⟨by decide +kernel, by decide +kernel, rfl⟩, ⟨by decide +kernel, by decide +kernel, rfl⟩⟩

theorem witness_HostPortFrames : port.portUp = true ∧ mgmtEvent (msg [(0, 0x41)]) = some (.meterset (msg [(0, 0x41)])) ∧ port.hmaddr = 6 ∧
    port.forGuest 5 16 = true ∧ port.configured 5 = true ∧ port.configured 6 = true ∧
    (port.setRfld .bstat 3 1 1).rfld .bstat 3 1 ≠ 0 ∧ port.hostMay 0 0x100 0x1000 4 = true ∧ port.hostMay 0 0x101 0x1000 4 = false ∧
    port.hostMay 0 0x100 0x1000 4096 = true ∧ port.hostMay 0 0x100 0x1001 4096 = false ∧
    (hdr 7).qpn % 16 = 0 ∧ (hdr 7 17).qpn % 16 ≠ 0 ∧ (bell 1).length = 16 ∧ (bell 1)[0]? = some 1 ∧ (bell 2)[0]? = some 2 ∧ (bell 3)[0]? = some 3 ∧
    port.rfld .hpcfg 16 1 = 1 ∧ port.rfld .hpcfg 17 3 = (3 : BitVec 3).toNat ∧ port.host.pauseUntil ≤ port.now ∧ port.boot.hostLane = none := by decide +kernel

/-- Requests of 4 bytes and of a page at their gateways; queue pair 16 at its one job, which is over, or has failed. -/
def jobSt (w : PortWork) (fail : Option (Nat × W64 × Nat) := none) : State :=
  { port with host := { port.host with qps := [(16, { pair0 with jobs := [{ work := w, op := some 40 }] })] }
              ops := [(40, { portOp 0 0x1000 4 (.portRead (some 16)) with got := [(0x20, 7)], fail })] }

theorem witness_HostPortFrames_jobs : pair0.jobs = [] ∧ pair0.write = none ∧ pair0.send = none ∧ (hdr 7).form = .only ∧
    (∀ r ∈ gateWrites 0x1000 [1, 2, 3, 4], (port.translate 0 r.va).isSome = true) ∧ (∀ r ∈ port.gateReads 0 0x1000 4096, (port.translate 0 r.va).isSome = true) ∧
    0 < 4096 ∧ (4096 : Nat) ≤ 4096 := by decide +kernel
theorem witness_HostPortFrames_over (fail : Option (Nat × W64 × Nat)) :
    JobOver (jobSt (.write (hdr 7) 0x100 0x1000 4 [1, 2, 3, 4]) fail) 16 (.write (hdr 7) 0x100 0x1000 4 [1, 2, 3, 4])
      { portOp 0 0x1000 4 (.portRead (some 16)) with got := [(0x20, 7)], fail } ∧
    JobOver (jobSt (.read (hdr 7) 0x100 0x1000 4) fail) 16 (.read (hdr 7) 0x100 0x1000 4) { portOp 0 0x1000 4 (.portRead (some 16)) with got := [(0x20, 7)], fail } :=
  ⟨⟨⟨_, 40, rfl, rfl, rfl⟩, rfl⟩, ⟨⟨_, 40, rfl, rfl, rfl⟩, rfl⟩⟩

/-- The delay request is held by a pause that has ended. -/
def heldSt : State := { port with host := { port.host with waiting := [.delayReq 4 2], ptp := { master := 4, seq := 2, came := some 90, origin := some 50 } } }
theorem witness_HostPortFrames_stamp : heldSt.host.pauseUntil ≤ heldSt.now ∧ heldSt.boot.hostLane = none ∧ heldSt.host.waiting = [.delayReq 4 2] ∧ heldSt.host.ptp.master = 4 ∧
    heldSt.host.ptp.seq = 2 ∧ heldSt.host.ptp.asked = none := by decide +kernel

theorem witness_HostPortFrames_answers :
    (port [sent 1, sent 2, asked 3]).fromPeer (hdr 2) = some { pair0 with unacked := [sent 1, sent 2, asked 3] } ∧
    (∀ u ∈ [sent 1, sent 2], psnUpTo u.psn 2 = true ∧ u.isRead = false ∧ u.cmd = none) ∧ (asked 3).isRead = true ∧
    psnUpTo (sent 1).psn ((hdr 1).psn - 1) = false ∧ (asked 3).moves = [0, 0, 0, (0 : Byte)].length ∧ (asked 3).cmd = none ∧
    ((port [sent 1]).host.qps.find 16).map QPair.unacked = some [sent 1] ∧
    (({ port [sent 1] with now := 100000 } : State).host.qps.find 16).map QPair.sentAt = some 0 := by decide +kernel

/-- A PTP exchange of which the Sync and the request's time are known; and a COPYH that waits for the READ of its chunk. -/
def ptpSt : State := ({ port with host := { port.host with ptp := { master := 4, seq := 2, came := some 90, origin := some 50, asked := some 95 } } } : State).setRfld .bstat 3 1 1
def chunkCmd : Cmd := { queue := 63, ctx := 0, index := 1, bytes := 2 + 1 * 2 ^ (8 * 29) + 4 * 2 ^ (8 * 32), lease := some 0, st := .started, phase := .sent, chunk := 4 }
def chunkSt : State := let s := port [asked 3 (some 5)]; { s with sched := { s.sched with cmds := [(5, chunkCmd)] } }
theorem witness_HostPortFrames_more : ptpSt.host.ptp = { master := 4, seq := 2, came := some 90, origin := some 50, asked := some 95 } ∧ ptpSt.rfld .bstat 3 1 ≠ 0 ∧
    chunkSt.fromPeer (hdr 3) = some { pair0 with unacked := [asked 3 (some 5)] } ∧ chunkSt.sched.cmds.find 5 = some chunkCmd ∧ 2 ≤ (chunkSt.lease 0 (chunkCmd.lease.getD 255)).st ∧
    (hdr 3).qpn = qpNum 0 (chunkCmd.fld 28 1) ∧ (asked 3 (some 5)).moves = [0, 0, 0, (0 : Byte)].length ∧ (hdr 3).form = .only ∧ pair0.write = none ∧ pair0.send = none := by decide +kernel
/-- A clock that stands ahead of its master's by more than it can be in error runs slower, and one that stands behind runs faster (R78). -/
theorem test_ptp_corrects (n : Nat) : servoRate 35 n < 0 ∧ 0 < servoRate (-35) n := by constructor <;> simp only [servoRate] <;> omega

/-- A RoCE write that its key does not allow has no effect and is answered with an access NAK (R79, R80). -/
theorem test_rdma_write_refused : (ran (.rdmaWrite (hdr 7) 0x101 { va := 0x1000, len := 1 } [1]) port).host.out = [.nakAccess 16 7] ∧
    (ran (.rdmaWrite (hdr 7) 0x101 { va := 0x1000, len := 1 } [1]) port).msys = port.msys := by decide +kernel
/-- A write asks its home slice for a masked write of its bytes, and answers nothing yet (R37, R79, R191). -/
theorem test_rdma_write_asks :
    let t := ran (.rdmaWrite (hdr 7) 0x100 { va := 0x1004, len := 1 } [0xAB]) port
    t.host.out = [] ∧ t.msys = port.msys ∧ t.pkts.map (fun e => (e.2.op, e.2.addr, e.2.mask, e.2.data)) = [(3, 0x2000, 0x10, 0xAB00000000)] := by decide +kernel
/-- A READ is answered with the bytes that have come (R79). -/
theorem test_rdma_read_answers : ((jobSt (.read (hdr 7) 0x100 0x1000 4)).portGoes 16).host.out = [.readResponse 16 7 .only [7, 0, 0, 0]] := by decide +kernel
theorem test_out_of_turn : (ran (.rdmaWrite (hdr 9) 0x100 { va := 0x1004, len := 1 } [0xAB]) port).host.out = [.nakSequence 16 7] := by decide +kernel

/-! ### Rings -/

/-- Queue 63 belongs to context 0; lease 0 holds its rings. -/
def ringSt (r : Ring := {}) : State := (port.setReg (.hqcfg 63) 0x100000).updRing 63 fun _ => r
def dbell : Doorbell := { ctx := 0, kind := 1, lq := 0, logn := 2, resv := 0, tail := 3, base := 0x1100 }
def ring4 : Ring := { isSet := true, ctx := 0, base := 0x1100, logn := 2, leaseC := 0, leaseD := 0, head := 1, tail := 3 }
/-- A command's 64 bytes at slot 1 of the ring. -/
def cmdAt (bs : List (Nat × Byte)) : State :=
  bs.foldl (fun s e => s.virtWrite 0 (0x1100 + 64 + e.1) [e.2]) (ringSt ring4)

theorem witness_Rings : (ringSt).bellQueue dbell = some 63 ∧ dbell.resv = 0 ∧ dbell.logn.toNat ≤ 16 ∧ dbell.base.toNat % 64 = 0 ∧
    ((ringSt).ring 63).head = ((ringSt).ring 63).tail ∧ ((ringSt).ring 63).reset = none ∧ (∀ e ∈ (ringSt).sched.cmds, e.2.queue ≠ 63) ∧
    (ringSt).liveLease 0 0x1100 256 1 = some 0 ∧ (ringSt).liveLease 0 0x1200 64 2 = some 0 ∧
    ((ringSt { ring4 with reset := some 2 }).ring 63).reset ≠ none ∧ ((ringSt ring4).ring 63).isSet = true ∧
    ((3 : BitVec 32) - 1).toNat ≤ (dbell.tail - 1).toNat ∧ (dbell.tail - 1).toNat ≤ 2 ^ 2 ∧ (ringSt).queueCtx 63 = some 0 ∧
    ((ringSt { ring4 with reset := some 2 }).ring 63).reset = some 2 ∧ (ringSt ring4).pendOf 63 < 256 ∧ ((ringSt ring4).ring 63).dead = false ∧
    ((ringSt ring4).ring 63).head ≠ ((ringSt ring4).ring 63).tail := by decide +kernel

/-- An opcode of no command is refused; a SIGNAL of semaphore 7 and a LAUNCH pass. -/
theorem witness_Rings_take : ((ringSt ring4).takeCheck ((ringSt ring4).slotCmd 63 0 1)).isSome = true ∧
    (cmdAt [(0, 5), (8, 7)]).takeCheck ((cmdAt [(0, 5), (8, 7)]).slotCmd 63 0 1) = none ∧ ((cmdAt [(0, 5), (8, 7)]).slotCmd 63 0 1).opc = 5 ∧
    (cmdAt [(0, 1), (9, 0x10)]).takeCheck ((cmdAt [(0, 1), (9, 0x10)]).slotCmd 63 0 1) = none ∧ ((cmdAt [(0, 1), (9, 0x10)]).slotCmd 63 0 1).opc = 1 := by
  decide +kernel

/-! ### Guest commands -/

theorem starts_of_check {s : State} {id opc : Nat} {c : Cmd}
    (h : (s.sched.cmds.find id == some c && c.opc == opc && s.startable id c && !(c.fence && c.fenceFail)) = true) : Starts s id c opc := by
  simp only [Bool.and_eq_true, Bool.not_eq_true', beq_iff_eq] at h
  exact ⟨h.1.1.1, h.1.1.2, h.1.2, fun hf => by simp [hf.1, hf.2] at h⟩

/-- A command with the fields (byte, value). -/
def cmdOf (opc : Nat) (fs : List (Nat × Nat)) : Cmd := { queue := 63, ctx := 0, index := 1, bytes := BitVec.ofNat 512 (fs.foldl (fun n e => n + e.2 * 2 ^ (8 * e.1)) opc) }
def office (c : Cmd) (s : State := port) : State := { s with sched := { s.sched with cmds := [(5, c)] } }

/-- A LAUNCH with no lease, whose check fails; and one in lease 0, whose descriptor stands at 0x1100. -/
def launchBad : Cmd := cmdOf 1 []
def launchGood : Cmd := cmdOf 1 ((8, 0x1100) :: (32, 0xFFFF_FFFF) :: (16, 0) :: ((List.range 15).map fun i => (17 + i, 255)))
def descBytes : List (Nat × Byte) := [(1, 0x10), (36, 1), (40, 1), (42, 1), (44, 1), (46, 8), (64, 3)]
def withDesc : State := descBytes.foldl (fun s e => s.virtWrite 0 (0x1100 + e.1) [e.2]) port

theorem witness_GuestCommands_launch : (office launchBad).sched.cmds.find 5 = some launchBad ∧ launchBad.queue < 64 ∧ (∀ e ∈ (office launchBad).sched.cmds, e.2.queue < 64) ∧
    launchBad.opc = 1 ∧ launchBad.grid = none ∧ launchBad.st = .taken ∧
    (match (office launchBad).launchCheck launchBad with | .error n => some n | .ok _ => none) = some 2 ∧
    (office launchGood withDesc).sched.cmds.find 5 = some launchGood ∧ launchGood.opc = 1 ∧ ((office launchGood withDesc).launchCheck launchGood).toOption.isSome = true := by
  decide +kernel

/-- A LAUNCH of grid 9 that waits to start, with edge 3 in and out; lease 0 is bound to the grid, or to another. -/
def launchCmd : Cmd := { cmdOf 1 [] with grid := some 9 }
def launchSt (bound : List Nat) : State :=
  let s := ((office launchCmd).updLease 0 0 fun l => { l with grids := bound }).setReg (.edgcnt 3) 0x10001
  { s with sched := { s.sched with grids := s.sched.grids.put 9 { leases := [0, 255], inEdge := some 3, outEdge := some 3 } } }

theorem witness_GuestCommands_launchStart :
    Starts (launchSt [9]) 5 launchCmd 1 ∧ Starts (launchSt [1]) 5 launchCmd 1 ∧ launchCmd.grid = some 9 ∧
    (∃ n ∈ ((launchSt [1]).grid 9).boundLeases, 9 ∉ ((launchSt [1]).lease 0 n).grids) ∧
    (∀ n ∈ ((launchSt [9]).grid 9).boundLeases, 9 ∈ ((launchSt [9]).lease 0 n).grids ∧ ((launchSt [9]).lease 0 n).st ≠ 1 ∧ ((launchSt [9]).lease 0 n).makeCmd = none) ∧
    ((launchSt [9]).grid 9).fault = none ∧ 1 ≤ (launchSt [9]).rfld (.edgcnt 3) 0 16 ∧ 1 ≤ (launchSt [9]).rfld (.edgcnt 3) 16 16 :=
  ⟨starts_of_check (by decide +kernel), starts_of_check (by decide +kernel), by decide +kernel⟩

def copyhCmd : Cmd := { cmdOf 2 [(8, 0x1100), (32, 4097)] with lease := some 0 }
theorem witness_GuestCommands_copyh : Starts (office copyhCmd) 5 copyhCmd 2 ∧ 2 ≤ ((office copyhCmd).lease 0 (copyhCmd.lease.getD 255)).st ∧
    (office copyhCmd).host.qps.find (qpNum 0 (copyhCmd.fld 28 1)) = some pair0 ∧ copyhCmd.progress < copyhCmd.fld 32 4 ∧ copyhCmd.phase = .idle ∧
    ((office copyhCmd).lease 0 (copyhCmd.lease.getD 255)).st ≠ 1 ∧ copyhCmd.fld 29 1 = 0 ∧
    (∀ r ∈ (office copyhCmd).gateReads 0 (copyhCmd.fld 8 8) 3840, ((office copyhCmd).translate 0 r.va).isSome = true) :=
  ⟨starts_of_check (by decide +kernel), by decide +kernel⟩

/-- LEASE of number 1, two pages of 4 KiB, with and without a DRAM template; and its becoming LIVE. -/
def leaseCmd : Cmd := cmdOf 3 [(8, 0x4000), (16, 0x2000), (24, 1), (25, 3)]
def making : Lease := { st := 1, base := 0x4000, len := 0x2000, rights := 3, makeCmd := some 5 }
def leaseSt (c : Cmd) (dram : Bool) : State :=
  let s := (office c).updMem fun m => { m with leases := m.leases.put (leaseKey 0 1) making }
  if dram then (s.setReg (.svcfg 0 3) 0x10_0001_0000_0001).setReg (.svumask 0) 1 else s
theorem witness_GuestCommands_lease : Starts (leaseSt leaseCmd true) 5 leaseCmd 3 ∧ Starts (leaseSt leaseCmd false) 5 leaseCmd 3 ∧
    (leaseSt leaseCmd true).msys.leases.find (leaseKey 0 1) = some making ∧
    ((leaseSt leaseCmd true).placeFrames ((leaseSt leaseCmd true).leaseChannels 0) 1 4096 0 2 []).map List.length = some 2 ∧
    (leaseSt leaseCmd true).leaseChannels 0 ≠ [] ∧ (leaseSt leaseCmd false).leaseChannels 0 = [] ∧
    (let put (s : State) := (s.placeFrames (s.leaseChannels 0) 1 4096 0 2 []).bind ((s.begun 5 leaseCmd).putLeaves 0 making 0)
     (put (leaseSt leaseCmd true)).isSome = true ∧ (put ((leaseSt leaseCmd true).setReg (.troot 0) 0)).isNone = true) ∧
    (leaseSt { leaseCmd with st := .started } true).msys.leases.find (leaseKey 0 1) = some making ∧ making.makeCmd = some 5 ∧ making.st = 1 :=
  ⟨starts_of_check (by decide +kernel), starts_of_check (by decide +kernel), by decide +kernel⟩

def releaseCmd : Cmd := cmdOf 4 []
def releaseSt (grids : List Nat) : State := (office releaseCmd).updLease 0 0 fun l => { l with st := 3, grids, freeCmd := some 5 }
theorem witness_GuestCommands_release : Starts (releaseSt []) 5 releaseCmd 4 ∧ Starts (releaseSt [1]) 5 releaseCmd 4 ∧ 3 ≤ ((releaseSt []).lease 0 0).st ∧
    ((releaseSt []).lease 0 0).makeCmd = none ∧ ((releaseSt []).lease 0 0).freeCmd = some 5 ∧ (releaseSt []).leaseQuiet 0 ((releaseSt []).lease 0 0) = true ∧
    ((office releaseCmd).lease 0 0).freeCmd ≠ some 5 ∧ Starts (office releaseCmd) 5 releaseCmd 4 :=
  ⟨starts_of_check (by decide +kernel), starts_of_check (by decide +kernel), by decide +kernel, by decide +kernel, by decide +kernel, by decide +kernel, by decide +kernel,
    starts_of_check (by decide +kernel)⟩

def waitCmd : Cmd := cmdOf 6 [(8, 7), (16, 3), (24, 2)]
theorem witness_GuestCommands_semaphores : Starts (office (cmdOf 5 [(8, 7), (16, 3)])) 5 (cmdOf 5 [(8, 7), (16, 3)]) 5 ∧ Starts (office waitCmd) 5 waitCmd 6 ∧
    ((office waitCmd).sem 0 7).toNat < waitCmd.fld 16 8 ∧ Starts (office (cmdOf 6 [])) 5 (cmdOf 6 []) 6 ∧ (cmdOf 6 []).fld 16 8 ≤ ((office (cmdOf 6 [])).sem 0 0).toNat ∧
    ({ waitCmd with st := .waiting } : Cmd).st = .waiting ∧ ({ waitCmd with st := .waiting } : Cmd).opc = 6 ∧ waitCmd.fld 24 4 ≠ 0 ∧
    waitCmd.started + 1000 * waitCmd.fld 24 4 ≤ ({ office waitCmd with now := 2000 } : State).now :=
  ⟨starts_of_check (by decide +kernel), starts_of_check (by decide +kernel), by decide +kernel, starts_of_check (by decide +kernel), by decide +kernel⟩

def edgeCmd : Cmd := cmdOf 7 [(8, 1023), (12, 65535)]
def destroyCmd : Cmd := { cmdOf 7 [(8, 1023), (10, 1)] with st := .started }
def edgeSt : State := (office destroyCmd).setReg (.edgst 0) (BitVec.ofNat 64 (1 + 1023 * 2 ^ 10))
theorem witness_GuestCommands_edges : Starts (office edgeCmd) 5 edgeCmd 7 ∧ edgeCmd.fld 10 1 = 0 ∧ (office edgeCmd).findEdge 0 1023 = none ∧
    (List.range 4096).find? (fun k => (office edgeCmd).rfld (.edgst k) 0 1 == 0) = some 0 ∧ destroyCmd.fld 10 1 = 1 ∧ destroyCmd.opc = 7 ∧
    edgeSt.findEdge 0 1023 = some 0 ∧ (∀ e ∈ edgeSt.sched.grids, e.2.inEdge ≠ some 0 ∧ e.2.outEdge ≠ some 0) :=
  ⟨starts_of_check (by decide +kernel), by decide +kernel⟩

/-- A ROUTE to device 1 over link 0 in a domain of two; and one that unbinds route 0. -/
def routeCmd : Cmd := cmdOf 8 [(8, 1), (18, 4), (20, 1), (24, 1000)]
def unbindCmd : Cmd := cmdOf 8 [(8, 1), (28, 1), (16, 9)]
def routeSt (c : Cmd) (s : State := linked port) : State := office c s
theorem witness_GuestCommands_route : Starts (routeSt routeCmd) 5 routeCmd 8 ∧ Starts (routeSt unbindCmd) 5 unbindCmd 8 ∧ routeCmd.fld 28 1 = 0 ∧ unbindCmd.fld 28 1 = 1 ∧
    (routeSt routeCmd).rfld .lcfg 6 2 ≠ 0 ∧ (routeSt routeCmd).routeShape routeCmd = true ∧ (routeSt routeCmd).namedRoute unbindCmd = some 0 :=
  ⟨starts_of_check (by decide +kernel), starts_of_check (by decide +kernel), by decide +kernel⟩

def bindSt : State := let s := routeSt { routeCmd with st := .started }; { s with now := 10 ^ 7, lodra := { s.lodra with binding := [5] } }
theorem witness_GuestCommands_bind : 5 ∈ bindSt.lodra.binding ∧ (List.range 1024).find? (fun i => !bindSt.rteValid i) = some 1 ∧ bindSt.robUsed + routeCmd.fld 18 2 ≤ 8192 ∧
    (∀ l ∈ routeCmd.strandLinks, bindSt.admits 4 l 0 1 (routeCmd.fld 20 4) (routeCmd.fld 24 4) = true) ∧ routeCmd.started + 10000000 ≤ bindSt.now ∧
    ((linked port).setRfld (.rte 0 0) 56 1 1).rteDrain 0 = true ∧ ((linked port).setRfld (.rte 0 0) 56 1 1).rteValid 0 = true ∧ (linked port).routeBusy 0 = false := by
  decide +kernel

def recallCmd : Cmd := cmdOf 9 [(8, 1)]
def recallSt : State := ((office recallCmd).setReg (.chome 0 0) 0x20).setReg (.clend 5) 1
def meterCmd : Cmd := { cmdOf 10 [(8, 0x1100)] with lease := some 0 }
theorem witness_GuestCommands_recall : Starts recallSt 5 recallCmd 9 ∧ recallSt.homes 0 = [5] ∧ (∀ k ∈ recallSt.homes 0, recallSt.clState k ≤ 1) ∧
    (recallCmd.fld 8 16).testBit 0 = true ∧ Starts (office meterCmd) 5 meterCmd 10 ∧ ((office meterCmd).lease 0 (meterCmd.lease.getD 255)).st ≠ 1 :=
  ⟨starts_of_check (by decide +kernel), by decide +kernel, by decide +kernel, by decide +kernel, starts_of_check (by decide +kernel), by decide +kernel⟩

/-! ### The network and the memory -/

/-- One packet of core 0 in context 0, number 5, of operation 6. -/
def reqPkt (op : Nat) (stage : Stage) : Pkt := { op, drt := 8, dep := 0, srt := 0, sep := 0, addr := 0x2010, va := 0x1010, opId := 6, stage }
def loadOp (left : Nat) : Op := { kind := .uload 3, left, ctr := some 0 }
def netSt (p : Pkt) (s : State := guest) : State := { s with pkts := [(5, p)], ops := [(6, loadOp 2)], stamp := 100 }
def sender : Group := { g1 with mbs := [(2, { svalid := true, busy := true, retry := some 40 })] }
/-- A mailbox packet of MBS2, for queue 3 with 64 lanes. -/
def mail (op : Nat) (stage : Stage) : Pkt := { op, addr := 3 + 16 * 2 + 64 * 2, img := 77, stage }
def mailSt (op : Nat) (q : RecvQ) : State := (netSt (mail op .core) (world sender)).updCore 0 fun c => { c with recv := [(3, q)] }

/-- A link packet to be sent, of operation 6, on its way to the gateway at router 8. -/
def goneOut : SysPkt := { ddev := 1, sdev := 0, srt := 0, sep := 0, route := 0, cls := 1, fm := false, seq := 0, op := 0, addr := 0x40, akq := false, data := [] }
def gonePkt (poison : BitVec 16) : Pkt := { reqPkt 0 (.net 8) with dep := 15, sys := some (0, goneOut), poison }
/-- A message whose sender has gone, of grid 1. -/
def lateMail : Pkt := { mail 0x20 .dropped with gen := 3, grid := 1 }

theorem witness_NetworkEvents : (netSt (reqPkt 0 (.net 0))).pkts.find 5 = some (reqPkt 0 (.net 0)) ∧
    (netSt (reqPkt 0 (.net 0))).dropReason (reqPkt 0 (.net 0)) 0 = none ∧ (∃ e ∈ (netSt (reqPkt 0 (.net 0))).pkts, e.2.part = 0 ∧ e.2.stage = .net 0) ∧
    ((netSt (reqPkt 0 (.net 0))).outputGrant 0 ((reqPkt 0 (.net 0)).output 0)).map Prod.fst = some 5 ∧ (reqPkt 0 (.net 0)).drt ≠ 0 ∧
    (netSt (reqPkt 0 (.net 1))).dropReason (reqPkt 0 (.net 1)) 1 = some 2 ∧ (netSt (reqPkt 0x19 (.net 8))).dropReason (reqPkt 0x19 (.net 8)) 8 = some 5 := by decide +kernel

theorem witness_NetworkEvents_drops : (let v := (reqPkt 0 (.net 1)).seen
     v.part < 64 ∧ v.ctx < 512 ∧ v.cls < 8 ∧ v.drt < 64 ∧ v.dep < 16 ∧ v.srt < 64 ∧ v.sep < 16) := by decide +kernel

/-- A packet whose header has an error that its router corrects. -/
def flipped : Pkt := { reqPkt 0 (.net 0) with flips := 4 }
theorem witness_NetworkEvents_flips : flipped.flips ≠ 0 ∧ (netSt flipped).dropReason flipped 0 = none ∧ ((netSt flipped).outputGrant 0 (flipped.output 0)).map Prod.fst = some 5 := by
  decide +kernel

theorem witness_NetworkEvents_arrives : (netSt (reqPkt 0 (.net 8))).dropReason (reqPkt 0 (.net 8)) 8 = none ∧
    ((netSt (reqPkt 0 (.net 8))).outputGrant 8 ((reqPkt 0 (.net 8)).output 8)).map Prod.fst = some 5 ∧ (reqPkt 0 (.net 8)).sys = none := by decide +kernel

theorem witness_NetworkEvents_leaves : ∀ e : BitVec 16, e = 0 ∨ e = 3 → (netSt (gonePkt e)).dropReason (gonePkt e) 8 = none ∧
    ((netSt (gonePkt e)).outputGrant 8 ((gonePkt e).output 8)).map Prod.fst = some 5 := by
  rintro e (rfl | rfl) <;> decide +kernel

theorem witness_NetworkEvents_lost :
    (gonePkt 3).poison ≠ 0 ∧ (netSt (gonePkt 3)).ops.find 6 = some (loadOp 2) ∧ (loadOp 2).fail = none ∧
    (({ netSt (reqPkt 0 (.net 0)) with pkts := [(4, reqPkt 0 (.net 0)), (5, { reqPkt 0 (.net 0) with arr := 1 })] } : State).outputGrant 0 8).map Prod.fst ≠ some 5 ∧
    (reqPkt 0 .dropped).born + 100000 ≤ ({ netSt (reqPkt 0 .dropped) with now := 100000 } : State).now ∧
    (netSt (reqPkt 0 .dropped)).ops.find (reqPkt 0 .dropped).opId = some (loadOp 2) ∧ 2 ≤ (loadOp 2).left ∧
    (netSt (mail 0x20 .dropped) (world sender)).senderOf (mail 0x20 .dropped) = some sender ∧ sender.done = false ∧
    (netSt lateMail (world sender)).senderOf lateMail = none ∧ 0x20 ≤ lateMail.op ∧
    ((netSt lateMail (world sender)).sched.grids.find 1).any (fun h => h.fault.isNone) = true := by decide +kernel

theorem witness_NetworkEvents_mail : (mailSt 0x20 { st := 0 }).pkts.find 5 = some (mail 0x20 .core) ∧ ((mailSt 0x20 { st := 1 }).core (coreAt 0 0)).recvQ 3 = { st := 1 } ∧
    8 < ((List.replicate 4 ({ width := 64, img := 0, flits := msgFlits 2 } : Msg)).map Msg.flits).sum + msgFlits 2 ∧ 0 + msgFlits 2 ≤ 8 ∧
    (mailSt 0x21 {}).senderOf (mail 0x21 .core) = some sender ∧ (world sender).group? 0 0 = some sender ∧ (sender.mbSend 2).retry = some 40 ∧ sender.stopped = false := by decide +kernel

/-- A whole line that server group 0 holds in L2, of the ways that its mask gives it. -/
def heldLine : L2Line := { data := 0x8000_0000_0000_0000_0000_0000_0000_0007#1024, valid := wholeMask }
def cached (p : Pkt) (l : Option L2Line := some heldLine) : State :=
  let s := (netSt p).setReg (.sgmask 0) 0x300
  { s with msys := { s.msys with l2 := (match l with | some l => [(l2Key l.sg 0x40, l)] | none => []) } }
def atomPkt (op : Nat) : Pkt := { reqPkt op .home with aop := 0, lanes := [{ lane := 3, addr := 0x1010, x := 5 }] }

theorem atHome_of_check {s : State} {id op : Nat} {p : Pkt} (h : (s.pkts.find id == some p && p.stage == .home && p.op == op && !s.behind id p &&
    !s.boot.outOfService.contains (true, sliceOfChannel (channelOf p.addr))) = true) : AtHome s id p op := by
  simp only [Bool.and_eq_true, Bool.not_eq_true', beq_iff_eq] at h
  exact ⟨h.1.1.1.1, h.1.1.1.2, h.1.1.2, h.1.2, h.2⟩

theorem witness_MemoryEvents : (∀ op, op < 9 → AtHome (cached (reqPkt op .home)) 5 (reqPkt op .home) op) ∧
    (cached (reqPkt 0 .home)).l2Mask 0 ≠ 0 ∧ (cached (reqPkt 0 .home)).msys.l2Find ((cached (reqPkt 0 .home)).ctxSg 0) (reqPkt 0 .home).line = some heldLine ∧ heldLine.valid = wholeMask ∧
    (netSt (reqPkt 0 .home)).misses (reqPkt 0 .home) ∧ (netSt (reqPkt 2 .home)).l2Mask 0 = 0 ∧
    (∀ e ∈ (cached (reqPkt 3 .home)).msys.l2, l2LineOf e.1 = (reqPkt 3 .home).line → e.1 = l2Key ((cached (reqPkt 3 .home)).ctxSg 0) (reqPkt 3 .home).line) ∧
    (cached (reqPkt 0 .home) (some { heldLine with sg := 9 })).misses (reqPkt 0 .home) ∧
    (cached (reqPkt 6 .home) none).msys.l2Find 0 0x40 = none ∧ (cached (reqPkt 6 .home) none).l2Mask 0 = 3 ∧ (cached (reqPkt 6 .home) none).msys.bursts = [] :=
  ⟨fun op h => atHome_of_check (by revert h op; decide +kernel), by decide +kernel, by decide +kernel, by decide +kernel, .inl (by decide +kernel),
    by decide +kernel, by decide +kernel, .inr (fun k h => by have e : (cached (reqPkt 0 .home) (some { heldLine with sg := 9 })).msys.l2Find ((cached (reqPkt 0 .home) (some { heldLine with sg := 9 })).ctxSg 0) (reqPkt 0 .home).line = none := by decide +kernel
                                                              cases e.symm.trans h), by decide +kernel⟩

theorem witness_MemoryEvents_atomics : ∀ op, op = 4 ∨ op = 5 → AtHome (cached (atomPkt op)) 5 (atomPkt op) op ∧
    AtomHit (cached (atomPkt op)) (atomPkt op) { lane := 3, addr := 0x1010, x := 5 } heldLine := by
  rintro op (rfl | rfl) <;>
  exact ⟨atHome_of_check (by decide +kernel), { lane := rfl, inside := by decide +kernel, ways := by decide +kernel, line := by decide +kernel
                                                there := by decide +kernel, sent := rfl, clean := by decide +kernel }⟩

/-- The walk of a page of the first table: an access waits for it, the root of context 0 stands at 0x10000, and unit 0's walker is as given. -/
def walkSt (op va : Nat) (w : Walker := { queue := [5] }) (r : Op := loadOp 1) : State :=
  let s := (netSt { reqPkt op .xlat with va }).setReg (.troot 0) 0x10001
  { s with msys := { s.msys with walkers := [(0, w)] }, ops := s.ops.put 50 r }
/-- A walker that has read an entry of a level. -/
def readDone (level : Nat) (e : W64) : Walker × Op :=
  ({ queue := [5], walk := some { ctx := 0, va := 0x1000, level, entry := 0x10000, op := 50 } },
   { core := 256, kind := .walkRead 0, ctx := mgmtCtx, lanes := [{ lane := 0, addr := 0x10000 }], size := 8, got := [(0x200, BitVec.ofNat 1024 e.toNat)] })
def entered (op level : Nat) (e : W64) : State := walkSt op 0x1010 (readDone level e).1 (readDone level e).2
def scrubSt : State :=
  { guest with stamp := 100, msys := { guest.msys with scrub := [(0, [(0x4000, 1)])] } }
theorem witness_MemoryEvents_walks :
    (let s := walkSt 2 0x1010
     s.walker 0 = { queue := [5] } ∧ s.tableRoot 0 = some 0x10000 ∧ s.ops.find 6 = some (loadOp 2) ∧ (walkSt 2 0x1010 |>.setReg (.troot 0) 0).tableRoot 0 = none ∧
     (s.pkts.filter fun e => e.2.waitsFor s 0 0 1 0) = [(5, { reqPkt 2 .xlat with va := 0x1010 })] ∧
     (∀ e ∈ s.pkts, e.2.stage = .xlat → s.cached e.2.core e.2.ctx e.2.va = none)) ∧
    (let s := walkSt 2 0x1010 { queue := List.replicate 32 5, walk := some { ctx := 0, va := 0x9000, level := 3, entry := 0, op := 50 } }
     (s.walker 0).queue.length = 32 ∧ (∀ i ∈ (s.walker 0).queue, ∃ q, s.pkts.find i = some q ∧ q.stage = .xlat) ∧ ∃ k, (s.walker 0).walk = some k) ∧
    (∀ e ∈ [(2, 0, (0 : W64)), (2, 3, 0x20001), (2, 0, 0x200F), (2, 0, 0x200B)], let s := entered e.1 e.2.1 e.2.2
     ∃ w r, (s.walker 0).walk = some w ∧ s.ops.find w.op = some r ∧ r.left = 0 ∧ r.fail = none ∧ w.stale = false ∧ w.level = e.2.1 ∧
      BitVec.ofNat 64 (r.readN w.entry 8) = e.2.2 ∧ (s.pkts.filter fun e => e.2.waitsFor s 0 w.ctx (w.va / pageBytes 0) 0) = [(5, { reqPkt 2 .xlat with va := 0x1010 })] ∧
      ((s.core 0).ctxSlot 0).isSome = true) ∧
    badEntry 0 0 ∧ ¬ badEntry 3 0x20001 ∧ (0x20001 : W64).getLsbD 3 = false ∧ ¬ badEntry 0 0x200F ∧ leafFault (some (0x200F, 0)) (reqNeed 2) = none ∧
    ¬ badEntry 0 0x200B ∧ leafFault (some (0x200B, 0)) (reqNeed 2) = some 0 ∧
    scrubSt.msys.scrubbing.find 0 = none ∧ scrubSt.msys.scrub.get [] 0 = [(0x4000, 1)] ∧
    ({ scrubSt with msys := { scrubSt.msys with scrubbing := [(0, (0x4000, 100))] } } : State).msys.scrubbing.find 0 = some (0x4000, 100) ∧ scrubSt.ops.find 100 = none ∧
    channelOf 0x4000 < 64 := by
  refine ⟨by decide +kernel, ⟨by decide +kernel, fun i hi => ⟨{ reqPkt 2 .xlat with va := 0x1010 }, ?_, rfl⟩, _, rfl⟩, ?_, .inl rfl, by unfold badEntry; decide +kernel,
    rfl, by unfold badEntry; decide +kernel, by decide +kernel, by unfold badEntry; decide +kernel, by decide +kernel, by decide +kernel, by decide +kernel,
    by decide +kernel, by decide +kernel, by decide +kernel⟩
  · cases List.eq_of_mem_replicate (show i ∈ List.replicate 32 5 from hi); decide +kernel
  · intro e he
    simp only [List.mem_cons, List.not_mem_nil, or_false] at he
    rcases he with rfl | rfl | rfl | rfl <;> exact ⟨_, _, rfl, rfl, rfl, rfl, rfl, rfl, by decide +kernel, by decide +kernel, by decide +kernel⟩

/-! ### Links, flows and collectives -/

/-- Link 2 in a state, with one unacknowledged flit and `n` replay requests in a row. -/
def linkSt (st n : Nat) : State :=
  let s := guest.setReg (.lstat 2) (BitVec.ofNat 64 (1 + 255 * 2 + st * 2 ^ 9))
  { s with lodra := { s.lodra with links := [(2, { rxLack := 4095, peerLack := 7, replay := [{ lseq := 8, ctx := 0, cls := 0, rsp := false, slots := [] }], requests := n })] } }
def dataFlit (lseq lack : Nat) (kind : Nat := 1) : LinkFlit := buildFlit { kind, lseq, lack, crv := true, crd := 1 } []

theorem dataFlit_read {lseq lack kind : Nat} (h : flitLow { kind, lseq, lack, crv := true, crd := 1 } [] < 2 ^ 1984) :
    flitCrcOk (dataFlit lseq lack kind) = true ∧ (dataFlit lseq lack kind).uncorrectable = 0 ∧
    flitHead (dataFlit lseq lack kind) = headOf (flitLow { kind, lseq, lack, crv := true, crd := 1 } []) :=
  ⟨flitCrcOk_buildFlit h, rfl, flitHead_buildFlit h⟩

/-- A good flit carries the header that was put into it: here the accepted one, two ahead of their turn, an idle one, a replay request and one of reserved kind 3. -/
theorem witness_LinkEvents_flits (lseq lack kind : Nat) (h : (lseq, lack, kind) ∈ [(0, 7, 1), (5, 7, 1), (6, 7, 1), (0, 8, 0), (0, 8, 1), (0, 8, 2), (0, 8, 3)]) :
    flitCrcOk (dataFlit lseq lack kind) = true ∧ (dataFlit lseq lack kind).uncorrectable = 0 ∧
    flitHead (dataFlit lseq lack kind) = { kind, lseq, lack, crv := true, crd := 1 } := by
  simp only [List.mem_cons, Prod.mk.injEq, List.not_mem_nil, or_false] at h
  have hl : flitLow { kind, lseq, lack, crv := true, crd := 1 } [] < 2 ^ 64 ∧
      headOf (flitLow { kind, lseq, lack, crv := true, crd := 1 } []) = { kind, lseq, lack, crv := true, crd := 1 } := by
    rcases h with ⟨rfl, rfl, rfl⟩ | ⟨rfl, rfl, rfl⟩ | ⟨rfl, rfl, rfl⟩ | ⟨rfl, rfl, rfl⟩ | ⟨rfl, rfl, rfl⟩ | ⟨rfl, rfl, rfl⟩ | ⟨rfl, rfl, rfl⟩ <;> decide +kernel
  exact ⟨(dataFlit_read (body_lt hl.1)).1, rfl, (dataFlit_read (body_lt hl.1)).2.2.trans hl.2⟩

/-- Link 2 after a replay request, with the LSEQ of the last flit discarded since, if there is one. -/
def askedSt (seen : Option Nat) : State := (linkSt 2 0).updLink 2 fun l => { l with reqSent := true, seen }
theorem witness_LinkEvents_asked : (∀ seen ∈ [none, some 5, some 6], (askedSt seen).linkUp 2 = true ∧ ((askedSt seen).link 2).reqSent = true ∧ ((askedSt seen).link 2).seen = seen ∧
    ((askedSt seen).link 2).txPart = [] ∧ lmod 5 ((askedSt seen).link 2).rxLack ≠ 1) ∧ 0 < lmod 6 5 ∧ lmod 6 5 < 2048 ∧
    ({ dataFlit 5 7 with uncorrectable := 1 } : LinkFlit).uncorrectable ≠ 0 := by decide +kernel

theorem witness_LinkEvents : (linkSt 2 0).linkUp 2 = true ∧ (linkSt 0 0).linkUp 2 = false ∧ lmod 0 ((linkSt 2 0).link 2).rxLack = 1 ∧
    lmod 5 ((linkSt 2 0).link 2).rxLack ≠ 1 ∧ ((linkSt 2 0).link 2).txPart = [] ∧ ((linkSt 2 0).link 2).seen = none ∧ ((linkSt 2 0).link 2).reqSent = false ∧
    ((linkSt 2 0).updLink 2 fun l => { l with reqSent := true }).linkUp 2 = true ∧ (((linkSt 2 0).updLink 2 fun l => { l with reqSent := true }).link 2).reqSent = true ∧
    0 < lmod 8 ((linkSt 2 0).link 2).peerLack ∧ lmod 8 7 ≤ ((linkSt 2 0).link 2).replay.length ∧
    8 ≤ ((linkSt 2 7).link 2).requests + 1 ∧ ((linkSt 2 6).link 2).requests + 1 < 8 ∧ (linkSt 4 0).rfld (.lstat 2) 9 3 = 4 ∧
    7 ≤ laneCount 0xFB ∧ laneCount 0xFF = 8 ∧ laneCount 0x3F < 7 := by decide +kernel

/-- Route 0 of context 0 to device 1: a receiving flow that expects 7, with 8 entries reserved, and a sending flow with one request. -/
def sysPkt (op seq : Nat) : SysPkt := { ddev := 0, sdev := 1, srt := 3, sep := 4, route := 0, cls := 0, fm := false, seq, op, addr := 0x1000, akq := false, data := [] }
def rxFlow0 : RxFlow := { route := 0, sdev := 1, srt := 3, sep := 4, cls := 0, next := 7, oldest := some 0 }
def txReq0 (waits : Bool) : TxReq := { seq := 5, op := 6, issued := 0, sent := true, waits, item := 9 }
def txFlow0 (waits : Bool) : TxFlow := { route := 0, srt := 3, sep := 4, cls := 0, next := 6, base := 5, reqs := [txReq0 waits] }
def storeOp (left : Nat) : Op := { kind := .store, left }
def flowSt (waits : Bool := false) : State :=
  let s := ((linked port).setReg (.rte 0 1) (0x1000 * 2 ^ 14 + 8)).setReg (.lstat 0) (BitVec.ofNat 64 (1 + 255 * 2 + 2 * 2 ^ 9))
  { s with ops := [(6, storeOp 2)], lodra := { s.lodra with rx := [(3, rxFlow0)], tx := [(4, txFlow0 waits)] } }

theorem witness_RemoteFlows : flowSt.arrives (sysPkt 0 7) = true ∧ flowSt.lodra.rx.find 3 = some rxFlow0 ∧
    (flowSt.lodra.rx.find? fun e => e.2.route == 0 && e.2.sdev == 1 && e.2.srt == 3 && e.2.sep == 4 && e.2.cls == 0) = some (3, rxFlow0) ∧
    flowSt.rtePeer 0 = 1 ∧ flowSt.rteCls 0 = 0 ∧ smod 14 7 < flowSt.rteRobn 0 ∧ smod 7 7 < flowSt.rteRobn 0 ∧
    flowSt.liveLease (flowSt.rteLctx 0) 0x1000 (reqSpan (sysPkt 0 7)) (sysNeed (sysPkt 0 7)) = some 0 ∧ flowSt.translate (flowSt.rteLctx 0) 0x1000 = some 0x2000 ∧ flowSt.liveLease (flowSt.rteLctx 0) 0x9000 (reqSpan { sysPkt 0 7 with addr := 0x9000 }) (sysNeed (sysPkt 0 7)) = none ∧
    (flowSt.liveStrands 0)[7 % (flowSt.liveStrands 0).length]? = some 0 ∧ (flowSt.liveStrands 0)[0]? = some 0 ∧ rxFlow0.marks = [] ∧ rxFlow0.held = [] ∧ rxFlow0.sinceAck < 15 ∧ rxFlow0.timed = false ∧
    rxFlow0.oldest = some 0 ∧ 0 + 1000 ≤ ({ flowSt with now := 1000 } : State).now ∧
    flowSt.lodra.tx.find 4 = some (txFlow0 false) ∧ flowSt.txFind 0 3 4 0 = some (4, txFlow0 false) ∧ flowSt.ops.find 6 = some (storeOp 2) ∧ 2 ≤ (storeOp 2).left ∧
    (storeOp 2).kind.answered = false ∧ smod 0x1000 (txReq0 false).seq < 2 ^ 23 ∧ smod (txReq0 false).seq (txFlow0 false).base < 2 ^ 23 ∧
    (2 ^ 23 ≤ smod (txReq0 false).seq 6 ∧ smod 0x1000 6 < 2 ^ 23) ∧ (sysPkt 0x10 5).seq = (txReq0 true).seq ∧ (sysPkt 0x13 5).op ≤ 0x13 ∧ (flowSt true).txFind 0 3 4 0 = some (4, txFlow0 true) ∧
    (txReq0 false).issued + 1000 * flowSt.rfld .lcfg 16 24 ≤ ({ flowSt with now := 1000000 } : State).now := by decide +kernel

theorem atCore_of_check {s : State} {id op : Nat} {p : Pkt}
    (h : (s.pkts.find id == some p && p.stage == .core && p.op == op && (s.lodra.serving.find id).isNone && p.sys.isNone) = true) : AtCore s id p op := by
  simp only [Bool.and_eq_true, beq_iff_eq, Option.isNone_iff_eq_none] at h
  exact ⟨h.1.1.1.1, h.1.1.1.2, h.1.1.2, h.1.2, h.2⟩

def backPkt (op : Nat) (poison : BitVec 16 := 0) : Pkt := { reqPkt op .core with poison, lanes := [{ lane := 3, addr := 0x1010, x := 5 }] }
theorem witness_RemoteFlows_answers : (∀ op, op < 0x14 → AtCore (netSt (backPkt op)) 5 (backPkt op) op) ∧ AtCore (netSt (backPkt 0x11 1)) 5 (backPkt 0x11 1) 0x11 ∧
    (netSt (backPkt 0x10)).ops.find (backPkt 0x10).opId = some (loadOp 2) ∧ (backPkt 0x12).lanes = [{ lane := 3, addr := 0x1010, x := 5 }] ∧
    ({ netSt (backPkt 0x10) with lodra := { serving := [(5, (3, 7, true))] } } : State).lodra.serving.find 5 = some (3, 7, true) ∧
    (∀ op ∈ [0x10, 0x13], let s : State := { flowSt true with pkts := [(5, { backPkt op with sys := some (0, { sysPkt op 5 with data := [3] }) })] }
      s.pkts.find 5 = some { backPkt op with sys := some (0, { sysPkt op 5 with data := [3] }) } ∧ s.lodra.serving.find 5 = none ∧
      s.txFind 0 3 4 0 = some (4, txFlow0 true) ∧ s.ops.find (txReq0 true).op = some (storeOp 2) ∧ (storeOp 2).kind ≠ .fill) :=
  ⟨fun op h => atCore_of_check (by revert h op; decide +kernel), atCore_of_check (by decide +kernel), by decide +kernel⟩

/-- A broadcast among devices 0 and 1 of job 0x1000 and instance 0; device `c` coordinates. -/
def coll (st : CollSt) (coord : Nat) (hoisted : W64) (timer : Nat := 105000) (xfer : Option CollXfer := none) : Coll :=
  { team := 1, ctx := 0, core := 0, slot := 0, gen := 0, path := 0, pc := 0x1000, job := 0x1000, inst := 0, op := 0, ty := 0, hto := 5, count := 1, send := 0x1100, recv := 0x1200
    peers := if coord = 0 then 3 else 6, root := 1, st, hoisted, timer, xfer }
def collSt (c : Coll) : State := { flowSt with lodra := { flowSt.lodra with colls := [(8, c)] } }

theorem witness_CollectiveEvents : (collSt (coll .wait 0 0)).arrives (sysPkt 0x31 0) = true ∧ (coll .wait 0 0).coord = 0 ∧ (coll .wait 1 0).coord ≠ 0 ∧
    (∀ t ∈ [4999, 5000], ((((collSt (coll .wait 0 1 t)).collsOf (sysPkt 0x31 0)).filter fun e => e.2.st == .wait && e.2.coord == 0 && e.2.peers.getLsbD 1).find? fun e => e.2.inst == 0) =
      some (8, coll .wait 0 1 t)) ∧ (coll .wait 0 1 4999).timer < 1000 * (coll .wait 0 1 4999).hto ∧ 1000 * (coll .wait 0 1 5000).hto ≤ (coll .wait 0 1 5000).timer ∧
    ((coll .wait 0 1).hoisted ||| (1#64 <<< 1)) &&& (coll .wait 0 1).peers = (coll .wait 0 1).peers ∧ ((coll .wait 0 0).hoisted ||| (1#64 <<< 1)) &&& (coll .wait 0 0).peers ≠ (coll .wait 0 0).peers ∧
    (((collSt { coll .wait 0 1 with inst := 3 }).collsOf (sysPkt 0x31 0)).filter fun e => e.2.st == .wait && e.2.coord == 0 && e.2.peers.getLsbD 1) = [(8, { coll .wait 0 1 with inst := 3 })] ∧
    (((collSt (coll .wait 1 0 104999)).collsOf (sysPkt 0x32 0)).find? fun e => e.2.inst == 0 && e.2.st == .wait && e.2.coord != 0 && decide (e.2.timer < 1000 * e.2.hto + 100000)) =
      some (8, coll .wait 1 0 104999) ∧
    (((collSt (coll .wait 1 0)).collsOf (sysPkt 0x33 0)).find? fun e => e.2.inst == 0 && e.2.st == .wait && e.2.coord != 0) = some (8, coll .wait 1 0) ∧
    (∀ e ∈ (collSt (coll .wait 0 0)).collsOf (sysPkt 0x32 0), e.2.inst = instOf (sysPkt 0x32 0) → e.2.st = .wait → e.2.coord = 0) ∧
    (((collSt (coll .wait 0 0)).collsOf (sysPkt 0x34 0)).find? fun e => e.2.inst == 0 && e.2.st == .wait && e.2.coord == 0) = some (8, coll .wait 0 0) ∧
    instOf (sysPkt 0x31 0) = 0 ∧ 1000 * (coll .wait 1 0).hto + 100000 ≤ (coll .wait 1 0).timer ∧ (collSt (coll .run 0 0)).lodra.tx.find 8 = none ∧
    (coll .run 0 0).ranAt + 1000 * flowSt.rfld .lcfg 16 24 ≤ ({ flowSt with now := 1000000 } : State).now ∧
    (collSt (coll .run 0 0)).jobRoute 0 0x1000 1 = some 0 ∧ (1 : Nat) ∈ peersOf (coll .run 0 0).peers ∧ flowSt.devId = 0 ∧
    (collSt (coll .run 0 0)).group? 0 0 = some g1 ∧ g1.gen = (coll .run 0 0).gen ∧ g1.team = (coll .run 0 0).team := by decide +kernel

/-- Its own SEND is read, and then its RECV written, by operation 40, which is over, or has failed. -/
def xferSt (x : CollXfer) (o : Option Op) : State :=
  let s := collSt (coll .run 0 0 0 (some x))
  { s with ops := match o with | some o => s.ops.put 40 o | none => s.ops }
def sendRead (fail : Option (Nat × W64 × Nat)) : Op := { (coll .run 0 0).xferOp .collRead 0x1100 4 [] with got := [(0x22, 7)], fail }
theorem witness_CollectiveEvents_transfers :
    (collSt (coll .run 0 0)).performed (coll .run 0 0).acqOps = true ∧ (∀ d ∈ peersOf (coll .run 0 0).peers, d = 0 ∨ ∃ e ∈ ([(1, [1, 2, 3, 4])] : Parts), e.1 = d) ∧
    (¬ ∀ d ∈ peersOf (coll .run 0 0).peers, d = 0 ∨ ∃ e ∈ ([] : Parts), e.1 = d) ∧
    (∀ r ∈ (collSt (coll .run 0 0)).gateReads 0 0x1100 4, ((collSt (coll .run 0 0)).translate 0 r.va).isSome = true) ∧
    (∀ f ∈ [none, some (6, (0x1100 : W64), 0)], (xferSt (.read 40 [(1, [1, 2, 3, 4])]) (some (sendRead f))).ops.find 40 = some (sendRead f) ∧ (sendRead f).left = 0 ∧ (sendRead f).fail = f) ∧
    (∀ a, 0x1200 ≤ a → a < 0x1200 + (coll .run 0 0).recvLen → ((collSt (coll .run 0 0)).translate 0 (a / 128 * 128)).isSome = true) ∧
    (xferSt (.write 40) none).ops.find 40 = none ∧ (xferSt (.write 40) (some (sendRead none))).ops.find 40 ≠ none := by
  refine ⟨by decide +kernel, by decide +kernel, by decide +kernel, by decide +kernel, by decide +kernel, fun a h k => ?_, by decide +kernel, by decide +kernel⟩
  have k : a < 0x1204 := k
  have e : a / 128 * 128 = 0x1200 := by omega
  rw [e]; decide +kernel

/-! ### Cores, engines and the scheduler -/

def p0 : Path := g1.path 0
/-- Path 0 of the group changed, and other fields of it. -/
def onPath (f : Path → Path) (g : Group := g1) : Group := g.updPath 0 f
def quiet (g : Group) (d : Desc := desc0) : State := { world g d with cur := none, stamp := 100 }
def lateG : Group := { g1 with late := [{ cls := 6, path := 3, pid := 0, pc := 0x1004, va := 9, detail := 0 }, { cls := 5, path := 0, pid := (g1.path 0).born, pc := 0x1000, va := 9, detail := 0 }] }

theorem witness_CoreEvents_paths :
    (quiet lateG).group? 0 0 = some lateG ∧ lateG.done = false ∧ lateG.stopped = false ∧ ((List.range 8).find? fun i => (lateG.path i).ready && (lateG.lateOf i).isSome && ((quiet lateG).breakAt lateG (lateG.path i)).isNone) = some 0 ∧
    (lateG.lateOf 0).map Prod.fst = some 0 ∧ (onPath (fun p => { p with park := some (.busy 0) })).path 0 ≠ p0 ∧
    ((quiet g1).issueCtx 0 0 0 g1).comeAbout (.busy 0) = true ∧
    (let g := onPath (fun p => { p with wait := .counter 1 0 [] false }); (g.path 0).wait = .counter 1 0 [] false ∧ g.ctrOf 1 [] ≤ 0 ∧ ∀ i, i < 8 → (g.path i).park = none) ∧
    (let g := onPath (fun p => { p with entry := true, waitMask := 5 }); (g.path 0).valid = true ∧ (g.path 0).entry = true ∧ (∀ k, k < 12 → (g.path 0).waitMask.getLsbD k = true → g.flag k = 0)) ∧
    (let g := onPath (fun p => { p with entry := true, waitMask := 5 }) { g1 with flags := [(2, 1)] }; (g.path 0).waitMask.getLsbD 2 = true ∧ g.flag 2 ≠ 0) ∧
    (let g := onPath (fun p => { p with wait := .mem 0x1004 0 true true 900 }); g.stopped = false ∧ (g.path 0).wait = .mem 0x1004 0 true true 900) ∧
    (let g := onPath (fun p => { p with wait := .sleep 900 }); (g.path 0).wait = .sleep 900 ∧ 900 ≤ ({ quiet g with now := 900 } : State).now) := by decide +kernel

theorem witness_CoreEvents_words : (quiet g1).homeWord 0 0x1004 = .ok 0 ∧ (quiet g1).homeWord 0 0x1000 = .ok 0x0FFC003F :=
  ⟨ok_of_toOption (by decide +kernel), ok_of_toOption (by decide +kernel)⟩

theorem witness_CoreEvents_illegal : Issues (world g1) c0 g1 {} ∧ ({ world g1 with cur := some { c0 with access := true } } : State).cur = some { core := 0, slot := 0, path := 0, access := true } :=
  ⟨issues_of_check (by decide +kernel), rfl⟩

/-- Barrier 1 of the team waits for its one group, which has arrived. -/
def barTeam : Team := { teamSp with bars := [(1, { arrivals := 1, groups := [0] })] }
def barSt : State := (quiet (onPath fun p => { p with wait := .barrier 1 })).updTeam 1 fun _ => barTeam
theorem witness_CoreEvents_barrier : barSt.team? 1 = some barTeam ∧ barSt.barReady 1 1 = true ∧ (barSt.group? 0 0).isSome = true := by decide +kernel

def tokG : Group := { g1 with tokens := [(3, { out := true, kind := 3, scope := 2, covers := [70] })] }
/-- A copy of 64 bytes into the lease, that has been granted, read, not read, or is at its end. -/
def copyY : Copy := { slot := 0, gen := 0, path := 0, pc := 0x1000, ctx := 0, team := 1, id := 50, dst := 0x1100, src := 0x1000, len := 64 }
def copySt (y : Copy) (g : Group := g1) : State :=
  let s := (engines (quiet g)).updCore 0 fun c => { c with copies := [(2, y)] }
  { s with ops := [(60, { kind := .copyRead, left := 0, got := [(0x20, 7)] })] }
def copyG : Group := { g1 with ctrs := [(4, [(50, false)])], flags := [(3, 1)] }

theorem witness_CoreEvents_fence_copy : ((tokG.tokens.get {} 3).out = true ∧ (quiet tokG).performed (tokG.tokens.get {} 3).covers = true) ∧
    ((copySt { copyY with started := true }).core 0).copies.find 2 = some { copyY with started := true } ∧ copyY.started = false ∧ copyY.pos < copyY.len ∧ copyY.read = none ∧
    (copySt copyY).performed copyY.acqOps = true ∧ (copySt copyY).copyHalted copyY = false ∧ copyY.ssp = false ∧ copyY.dsp = false ∧ copyY.remote = false ∧
    ((copySt { copyY with read := some 60 }).ops.find 60).any (fun o => o.left == 0 && o.fail.isNone) = true ∧
    (copySt { copyY with pos := 64, flag := some 3 } copyG).copyDone { copyY with pos := 64, flag := some 3 } = true ∧ copyY.slot = 0 ∧ copyY.gen = copyG.gen ∧ copyG.done = false := by
  decide +kernel

/-- Its chunk's source has been read; the unit's reservation is held, or not; or a read has failed; on a remote route that is open, and on one that is not. -/
def chunkY (remote : Bool) (route : Nat) : Copy := { copyY with started := true, read := some 60, remote, route, path := 0 }
def readSt (held : Bool) (fail : Option (Nat × W64 × Nat)) : State :=
  { copySt { copyY with read := some 60 } with
    slew := [(0, { held := if held then [{ unit := .copy, core := 0, ctx := 0, size := 4 }] else [{ unit := .copy, core := 0, ctx := 0, size := 3 }] })]
    ops := [(60, { kind := .copyRead, left := 0, got := [(0x20, 7)], fail })] }
theorem witness_CoreEvents_chunks : (∀ h ∈ [true, false], (readSt h none).copyHeld 0 = h ∧ (∀ r ∈ ((readSt h none).slew.get {} 0).pending, r.isOf .copy 0 0 = false) ∧
      ((readSt h none).ops.find 60).any (fun o => o.left == 0 && o.fail.isNone) = true) ∧ (readSt true none).partOfUnit (unitOfCore 0) = some 0 ∧
    ((readSt true (some (6, 0x1000, 0))).ops.find 60).any (fun o => o.left == 0 && o.fail.isSome) = true ∧ (g1.done = false ∧ (readSt true none).group? 0 0 = some g1) ∧
    (∀ y ∈ [chunkY false 0, chunkY true 0, chunkY true 5, { chunkY false 0 with dsp := true }], ((copySt y).core 0).copies.find 2 = some y ∧ y.started = true) ∧
    ((remSt 0).routeOpen (chunkY true 0).ctx 0 = true ∧ (remSt 0).routeOpen (chunkY true 5).ctx 5 = false) ∧
    (chunkY true 5).gen = g1.gen ∧ (chunkY true 5).path ≠ 255 ∧ ((copySt { chunkY false 0 with dsp := true }).team? copyY.team).isSome = true := by decide +kernel

def poolG : Group := onPath (fun p => { p with park := some .pool })
theorem witness_CoreEvents_block : poolG.done = false ∧ poolG.stopped = false ∧ poolG.gsr.getLsbD 3 = false ∧ (poolG.path 0).park = some .pool ∧
    (quiet poolG).poolFits 0 poolG.wc ((quiet poolG).descOf poolG).vext = true ∧
    (let g := { g1 with redraw := true }; g.redraw = true ∧ g.gsr.getLsbD 3 = false) := by decide +kernel

/-- Instances of context 0: one that issues on core 0's first quarter, and one each on MATRIX, COPY, DRAM channel 0 and link 2. -/
def srv (cls : Nat) (st : SrvSt) (inst : Nat := 0) : Srv := { cls, inst, ctx := 0, q := 3, p := 1000, st, c := 5, d := 7, r := 9 }
def withSrv (v : Srv) (s : State) : State := { s with srvs := [v] }
def ref (v : Srv) : SrvRef := { cls := v.cls, inst := v.inst, ctx := v.ctx, route := v.route }
def burst0 : Burst := { chan := 0, ctx := 0, line := 0x40, write := true, data := 9, mask := 1 }
def burstSt (v : Srv) : State := withSrv v { quiet g1 with msys := { (quiet g1).msys with bursts := [burst0] } }

theorem witness_EngineEvents_servers : (burstSt (srv 3 .idle)).stands (srv 3 .idle) (ref (srv 3 .idle)) ∧ (burstSt (srv 3 .idle)).backlogged (srv 3 .idle) = true ∧
    (burstSt (srv 3 .run)).stands (srv 3 .run) (ref (srv 3 .run)) ∧ (srv 3 .run).cls ≠ 1 ∧ (srv 3 .run).cls ≠ 2 ∧
    (burstSt (srv 3 .capped)).stands (srv 3 .capped) (ref (srv 3 .capped)) ∧ (srv 3 .capped).r ≤ ({ burstSt (srv 3 .capped) with now := 9 } : State).now :=
  ⟨by show _ = _; decide +kernel, by decide +kernel, by show _ = _; decide +kernel, by decide +kernel, by decide +kernel, by show _ = _; decide +kernel, by decide +kernel⟩

def issueSt (bp : W64) : State := ((withSrv (srv 0 .ready) (quiet g1)).setReg (.dbgcfg 0) 1).setReg (.dbp 0 2) bp
theorem witness_EngineEvents_issue : (issueSt 0).issueChoice (0 / 4) (0 % 4) = some (0, 0) ∧ (g1.path 0).run < 256 ∧ (issueSt 0).breakAt g1 (g1.path 0) = none ∧
    (issueSt 0x4001).breakAt g1 (g1.path 0) = some 2 ∧ (g1.path 0).ready = true ∧ (issueSt 0x4001).rfld (.dbp 0 2) 1 2 = 0 := by decide +kernel

/-- A scaling of a 16 by 16 region at the head of bank 0; a copy with its source data. -/
def scaleOp : MOp := { kind := .sca, ctx := 0, team := 1, slot := 0, gen := 0, path := 0, pc := 0x1000, mask := 0xFFFF }
def matrixSt : State :=
  let s := withSrv (srv 1 .ready) (quiet g1)
  { s.updCore 0 fun c => { c with banks := [(0, { team := some 1, q := [scaleOp] })] } with slew := [(0, { held := [{ unit := .matrix, core := 0, ctx := 0, size := 64 }] })] }
def copyRun : State := withSrv (srv 2 .ready) { copySt { copyY with read := some 60 } with slew := [(0, { held := [{ unit := .copy, core := 0, ctx := 0, size := 4 }] })] }
def linkRun : State :=
  let s := withSrv { srv 4 .ready 2 with route := 0 } (linked port)
  { s.setReg (.lstat 2) (BitVec.ofNat 64 (1 + 255 * 2 + 2 * 2 ^ 9)) with lodra := { s.lodra with links := [(2, { wait := [(0, sysPkt 0x10 4)] })] } }

theorem witness_EngineEvents_grants : matrixSt.engineBusy 1 0 = false ∧ matrixSt.earliest 1 0 (fun v => (matrixSt.bankChoice 0 v.ctx).isSome) = some (srv 1 .ready) ∧
    matrixSt.bankChoice 0 0 = some (0, { team := some 1, q := [scaleOp] }) ∧
    copyRun.engineBusy 2 0 = false ∧ copyRun.copyHeld 0 = true ∧ copyRun.earliest 2 0 (fun v => (copyRun.copyHeld 0 && ((copyRun.core 0).nextCopy copyRun v.ctx).isSome) || (copyRun.copyhNext 0 v.ctx).isSome) = some (srv 2 .ready) ∧
    copyRun.copyhNext 0 0 = none ∧ (copyRun.core 0).nextCopy copyRun 0 = some (2, { copyY with read := some 60 }) ∧ (copyRun.core 0).copies.find 2 = some { copyY with read := some 60 } ∧
    (burstSt (srv 3 .ready)).boot.hbmHeld = none ∧ (burstSt (srv 3 .ready)).earliest 3 0 (burstSt (srv 3 .ready)).backlogged = some (srv 3 .ready) ∧
    ((burstSt (srv 3 .ready)).msys.bursts.find? fun b => b.chan == 0 && b.ctx == 0) = some burst0 ∧ burst0.pkt = none ∧
    linkRun.earliest 4 2 linkRun.backlogged = some { srv 4 .ready 2 with route := 0 } ∧ (linkRun.flitPlan 2 0).isSome = true ∧ (linkRun.link 2).owed = false := by decide +kernel

/-- Two free reservations and two requests of partition 0, with room for all of a row, for one request, or for none. -/
def freeA : Resv := { unit := .matrix, core := 0, ctx := 0, size := 64, free := true, since := 1 }
def freeB : Resv := { unit := .vector, core := 0, quarter := 1, ctx := 0, size := 4, free := true, since := 2 }
def askA : Resv := { unit := .matrix, core := 0, ctx := 0, size := 64, since := 1 }
def askB : Resv := { unit := .copy, core := 1, ctx := 0, size := 4, since := 1 }
def rampSt (h p : List Resv) (up down ceil : Nat) : State :=
  ({ guest with slew := [(0, { cycles := 5, held := h, pending := p })] }.setRfld (.pslew 0) 0 16 (256 + ceil)).setRfld (.pramp 0 0) 0 16 (256 * down + up)

theorem witness_EngineEvents_ramp : freeA.RetiresFirst freeB ∧ (rampSt [] [askA, askB] 64 64 64).GrantsFirst askA askB ∧ askA.isOf askB.unit askB.core askB.quarter = false ∧
    (∀ e ∈ [(68, 68), (64, 64), (63, 63), (255, 0)], ((rampSt [freeA, freeB] [] e.1 e.2 64).slew.get {} 0).held = [freeA, freeB] ∧ 4 ≤ ((rampSt [] [askA, askB] e.1 e.2 64).slew.get {} 0).cycles ∧
      ((rampSt [] [askA, askB] e.1 e.2 64).slew.get {} 0).pending = [askA, askB] ∧ 0 < (rampSt [] [] e.1 e.2 64).rfld (.pslew 0) 8 8 ∧
      (rampSt [] [] e.1 e.2 64).rfld (.pramp 0 0) 0 8 = e.1 ∧ (rampSt [] [] e.1 e.2 64).rfld (.pramp 0 0) 8 8 = e.2) ∧
    askB.size ≤ (rampSt [freeB] [askB] 0 4 64).rfld (.pslew 0) 0 8 * ((rampSt [freeB] [askB] 0 4 64).partUnits 0).length ∧ freeB.free = true ∧ askB.size ≤ 0 + freeB.size :=
  ⟨by unfold Resv.RetiresFirst; decide +kernel, by unfold State.GrantsFirst; decide +kernel, by decide +kernel, by decide +kernel, by decide +kernel, rfl, by decide +kernel⟩

/-- Two breakpoints at the instruction of path 0, the second of which stops its group; one passed by the skip of a resumption. -/
def twoStops : State := (issueSt 0x4001).setReg (.dbp 0 3) 0x4003
theorem witness_EngineEvents_breaks : twoStops.breaksAt g1 (g1.path 0) = [2, 3] ∧ twoStops.rfld (.dbp 0 3) 1 2 = 1 ∧ twoStops.rfld (.dbp 0 2) 1 2 = 0 ∧
    twoStops.breaksAt g1 { g1.path 0 with bpSkip := some (g1.path 0).pc } = [] ∧ twoStops.breaksAt g1 { g1.path 0 with bpSkip := some 0x1004 } = [2, 3] ∧
    (∀ t0, ({ guest with now := 9999, mon := { guest.mon with sampledAt := [(0, 0)] } } : State).mon.sampledAt.find 0 = some t0 → 9999 < t0 + 10000) ∧
    guest.mon.sampledAt.find 0 = none :=
  ⟨by decide +kernel, by decide +kernel, by decide +kernel, by decide +kernel, by decide +kernel, fun t0 h => by cases h; decide, by decide +kernel⟩

theorem witness_EngineEvents_slew : 4 ≤ (({ guest with slew := [(0, { cycles := 5 })] } : State).slew.get {} 0).cycles ∧ guest.partOfUnit 0 = some 0 ∧
    (({ guest with slew := [(0, { droop := some 64 })] } : State).slew.get {} 0).droop = some 64 ∧ (({ guest with slew := [(0, { droop := some 63 })] } : State).slew.get {} 0).droop = some 63 ∧
    (quadCores 3)[0]?.isSome = true ∧ [300][0]? = some 300 ∧ guest.rfld (.therm 0) 0 8 ≤ ([300].map fun x => min 255 x).foldl max 0 ∧ guest.mon.tstepAt.find 0 = none ∧
    guest.rfld (.therm 0) 24 4 < 8 := by decide +kernel

/-- The team of the group, changed. -/
def teamSt (t : Team) (g : Group := g1) : State := (quiet g).updTeam 1 fun _ => t
def safeG : Group := { g1 with atSafe := some 5 }
def parkedG : Group := onPath fun p => { p with wait := .sleep 900 }
def stoppedG : Group := { g1 with stopped := true }
def noGroups (s : State) : State := s.updCore 0 fun k => { k with groups := [] }

theorem witness_SchedulingEvents_stops : (teamSt { teamSp with stop := some 0 } safeG).group? 0 0 = some safeG ∧ (teamSt { teamSp with stop := some 0 } safeG).team? 1 = some { teamSp with stop := some 0 } ∧
    safeG.stopped = false ∧ safeG.done = false ∧ safeG.stopPoint = some (some 5) ∧ parkedG.stopPoint = some none ∧ (safeG.mbs.any fun e => e.2.busy) = false ∧
    teamSp.core.isSome = true ∧ teamSp.saved = none ∧ (teamSt teamSp).team? 1 = some teamSp ∧
    ({ quiet g1 with sched := { (quiet g1).sched with preempts := [(7, { teams := [1], kind := 0, due := some 50 })] } } : State).sched.preempts.find 7 =
      some { teams := [1], kind := 0, due := some 50 } ∧
    (teamSt { teamSp with stop := some 1 } stoppedG).resident 1 = true ∧ (teamSt { teamSp with stop := some 1 } stoppedG).drained 1 { teamSp with stop := some 1 } false = true ∧
    (teamSt { teamSp with stop := some 3 } stoppedG).drained 1 { teamSp with stop := some 3 } true = true ∧
    (noGroups (teamSt teamSp)).resident 1 = false := by
  decide +kernel

def unplacedG : Group := { g1 with unplaced := [(5, 9)] }
theorem witness_SchedulingEvents_retry : ((quiet unplacedG).core 0).groups = [(0, unplacedG)] ∧ unplacedG.unplaced = [(5, 9)] ∧ ((quiet unplacedG).writeV 0 0 5 9).isSome = true := by
  decide +kernel

/-- Grid 1 in queue 63, with its team placed and gone, or not placed; or with a fault and no team. -/
def endGrid : Grid := { placedGrid with desc := desc0, queue := 63, live := 0, inEdge := some 3, outEdge := some 3, cmd := 5 }
def gridSt (g : Grid) (teams : Bool) : State :=
  let s := ringSt
  { s with sched := { s.sched with grids := [(1, g)], queues := [(63, [1])], teams := if teams then s.sched.teams else [] } }
theorem witness_SchedulingEvents_grids : (gridSt endGrid true).sched.grids.find 1 = some endGrid ∧ endGrid.fault = none ∧ (gridSt endGrid true).joined 1 endGrid = true ∧
    endGrid.next = endGrid.desc.teams ∧ endGrid.live = 0 ∧ (∀ e ∈ (gridSt endGrid true).sched.cmds, e.2.queue < 64) ∧
    (∀ e ∈ (gridSt { endGrid with fault := some {} } false).sched.teams, e.2.grid ≠ 1) := by decide +kernel

/-- Core 0 is hot; core 1 has an instance of the context too. -/
def twoCores (s : State) : State := { s with srvs := [{ cls := 0, inst := 0, ctx := 0 }, { cls := 0, inst := 4, ctx := 0 }] }
def hotSt : State := (twoCores (teamSt teamSp)).setRfld (.psched 0) 16 1 1 |>.setRfld (.ctemp 0) 8 1 1
theorem witness_SchedulingEvents_migration : hotSt.partOfUnit (unitOfCore 0) = some 0 ∧ hotSt.rfld (.psched 0) 16 1 = 1 ∧ hotSt.rfld (.ctemp 0) 8 1 = 1 ∧
    leastBy (fun c : Nat => hotSt.rfld (.ctemp c) 0 8 * 256 + c)
      ((hotSt.region 0).filter fun c => c != 0 && hotSt.rfld (.ctemp c) 8 1 == 0 && hotSt.passes teamSp (hotSt.grid 1).desc c) = some 1 ∧ hotSt.team? 1 = some teamSp := by decide +kernel

def lendSt : State := { (guest.setReg (.clend 5) 0).setReg (.ctxcfg 0) 0x8001 with now := 700, sched := { guest.sched with idle := [(5, 300)] } }
theorem witness_SchedulingEvents_lend : lendSt.clOwner 5 = some 0 ∧ lendSt.trackIdle.sched.idle.find 5 = some 300 ∧ lendSt.clState 5 = 0 ∧ lendSt.rfld (.ctxcfg 0) 15 1 = 1 ∧
    300 + 1000 * lendSt.rfld (.ctxcfg 0) 18 16 ≤ lendSt.now := by decide +kernel

def headSt : State := { (twoCores (gridSt { endGrid with next := 0 } true)).setReg (.hqcfg 63) 0x100200 with now := 200000, stamp := 100 }
theorem witness_SchedulingEvents_rounds : guest.roundQueues 0 = [] ∧ headSt.roundQueues 0 = [(63, 0)] ∧ headSt.sched.resume.get [] 0 = [] ∧ 0 < headSt.rfld (.hqcfg 63) 9 8 ∧
    headSt.headGrid 63 = some (1, { endGrid with next := 0 }) ∧
    ((headSt.tryOrder 0 false).find? fun c => (if false then !headSt.barred 63 (c - c % 2) && !headSt.barred 63 (c - c % 2 + 1) else !headSt.barred 63 c) &&
      headSt.passes (Grid.nextTeam { endGrid with next := 0 } 1) desc0 c) = some 0 ∧ desc0.pair = false ∧
    ({ headSt.sched with clocks := [(63, 0)] } : Sched).clocks.find 63 = some 0 ∧ headSt.sched.aged.find 63 = none ∧ 0 + 1000 * headSt.rfld (.psched 0) 0 16 ≤ headSt.now ∧
    ((world g1 { desc0 with wdog := true }).descOf g1).wdog = true ∧ g1.watchdog ≤ 1 := by decide +kernel

/-- The order in which the cores of the head's context are tried, after no placement and after one on core 0; a bare core 0 and its instance. -/
theorem witness_SchedulingEvents_order : headSt.rfld (.hqcfg 63) 9 8 = 1 ∧ headSt.sched.grids.find 1 = some { endGrid with next := 0 } ∧ headSt.sched.teams.find headSt.stamp = none ∧
    (let region := (List.range 256).filter fun c => headSt.partHasUnit (headSt.ctxPart 0) (c / 4) && headSt.srvs.any fun v => v.is 0 (4 * c) 0 0
     region = [0, 1] ∧ headSt.sched.lastCore.find 0 = none ∧
      (region.find? fun c => !headSt.barred 63 c && headSt.passes (Grid.nextTeam { endGrid with next := 0 } 1) desc0 c) = some 0 ∧
      ((region.filter fun c => decide (0 < c)) ++ region.filter fun c => decide (c ≤ 0)) = [1, 0]) ∧
    ({ headSt with sched := { headSt.sched with lastCore := [(0, 0)] } } : State).sched.lastCore.find 0 = some 0 ∧
    ((teamSt { teamSp with stop := some 1 } stoppedG).freeArea 0 false).isSome = true ∧ teamSp.area = none ∧
    (∀ e ∈ (teamSt teamSp).sched.preempts, e.2.teams.Nodup) ∧ (quiet unplacedG).sharedName 0 0 9 = none ∧
    ({ teamSp with orphan := some {} } : Team).orphan.isSome = true ∧ teamSp.orphan = none := by decide +kernel

/-- Cluster 0 with nothing on it, and the team of grid 1 for it. -/
def emptySt : State := noGroups (twoCores { quiet g1 with sched := { (quiet g1).sched with teams := [] } } |>.updCore 0 fun k => { k with slots := [] })
theorem witness_SchedulingEvents_bare : emptySt.bareCore 0 ∧ emptySt.clOwner (0 / 2) = none ∧ emptySt.kept teamSp 0 = false ∧ teamSp.saved = none :=
  ⟨⟨by decide +kernel, by decide +kernel, by decide +kernel, by decide +kernel⟩, by decide +kernel, by decide +kernel, rfl⟩

/-! ### The step, invariants and whole-machine claims -/

/-- The bytes at the pc decode: a parcel of 4 bytes, one of 2, one that no row matches, and a page that cannot be run. -/
def bytesSt (n w : Nat) : State := { State.reset.withFetchWord n w with cur := some c0 }
def fetchedAs (s : State) (n : Nat) : Option Group := (s.group? 0 0).bind fun g =>
  let a := (g.fetchPc c0).toNat
  if s.fetchFault g false a 2 == none && s.fetchFault g false a n == none && s.virtRead g.ctx a 2 % 2 == (if n = 4 then 1 else 0) then some g else none

theorem error_of_check {ε α : Type} [DecidableEq ε] {e : Except ε α} {x : ε} (h : (match e with | .error y => decide (y = x) | .ok _ => false) = true) : e = .error x := by
  cases e with
  | error _ => simpa using h
  | ok b => simp at h

theorem witness_StepRunsDecoded : (bytesSt 32 0xFFFF049D).cur = some c0 ∧ (∃ g, fetchedAs (bytesSt 32 0xFFFF049D) 4 = some g ∧
    ∃ rest, decodeParcel (bytesLE 4 ((bytesSt 32 0xFFFF049D).virtRead g.ctx (g.fetchPc c0).toNat 4)) = .ok (.uaddi { i := 0xFFFF, d := 4 }, rest)) :=
  ⟨by decide +kernel, _, rfl, [], ok_of_toOption (by decide +kernel)⟩

theorem witness_StepRunsDecoded_short : ∃ g, fetchedAs (bytesSt 16 0x5400) 2 = some g ∧
    ∃ rest, decodeParcel (bytesLE 2 ((bytesSt 16 0x5400).virtRead g.ctx (g.fetchPc c0).toNat 2)) = .ok (.vaddN { a := 10, d := 32 }, rest) :=
  ⟨_, rfl, [], ok_of_toOption (by decide +kernel)⟩

theorem witness_StepRunsDecoded_illegal : ∃ g, fetchedAs (bytesSt 32 0x0000003D) 4 = some g ∧
    decodeParcel (bytesLE 4 ((bytesSt 32 0x0000003D).virtRead g.ctx (g.fetchPc c0).toNat 4)) = .error (.illegal 1) :=
  ⟨_, rfl, error_of_check (by decide +kernel)⟩

/-- The path's pc lies outside its lease; and no path issues and an event stands first. -/
theorem witness_StepRunsDecoded_fault : (world (onPath fun p => { p with pc := 0x9000 })).group? 0 0 = some (onPath fun p => { p with pc := 0x9000 }) ∧
    ((world g1).fetchFault (onPath fun p => { p with pc := 0x9000 }) false 0x9000 2).isSome = true ∧
    ({ quiet g1 with turns := [.ev .regulatorsStarted, .tick] } : State).cur = none := by decide +kernel

theorem witness_DecodeEncode : (Instr.stgReg { sp := 0, pred := 1, l := 0, n := 3, b := 8, d := 4, z := 2 }).illegalCode = none ∧
    encode (.stgReg { sp := 0, pred := 1, l := 0, n := 3, b := 8, d := 4, z := 2 }) = some (bytesLE 4 0x20C812A5) := by decide +kernel

theorem witness_MemoryCanonicalKept : State.reset.memoryOk ∧ (bytesSt 32 0xFFFF049D).memoryOk ∧ ∃ t, step (bytesSt 32 0xFFFF049D) = .next t :=
  ⟨show Memory.wf _ = true by decide +kernel, show Memory.wf _ = true by decide +kernel, _, rfl⟩

theorem witness_CommandQueuesKept : (∀ e ∈ (office launchBad).sched.cmds, e.2.queue < 64) ∧ (office launchBad).sched.cmds ≠ [] ∧
    ∃ t, step (office launchBad) = .next t := ⟨by decide +kernel, by decide +kernel, _, rfl⟩

theorem witness_PostmarkMoves : ({ quiet g1 with turns := [.tick] } : State).cur = none ∧ (∃ t, step { quiet g1 with turns := [.tick] } = .next t) ∧
    (bytesSt 32 0xFFFF049D).cur = some c0 ∧ (∃ t, exec (.uaddi { i := 0xFFFF, d := 4 }) (bytesSt 32 0xFFFF049D) = .next t) :=
  ⟨by decide +kernel, ⟨_, rfl⟩, by decide +kernel, _, rfl⟩

/-- A grid with a handler, one without, and one that has faulted before. -/
def handled : State := world g1 { desc0 with handler := 0x1800 }
def faulted (r : FaultRec) : State := { world g1 with sched := { (world g1).sched with grids := [(1, { placedGrid with fault := some r })] } }
theorem witness_FaultEntry : handled.group? 0 0 = some g1 ∧ (g1.path 0).valid = true ∧ (6 : Nat) ∉ [4, 12, 14] ∧ (handled.grid g1.grid).desc.handler ≠ 0 ∧
    (g1.path 0).hndl = false ∧ (12 : Nat) ∈ [4, 12, 14] ∧ ((world g1).grid g1.grid).desc.handler = 0 ∧ ((world g1).sched.grids.find g1.grid).isSome = true ∧
    ((world g1).grid g1.grid).fault = none ∧ ((faulted { cls := 5, time := 9 }).grid g1.grid).fault = some { cls := 5, time := 9 } := by decide +kernel
/-- Class 6 goes to the handler with the mask kept; class 12 ends the grid; an earlier record stands (R135, R139). -/
theorem test_fault_entry : ((grpOf (handled.takeFault 0 0 0 0x1000 6 9 7)).path 0).pc = 0x1800 ∧ ((grpOf (handled.takeFault 0 0 0 0x1000 6 9 7)).path 0).hndl = true ∧
    ((grpOf (handled.takeFault 0 0 0 0x1000 12 9 7)).path 0).pc = 0x1000 ∧ (((handled.takeFault 0 0 0 0x1000 12 9 7).grid 1).fault.map FaultRec.cls) = some 12 ∧
    ((((faulted { cls := 5 }).takeFault 0 0 0 0x1000 6 9 7).grid 1).fault.map FaultRec.cls) = some 5 ∧
    ((((faulted { cls := 5, time := 9 }).takeFault 0 0 0 0x1000 6 9 7).grid 1).fault.map FaultRec.cls) = some 6 := by decide +kernel

def bigRec : FaultRec := { cls := 65535, path := 255, grp := 255, ctx := 65535, team := 2 ^ 64 - 1, time := 2 ^ 64 - 1, detail := 2 ^ 64 - 1, further := 2 ^ 32 - 1 }
theorem witness_FaultRecords : bigRec.cls < 2 ^ 16 ∧ bigRec.path < 256 ∧ bigRec.grp < 256 ∧ bigRec.ctx < 2 ^ 16 ∧ bigRec.team < 2 ^ 64 ∧ bigRec.time < 2 ^ 64 ∧
    bigRec.detail < 2 ^ 64 ∧ bigRec.further < 2 ^ 32 ∧ (world g1).sched.grids.find 1 = some { placedGrid with desc := desc0 } ∧
    (faulted bigRec).sched.grids.find 1 = some { placedGrid with fault := some bigRec } := by decide +kernel

theorem witness_Charges : (0 : Nat) < 10 ∧ 0 < (srv 0 .ready).q ∧ (withSrv (srv 0 .ready) guest).srv? 0 (4 * 0 + 0) 0 0 = some (srv 0 .ready) ∧
    ((srv 0 .ready).c : Int) - (srv 0 .ready).amount 10 17 1 < 0 := by decide +kernel

theorem witness_Misrouted : Instr.ack { sysPkt 1 0 with ddev := 5 } ∈ [Instr.remoteRequest { sysPkt 1 0 with ddev := 5 }, .ack { sysPkt 1 0 with ddev := 5 }] ∧
    ({ sysPkt 1 0 with ddev := 5 } : SysPkt).ddev ≠ guest.devId ∧ guest.rteValid (sysPkt 1 0).route = false ∧
    (sysPkt 1 0).cls < 8 ∧ (sysPkt 1 0).srt < 64 ∧ (sysPkt 1 0).sep < 16 := by decide +kernel

theorem witness_DirectionReads :
    let x := (world gD).issuing c0 gD
    (Instr.dnrm { sp := 0, a := 2, x := 9 }).illegalCode = none ∧ Issues (world gD) c0 gD { sp := (0 : BitVec 1) == 1 } ∧ DirReady x [0, 1, 2] [0, 1, 2] ∧ x.sWait [9] = none ∧
      (x.dread 1).norm = 0x8000 ∧ (x.dread 2).norm = 0x8001 ∧ (x.dread 0).norm = 0 ∧ (Instr.dtest { sp := 0, c := 2, a := 1, k := 3 }).illegalCode = none ∧
      (3 : BitVec 2).toNat = 3 :=
  ⟨by decide +kernel, issues_of_check (by decide +kernel), ⟨by decide +kernel, by decide +kernel⟩, by decide +kernel⟩

/-- Core 0 holds one result, register 3 of the array, under the key of the instruction. -/
def hitReg : Pvr := { ctx := 0, fp := 5, count := 1, shared := true, wc := g1.wc, val := 0x7, used := 0 }
def hitKey (F : LaneForm) : RtEntry :=
  let x := (world g1).issuing c0 g1
  { x.laneKey (F.op x) ((F.op x).opw.getD 0) with val := 3, xr := true }
def hitSt (F : LaneForm) : State := (world g1).updCore 0 fun c => { c with pvrs := [(8192 * g1.wc + 3, hitReg)], rt := [hitKey F] }

theorem witness_TableHits : ∃ F, laneInteger (.vadd { sp := 0, pred := 0, b := 2, a := 1, d := 5 }) = some F ∧
    let x := (hitSt F).issuing c0 g1
    let o := F.op x
    (Instr.vadd { sp := 0, pred := 0, b := 2, a := 1, d := 5 }).illegalCode = none ∧ Issues (hitSt F) c0 g1 (F.inf g1) ∧ F.ok x = true ∧
      x.laneFault o.srcs o.runs [o.dst] = none ∧ x.laneWait o.srcs o.runs [o.dst] = none ∧ o.opw.isSome = true ∧ x.eligible (o.srcs ++ [o.dst]) = true ∧ o.mask = fullMask x.w ∧ x.vPending o.dst = false ∧
      ((hitSt F).core 0).lookup (x.laneKey o (o.opw.getD 0)) = some (hitKey F) ∧ mapKey (hitKey F).wc (hitKey F).val = some (8192 * g1.wc + 3) ∧
      ((hitSt F).core 0).pvrs.find (8192 * g1.wc + 3) = some hitReg :=
  ⟨_, rfl, by decide +kernel, issues_of_check (by decide +kernel), by decide +kernel⟩

/-- The hit maps the destination to the entry's register and keeps its sticky bit (R210). -/
theorem test_table_hit : ∃ F, laneInteger (.vadd { sp := 0, pred := 0, b := 2, a := 1, d := 5 }) = some F ∧
    (grpOf (ran (.vadd { sp := 0, pred := 0, b := 2, a := 1, d := 5 }) (hitSt F))).vreg 5 = 0x7 ∧
    (grpOf (ran (.vadd { sp := 0, pred := 0, b := 2, a := 1, d := 5 }) (hitSt F))).gsr = g1.gsr ||| 0x10 :=
  ⟨_, rfl, by decide +kernel, by decide +kernel⟩

/-! ## The places of fragment elements (R365, R367) -/

/-- UINT8 at n = 16, K = 32 and W = 16: A(2, 1) = 2 is byte 65 of the image, byte 1 of its second register, and
B(1, 3) = 5 is byte 3 * 32 + 1 = 97, byte 33 of the second register. Their product is the code of 10.0 at (2, 3). -/
def tileOf (i j : Nat) : W32 :=
  (Bank.tileStep {} { mop0 with kind := .mma, ty := 5, rowM := 0xFFFF, colM := 0xFFFF, depM := 0xFFFFFFFF } 16
    [0, (2 : VReg) <<< 8] [0, (5 : VReg) <<< 264]).elem ((regionAt 0).key i j)

theorem test_fragment_places : tileOf 2 3 = 0x41200000#32 ∧ tileOf 3 2 = 0 := by decide +kernel

/-! ### Witnesses of the clauses that the families above leave -/

/-- A Sync of one step, an answer to the device's own request, a pair of frames that the port takes and drops, and another key. -/
theorem witness_HostPortFrames_cases : port.rfld .hpcfg 0 16 = 0 ∧ port.hmaddr ≠ 0 ∧ guest.hmaddr = 0 ∧ (1 : Nat) ≠ port.rfld .hpcfg 0 16 ∧
    ({ port := 319, master := 4, seq := 2, kind := .sync false 50 } : PtpMsg).port = 319 ∧ (1 : BitVec 256) ≠ port.host.cak ∧
    (0 : Int) < ((90 : Nat) : Int) - 50 - (((60 : BitVec 64).toNat : Int) - 40) := by decide +kernel

theorem witness_Rings_held :
    let s := ringSt { ring4 with reset := some 2, held := [dbell], head := 2 }
    s.queueCtx 63 = some 0 ∧ (s.ring 63).reset = some 2 ∧ (∀ e ∈ s.sched.cmds, e.2.queue ≠ 63) ∧ (s.ring 63).held = [dbell] := by decide +kernel

/-- A COPYH to the host (dir 0) or from it in lease 0, under way in a phase of its chunk of 256 bytes; operation 40 carries it out. -/
def copyhRun (ph : CopyhSt) (dir : Nat := 0) : Cmd :=
  { cmdOf 2 [(8, 0x1100), (29, dir), (32, 4097)] with lease := some 0, st := .started, phase := ph, chunk := 256, op := some 40, buf := List.replicate 256 0 }
def copyhOp (fail : Option (Nat × W64 × Nat)) : Op := { portOp 0 0x1100 256 (.portRead none) with fail }
def copyhSt (c : Cmd) (fail : Option (Nat × W64 × Nat) := none) : State := { office c with ops := [(40, copyhOp fail)] }
theorem witness_GuestCommands_chunks : ∀ ph ∈ [CopyhSt.moving, .ready, .granted], ∀ dir ∈ [0, 1], ∀ fail ∈ [none, some (5, (0 : W64), 0)],
    let s := copyhSt (copyhRun ph dir) fail
    s.sched.cmds.find 5 = some (copyhRun ph dir) ∧ (copyhRun ph dir).opc = 2 ∧ (copyhRun ph dir).st = .started ∧ (copyhRun ph dir).phase = ph ∧ s.ops.find 40 = some (copyhOp fail) ∧
    (copyhOp fail).left = 0 ∧ s.copyhCore 0 = none ∧ 2 ≤ (s.lease 0 ((copyhRun ph dir).lease.getD 255)).st ∧ s.host.qps.find (qpNum 0 ((copyhRun ph dir).fld 28 1)) = some pair0 ∧
    (∀ r ∈ gateWrites 0x1100 (copyhRun ph dir).buf, (s.translate 0 r.va).isSome = true) ∧
    ({ copyhRun .idle with progress := 4097 } : Cmd).fld 32 4 ≤ 4097 := by decide +kernel

/-- The ROUTE of device 1 that answers the one of `bindSt`, come in time and with every hop admitted. -/
def farRoute : PeerRoute := { device := 1, ctx := 0, toDevice := 0, toCtx := 0, job := 0, cls := 0, index := 3, robn := 4, refusedHop := none }
theorem witness_GuestCommands_match : ({ bindSt with now := 10 } : State).matches { routeCmd with st := .started } farRoute = true ∧ farRoute.refusedHop = none ∧
    ({ bindSt with now := 10 } : State).sched.cmds.find 5 = some { routeCmd with st := .started } ∧ bindSt.matches { routeCmd with st := .started } farRoute = false := by decide +kernel

/-- A packet for route 0 at the gateway, on its way out over the route's one link. -/
def outPkt : Pkt := { op := 0, drt := 3, dep := 15, srt := 0, sep := 0, part := 63, inp := 4, ctx := 0, stage := .net 3, sys := some (0, sysPkt 0 4), opId := 6 }
def routed : State := (linked port).setReg (.lstat 0) (BitVec.ofNat 64 (1 + 255 * 2 + 2 * 2 ^ 9))
theorem witness_NetworkEvents_out : outPkt.stage = .net outPkt.drt ∧ (routed.liveStrands 0).length = 1 ∧ (routed.liveStrands 0)[4 % 1]? = some 0 := by decide +kernel

theorem witness_RemoteFlows_timer : rxFlow0.timed = false ∧ 0x10 ≤ (sysPkt 0x10 5).op ∧ (sysPkt 0x10 5).op ≤ 0x13 ∧ (sysPkt 0x10 5).seq = (txReq0 true).seq ∧
    (flowSt true).arrives (sysPkt 0x10 5) = true ∧ (txReq0 false).acked = false ∧
    (let q : Pkt := { reqPkt 0x10 .core with sys := some (0, sysPkt 0x10 5) }
     let s := { flowSt true with pkts := [(5, q)] }
     s.pkts.find 5 = some q ∧ s.lodra.serving.find 5 = none ∧ s.arrives (sysPkt 0x10 5) = true ∧ s.txFind 0 3 4 0 = some (4, txFlow0 true) ∧ s.ops.find 6 = some (storeOp 2)) := by
  decide +kernel

/-- A transfer that has run for the flow timeout of 1000 µs; and a broadcast whose root's 4 bytes, or only 3, have come. -/
theorem witness_CollectiveEvents_run :
    let s := { collSt (coll .run 0 0) with now := 2 ^ 40 }
    s.lodra.colls.find 8 = some (coll .run 0 0) ∧ (coll .run 0 0).ranAt + 1000 * s.rfld .lcfg 16 24 ≤ s.now ∧
    ([(1, [1, 2, 3, 4])].find? fun e : Nat × Bytes => e.1 == (coll .run 0 0).root) = some (1, [1, 2, 3, 4]) := by decide +kernel

theorem witness_CoreEvents_fence : tokG.stopped = false ∧ (quiet tokG).group? 0 0 = some tokG ∧ memHolds 7 7 true = true ∧ memHolds 7 7 false = false := by decide +kernel

/-- A COPYH chunk that waits for copy unit 0; an instance that has lost its backlog; a sample too early and one in time; a repeated replay request. -/
def chunkRun : State := withSrv (srv 2 .ready) (office { copyhRun .ready with chunk := 256 } (quiet g1))
theorem witness_EngineEvents_more : chunkRun.engineBusy 2 0 = false ∧
    chunkRun.earliest 2 0 (fun v => (chunkRun.copyHeld 0 && ((chunkRun.core 0).nextCopy chunkRun v.ctx).isSome) || (chunkRun.copyhNext 0 v.ctx).isSome) = some (srv 2 .ready) ∧
    chunkRun.copyhNext 0 0 = some (5, { copyhRun .ready with chunk := 256 }) ∧
    (withSrv (srv 3 .ready) (quiet g1)).stands (srv 3 .ready) (ref (srv 3 .ready)) ∧ (withSrv (srv 3 .ready) (quiet g1)).backlogged (srv 3 .ready) = false ∧
    (let s : State := { guest with mon := { guest.mon with sampledAt := [(1, 5)] } }
     s.mon.sampledAt.find 1 = some 5 ∧ s.now < 5 + 10000 ∧ s.mon.sampledAt.find 2 = none) :=
  ⟨by decide +kernel, by decide +kernel, by decide +kernel, by show _ = _; decide +kernel, by decide +kernel⟩

theorem witness_SchedulingEvents_place : (∀ e ∈ (quiet unplacedG).ops, e.2.awaitsPlace 0 = false) ∧ ({ teamSp with stop := some 2 } : Team).stop = some 2 ∧
    youngest ((hotSt.teamsOn 0).filter fun e => hotSt.mayMigrate e.1 e.2 && hotSt.resident e.1) = some (1, teamSp) := by decide +kernel

/-- A packet of a reserved type for another device is logged under the lower code (R38). -/
theorem test_misrouted_reserved :
    (ran (.remoteRequest { sysPkt 0x36 0 with ddev := 9 }) flowSt).rfld (.dlog 0 0) 44 4 = 5 ∧ (ran (.remoteRequest { sysPkt 0 0 with ddev := 9 }) flowSt).rfld (.dlog 0 0) 44 4 = 7 := by
  decide +kernel

end Sys2Proof.Tests
end

namespace Sys2Proof.BringUpProofs
open Sys2Proof Sys2Proof.Machine

/-! SUPPORT and PROOFS. Bring-up, maintenance and management messages: which registers and which parts of the state each of the model's
operations changes, and what the events of R14 to R25 and R89 to R91 leave. -/

/-! ## Power-on (R14, R15, R25) -/

theorem reset_rfld (r : RegName) (lo n : Nat) : State.reset.rfld r lo n = fld r.resetVal lo n := rfl

theorem resetVal_ctrpol (n : Nat) : (RegName.ctrpol n).resetVal = (RegName.ctrpol 0).resetVal := rfl

theorem resetVal_psched (n : Nat) : (RegName.psched n).resetVal = (RegName.psched 0).resetVal := rfl

/-- Settles O51. -/
theorem resetState : Obligations.ResetState := by
  unfold Obligations.ResetState
  refine ⟨by decide, by decide, rfl, rfl, rfl, fun _ => rfl, fun n _ => ?_, by decide, by decide, fun n _ => ?_, rfl, rfl, rfl, rfl, rfl, rfl, rfl, rfl⟩
  · rw [reset_rfld, reset_rfld, resetVal_ctrpol]
    decide
  · rw [reset_rfld, resetVal_psched]
    decide

/-! ## What a change leaves of the registers -/

theorem regsBut_of_regs {s t : State} (h : t.regs = s.regs) (rs : List RegName) : RegsBut s t rs := fun r _ => by
  unfold State.reg
  rw [h]

theorem regsBut_trans {s t u : State} {rs : List RegName} (h : RegsBut s t rs) (h' : RegsBut t u rs) : RegsBut s u rs :=
  fun r hr => (h' r hr).trans (h r hr)

theorem regsBut_mono {s t : State} {rs rs' : List RegName} (h : RegsBut s t rs) (hs : ∀ r ∈ rs, r ∈ rs') : RegsBut s t rs' :=
  fun r hr => h r fun q hq => hr q (hs q hq)

theorem regsBut_setReg (s : State) {r : RegName} (v : W64) {rs : List RegName} (h : r ∈ rs) : RegsBut s (s.setReg r v) rs :=
  fun q hq => reg_setReg_other s r q v (hq r h)

theorem regsBut_setRfld (s : State) {r : RegName} (lo n v : Nat) {rs : List RegName} (h : r ∈ rs) : RegsBut s (s.setRfld r lo n v) rs :=
  regsBut_setReg s _ h

/-- A loop whose every round leaves the other registers alone leaves them alone. -/
theorem regsBut_foldl {α : Type} {rs : List RegName} (f : State → α → State) (xs : List α) (h : ∀ t, ∀ x ∈ xs, RegsBut t (f t x) rs) (s : State) :
    RegsBut s (xs.foldl f s) rs := by
  induction xs generalizing s with
  | nil => exact regsBut_of_regs rfl rs
  | cons x xs ih => exact regsBut_trans (h s x (by simp)) (ih (fun t y hy => h t y (by simp [hy])) (f s x))

theorem rfld_of_regsBut {s t : State} {rs : List RegName} (h : RegsBut s t rs) {r : RegName} (hr : ∀ q ∈ rs, r.addr ≠ q.addr) (lo n : Nat) :
    t.rfld r lo n = s.rfld r lo n := by
  unfold State.rfld
  rw [h r hr]

/-- A part of the state that every round of a loop leaves alone stands after the loop. -/
theorem foldl_keeps {α σ β : Type} (P : σ → β) {f : σ → α → σ} (h : ∀ t x, P (f t x) = P t) (xs : List α) (s : σ) : P (xs.foldl f s) = P s := by
  induction xs generalizing s with
  | nil => rfl
  | cons x xs ih => exact (ih (f s x)).trans (h s x)

theorem rfld_lt (s : State) (r : RegName) (lo n : Nat) : s.rfld r lo n < 2 ^ n := Nat.mod_lt _ (by positivity)

/-! ## Bring-up states (R15) -/

@[simp] theorem bring_enterBoot (s : State) {st : Nat} (h : st < 8) : (s.enterBoot st).bring = st :=
  (rfld_setRfld_self s .bstat st (by decide)).trans (Nat.mod_eq_of_lt h)

@[simp] theorem host_enterBoot (s : State) (st : Nat) : (s.enterBoot st).host = s.host := State.setRfld_host s _ _ _ _

/-- Beside the state's number, nothing of `BSTAT` changes as a state is entered. -/
theorem rfld_bstat_enterBoot (s : State) (st lo n : Nat) (h : 3 ≤ lo) : (s.enterBoot st).rfld .bstat lo n = s.rfld .bstat lo n :=
  rfld_setRfld_other s .bstat st (by decide) (.inr h)

theorem regsBut_enterBoot (s : State) (st : Nat) : RegsBut s (s.enterBoot st) [.bstat] := regsBut_setRfld s 0 3 st (by simp)

/-- The registers that bring-up shows a failure in, or a link's training. -/
def statusRegs : List RegName := .bstat :: (List.range 16).map .lstat

/-- The registers of the links stand above those of the package and the host port. -/
theorem addr_ne_lstat {r : RegName} (h : r.addr < 0x140100) : ∀ q ∈ (List.range 16).map RegName.lstat, r.addr ≠ q.addr := by
  intro q hq
  obtain ⟨l, _, rfl⟩ := List.mem_map.mp hq
  exact Nat.ne_of_lt (Nat.lt_add_right _ h)

theorem addr_ne_statusRegs {r : RegName} (h : r.addr < 0x140100) (hb : r.addr ≠ RegName.bstat.addr) : ∀ q ∈ statusRegs, r.addr ≠ q.addr := by
  intro q hq
  obtain rfl | hq := List.mem_cons.mp hq
  · exact hb
  · exact addr_ne_lstat h q hq


/-- The links that were still training are down. -/
def linksDown (s : State) : State := (List.range 16).foldl (fun s l => if s.rfld (.lstat l) 9 3 = 1 then s.setRfld (.lstat l) 9 3 0 else s) s

/-- The first failure is shown in `BSTAT`. -/
def withFailure (s : State) (code unit : Nat) : State :=
  if s.rfld .bstat 8 8 = 0 then (s.setRfld .bstat 8 8 code).setRfld .bstat 16 8 unit else s

theorem toYellow_eq (s : State) (code unit : Nat) : s.toYellow code unit = (withFailure (linksDown s) code unit).enterBoot 5 := rfl

theorem regsBut_linksDown (s : State) : RegsBut s (linksDown s) ((List.range 16).map .lstat) :=
  regsBut_foldl _ _ (fun t l hl => by
    split
    · exact regsBut_setRfld t _ _ _ (List.mem_map_of_mem hl)
    · exact regsBut_of_regs rfl _) s

theorem rfld_bstat_linksDown (s : State) (lo n : Nat) : (linksDown s).rfld .bstat lo n = s.rfld .bstat lo n :=
  rfld_of_regsBut (regsBut_linksDown s) (fun q hq => addr_ne_lstat (by decide) q hq) lo n

theorem regsBut_withFailure (s : State) (code unit : Nat) : RegsBut s (withFailure s code unit) [.bstat] := by
  unfold withFailure
  split
  · exact regsBut_trans (regsBut_setRfld s _ _ _ (by simp)) (regsBut_setRfld _ _ _ _ (by simp))
  · exact regsBut_of_regs rfl _

@[simp] theorem bring_toYellow (s : State) (code unit : Nat) : (s.toYellow code unit).bring = 5 := bring_enterBoot _ (by decide)

theorem regsBut_toYellow (s : State) (code unit : Nat) : RegsBut s (s.toYellow code unit) statusRegs :=
  regsBut_trans (regsBut_mono (regsBut_linksDown s) (by simp [statusRegs])) <|
    regsBut_trans (regsBut_mono (regsBut_withFailure _ code unit) (by simp [statusRegs]))
      (regsBut_mono (regsBut_enterBoot _ 5) (by simp [statusRegs]))

/-- A failure that no other came before is the one shown. -/
theorem failcode_toYellow {s : State} (h : s.rfld .bstat 8 8 = 0) {code : Nat} (hc : code < 256) (unit : Nat) :
    (s.toYellow code unit).rfld .bstat 8 8 = code := by
  have h0 : (linksDown s).rfld .bstat 8 8 = 0 := (rfld_bstat_linksDown s 8 8).trans h
  rw [toYellow_eq, rfld_bstat_enterBoot _ 5 8 8 (by decide), withFailure, if_pos h0, rfld_setRfld_other _ _ _ (by decide) (by decide),
    rfld_setRfld_self _ _ _ (by decide)]
  exact Nat.mod_eq_of_lt hc

/-- The links of a device that enters TEST train. -/
def linksTrain (s : State) : State := (List.range 16).foldl (fun s l => (s.setRfld (.lstat l) 0 1 0).setRfld (.lstat l) 9 3 1) s

theorem enterTest_eq (s : State) : s.enterTest = (linksTrain s).enterBoot 2 := rfl

theorem regsBut_linksTrain (s : State) : RegsBut s (linksTrain s) ((List.range 16).map .lstat) :=
  regsBut_foldl _ _ (fun t _ hl => regsBut_trans (regsBut_setRfld t _ _ _ (List.mem_map_of_mem hl))
    (regsBut_setRfld _ _ _ _ (List.mem_map_of_mem hl))) s

@[simp] theorem bring_enterTest (s : State) : s.enterTest.bring = 2 := bring_enterBoot _ (by decide)

theorem regsBut_enterTest (s : State) : RegsBut s s.enterTest statusRegs :=
  regsBut_trans (regsBut_mono (regsBut_linksTrain s) (by simp [statusRegs])) (regsBut_mono (regsBut_enterBoot _ 2) (by simp [statusRegs]))

theorem rfld_bstat_enterTest (s : State) (lo n : Nat) (h : 3 ≤ lo) : s.enterTest.rfld .bstat lo n = s.rfld .bstat lo n :=
  (rfld_bstat_enterBoot _ 2 lo n h).trans
    (rfld_of_regsBut (regsBut_linksTrain s) (fun q hq => addr_ne_lstat (by decide) q hq) lo n)

@[simp] theorem host_enterTest (s : State) : s.enterTest.host = s.host := by
  rw [enterTest_eq, host_enterBoot]
  exact foldl_keeps State.host (fun t l => by simp) _ s

/-! ## A reset (R15) -/

/-- A map that keeps only some keys holds at a key what it held, or nothing. -/
theorem find_filter {α : Type} (p : Nat → Bool) (m : SMap α) (k : Nat) :
    SMap.find (m.filter fun e => p e.1) k = if p k then SMap.find m k else none := by
  induction m with
  | nil => simp [SMap.find]
  | cons e m ih =>
    obtain ⟨j, v⟩ := e
    by_cases hj : k = j
    · subst hj
      cases hp : p k <;> simp_all [SMap.find]
    · cases hp : p j <;> simp [hp, SMap.find, hj, ih]

/-- The addresses whose registers a reset keeps: the last management sequence, and but for a power-on the meters. -/
def keptOver (powerOn : Bool) (a : Nat) : Bool := a == RegName.addr .mseqlast || (!powerOn && decide (0x80000 ≤ a ∧ a < 0xC0000))

/-- The device after a reset, before the count of retests is put back. -/
def cleared (s : State) (powerOn : Bool) : State :=
  { regs := s.regs.filter fun e => keptOver powerOn e.1, turns := s.turns, stamp := s.stamp, free := s.free
    host := { cak := s.host.cak, out := s.host.out } }

theorem restart_eq (s : State) (powerOn : Bool) :
    s.restart powerOn = if powerOn then cleared s powerOn else (cleared s powerOn).setRfld .bstat 24 8 (s.rfld .bstat 24 8) := rfl

theorem reg_cleared (s : State) (powerOn : Bool) (r : RegName) :
    (cleared s powerOn).reg r = if keptOver powerOn r.addr then s.reg r else r.resetVal := by
  unfold State.reg cleared
  rw [find_filter]
  split <;> rfl

theorem rfld_bstat_cleared (s : State) (powerOn : Bool) (lo n : Nat) : (cleared s powerOn).rfld .bstat lo n = 0 := by
  have h0 : RegName.bstat.resetVal = 0 := rfl
  unfold State.rfld
  rw [reg_cleared, if_neg (by cases powerOn <;> decide), h0]
  simp [fld]

@[simp] theorem bring_restart (s : State) (powerOn : Bool) : (s.restart powerOn).bring = 0 := by
  rw [restart_eq]
  cases powerOn with
  | true => exact rfld_bstat_cleared s true 0 3
  | false =>
    rw [if_neg (by decide), State.bring, rfld_setRfld_other _ .bstat _ (by decide) (by decide)]
    exact rfld_bstat_cleared s false 0 3

/-- `RETRIES` goes at power-on alone. -/
theorem retries_restart (s : State) (powerOn : Bool) :
    (s.restart powerOn).rfld .bstat 24 8 = if powerOn then 0 else s.rfld .bstat 24 8 := by
  rw [restart_eq]
  cases powerOn with
  | true => exact rfld_bstat_cleared s true 24 8
  | false =>
    rw [if_neg (by decide), if_neg (by decide), rfld_setRfld_self _ .bstat _ (by decide)]
    exact Nat.mod_eq_of_lt (rfld_lt s .bstat 24 8)

theorem reg_restart_kept (s : State) {powerOn : Bool} {r : RegName} (hk : keptOver powerOn r.addr = true) (hb : r.addr ≠ RegName.bstat.addr) :
    (s.restart powerOn).reg r = s.reg r := by
  have h : (cleared s powerOn).reg r = s.reg r := by rw [reg_cleared, if_pos hk]
  rw [restart_eq]
  split
  · exact h
  · exact (reg_setRfld_other _ .bstat r _ _ _ hb).trans h

@[simp] theorem cores_restart (s : State) (powerOn : Bool) : (s.restart powerOn).cores = [] := by
  rw [restart_eq]
  split <;> simp [cleared]

@[simp] theorem cells_restart (s : State) (powerOn : Bool) : (s.restart powerOn).msys.cells = [] := by
  rw [restart_eq]
  split <;> simp [cleared]

/-! ## Measurement (R19) -/

/-- The chain stands over the digests, and `MEAS` does not show it yet. -/
def chained (s : State) (ds : List FwDigest) : State := { s with boot := { s.boot with digests := ds, chain := chainOf ds } }

theorem measure_eq (s : State) (ds : List FwDigest) :
    s.measure ds = (List.range 8).foldl (fun s i => s.setReg (.meas i) ((chainOf ds).extractLsb' (64 * i) 64)) (chained s ds) := rfl

theorem regsBut_measure (s : State) (ds : List FwDigest) : RegsBut s (s.measure ds) ((List.range 8).map .meas) := by
  have h : RegsBut s (chained s ds) ((List.range 8).map .meas) := regsBut_of_regs rfl _
  rw [measure_eq]
  exact regsBut_trans h (regsBut_foldl _ _ (fun t _ hi => regsBut_setReg t _ (List.mem_map_of_mem hi)) _)

@[simp] theorem boot_measure (s : State) (ds : List FwDigest) : (s.measure ds).boot = { s.boot with digests := ds, chain := chainOf ds } := by
  rw [measure_eq]
  exact foldl_keeps State.boot (fun t i => by simp) _ _

theorem regsBut_measureAll (is : List FwImage) (s : State) : RegsBut s (s.measureAll is).1 ((List.range 8).map .meas) := by
  induction is generalizing s with
  | nil => exact regsBut_of_regs rfl _
  | cons i is ih =>
    rw [State.measureAll]
    split
    · exact regsBut_trans (regsBut_measure s _) (ih _)
    · exact regsBut_of_regs rfl _

theorem measureAll_of_ok {is : List FwImage} (h : ∀ i ∈ is, imageOk i = true) (s : State) :
    (s.measureAll is).2 = true ∧ (s.measureAll is).1.boot.digests = s.boot.digests ++ is.map digestOf := by
  induction is generalizing s with
  | nil => simp [State.measureAll]
  | cons i is ih =>
    rw [State.measureAll, if_pos (h i (by simp))]
    obtain ⟨hv, hd⟩ := ih (fun j hj => h j (by simp [hj])) (s.measure (s.boot.digests ++ [digestOf i]))
    exact ⟨hv, by rw [hd]; simp⟩

theorem measureAll_of_bad {is : List FwImage} (h : ∃ i ∈ is, imageOk i = false) (s : State) : (s.measureAll is).2 = false := by
  induction is generalizing s with
  | nil => simp at h
  | cons i is ih =>
    rw [State.measureAll]
    cases hi : imageOk i with
    | false => rfl
    | true =>
      rw [if_pos rfl]
      exact ih (by simpa [hi] using h) _

/-! ## Self-test (R16) -/

/-- A failure that has sent the device to YELLOW stands. -/
theorem resolveFailure_keeps {x : TestState} (h : x.2.isSome = true) (f : TestFailure) : (resolveFailure x f).2.isSome = true := by
  cases f with
  | cluster n => simp only [resolveFailure]; split <;> simp [TestState.fail, h]
  | slice n => simp only [resolveFailure]; split <;> simp [TestState.fail, h]
  | lodraLane l k => exact h
  | hbmChannel c => rfl
  | otherSram => rfl

theorem foldl_resolveFailure_keeps (fs : List TestFailure) {x : TestState} (h : x.2.isSome = true) :
    (fs.foldl resolveFailure x).2.isSome = true := by
  induction fs generalizing x with
  | nil => exact h
  | cons f fs ih => exact ih (resolveFailure_keeps h f)

/-- A failed channel or other SRAM ends bring-up. -/
theorem foldl_resolveFailure_of_fatal {fs : List TestFailure} (h : ∃ f ∈ fs, f = .otherSram ∨ ∃ c, f = .hbmChannel c) (x : TestState) :
    (fs.foldl resolveFailure x).2.isSome = true := by
  obtain ⟨f, hf, hk⟩ := h
  obtain ⟨as, bs, rfl⟩ := List.append_of_mem hf
  rw [List.foldl_append, List.foldl_cons]
  refine foldl_resolveFailure_keeps bs ?_
  obtain rfl | ⟨c, rfl⟩ := hk <;> rfl

/-- Failed link lanes do not. -/
theorem foldl_resolveFailure_of_lanes {fs : List TestFailure} (h : ∀ f ∈ fs, ∃ l k, f = .lodraLane l k) (x : TestState) :
    (fs.foldl resolveFailure x).2 = x.2 := by
  induction fs generalizing x with
  | nil => rfl
  | cons f fs ih =>
    obtain ⟨l, k, rfl⟩ := h f (by simp)
    exact ih (fun g hg => h g (by simp [hg])) _

/-! ## The events of bring-up (R14 to R16, R19) -/

theorem leaves_powerOnReset (s : State) (on : Bool) : Leaves s (.powerOnReset on) fun t =>
    t.bring = 0 ∧ t.cores = [] ∧ t.msys.cells = [] ∧ t.reg .mseqlast = s.reg .mseqlast ∧ t.rfld .bstat 24 8 = if on then 0 else s.rfld .bstat 24 8 :=
  ⟨s.restart on, rfl, bring_restart s on, cores_restart s on, cells_restart s on,
    reg_restart_kept s (by cases on <;> decide) (by decide), retries_restart s on⟩

theorem leaves_regulatorsStarted {s : State} (h : s.bring = 0) : Leaves s .regulatorsStarted fun t =>
    t.bring = 1 ∧ t.now = 0 ∧ t.rfld .vdstat 0 8 = 255 := by
  refine ⟨_, if_neg (not_not.mpr h), bring_enterBoot _ (by decide), by simp [State.enterBoot], ?_⟩
  rw [rfld_of_regsBut (regsBut_enterBoot _ 1) (by decide)]
  exact rfld_setRfld_self _ .vdstat _ (by decide)

theorem leaves_regulatorFault (s : State) {d : Nat} (hd : d < 8) : Leaves s (.regulatorFault d) fun t =>
    t.rfld .vdstat d 1 = 0 ∧ t.rfld .vdstat (8 + d) 1 = 1 ∧ t.bring = if s.bring = 0 then 5 else s.bring := by
  let u := (s.setRfld .vdstat d 1 0).setRfld .vdstat (8 + d) 1 1
  have hlow : u.rfld .vdstat d 1 = 0 :=
    (rfld_setRfld_other _ .vdstat 1 (by omega) (.inl (by omega))).trans (rfld_setRfld_self s .vdstat 0 (by omega))
  have hhigh : u.rfld .vdstat (8 + d) 1 = 1 := rfld_setRfld_self _ .vdstat 1 (by omega)
  have hb : u.bring = s.bring :=
    (rfld_setRfld_reg _ .vdstat .bstat 1 (by decide)).trans (rfld_setRfld_reg s .vdstat .bstat 0 (by decide))
  have he : exec (.regulatorFault d) s = .next (if u.bring = 0 then u.toYellow 1 d else u) := if_neg (Nat.not_le.mpr hd)
  refine ⟨_, he, ?_⟩
  rw [hb]
  split
  · have hv := rfld_of_regsBut (regsBut_toYellow u 1 d) (r := .vdstat) (addr_ne_statusRegs (by decide) (by decide))
    exact ⟨(hv d 1).trans hlow, (hv (8 + d) 1).trans hhigh, bring_toYellow u 1 d⟩
  · exact ⟨hlow, hhigh, hb⟩

theorem leaves_voltageBackInRegulation (s : State) {d : Nat} (hd : d < 8) : Leaves s (.voltageBackInRegulation d) fun t =>
    t.rfld .vdstat d 1 = 1 ∧ RegsBut s t [.vdstat] :=
  ⟨s.setRfld .vdstat d 1 1, if_neg (Nat.not_le.mpr hd), rfld_setRfld_self s .vdstat 1 (by omega), regsBut_setRfld s d 1 1 (by simp)⟩

theorem lanesTrain_of_time {s : State} (h : s.bring = 1) : s.lanesTrain = true := by
  have hb : s.bstate = 1 := h
  simp [State.lanesTrain, hb]

theorem leaves_hostPortLanesTrained {s : State} (h : s.bring = 1) : Leaves s .hostPortLanesTrained fun t =>
    t.bring = 2 ∧ t.rfld .hpstat 0 4 = 15 := by
  refine ⟨_, if_neg (by simp [lanesTrain_of_time h]), bring_enterTest _, ?_⟩
  rw [rfld_of_regsBut (regsBut_enterTest _) (addr_ne_statusRegs (by decide) (by decide))]
  exact rfld_setRfld_self _ .hpstat 15 (by decide)

/-- The first number that a list of the first four skips. -/
theorem find?_range_four {p : Nat → Bool} {j : Nat} (hj : j < 4) (hp : p j = true) (hf : ∀ i, i < j → p i = false) :
    (List.range 4).find? p = some j :=
  List.find?_range_eq_some.mpr ⟨hp, List.mem_range.mpr hj, fun i hi => by simp [hf i hi]⟩

theorem leaves_hostLaneTrainingFailure {s : State} (h : s.bring = 1) {lanes : List Nat} {k j : Nat} (hk : k < 4) (hkl : k ∈ lanes) (hj : j < 4)
    (hjl : j ∉ lanes) (hf : ∀ i, i < j → i ∈ lanes) : Leaves s (.hostLaneTrainingFailure lanes) fun t =>
    t.bring = 5 ∧ t.rfld .hpstat 0 4 = 2 ^ j ∧ (s.rfld .bstat 8 8 = 0 → t.rfld .bstat 8 8 = 5) := by
  let bad := (List.range 4).filter fun k => lanes.contains k
  let u : State := ({ s with boot := { s.boot with failedLanes := bad, retraining := false } } : State).setRfld .hpstat 0 4 (2 ^ j)
  have hup : (List.range 4).find? (fun k => !bad.contains k) = some j :=
    find?_range_four hj (by simp [bad, hjl]) fun i hi => by simp [bad, hf i hi, hi.trans hj]
  obtain ⟨x, xs, hbad⟩ : ∃ x xs, bad = x :: xs := List.exists_cons_of_ne_nil (List.ne_nil_of_mem (a := k) (by simp [bad, hk, hkl]))
  have he : exec (.hostLaneTrainingFailure lanes) s = .next (u.toYellow 5 x) := by
    show execHostLaneTrainingFailure lanes s = _
    have hbad' : (List.range 4).filter (fun k => lanes.contains k) = x :: xs := hbad
    simp only [execHostLaneTrainingFailure, hbad', lanesTrain_of_time h]
    rw [← hbad, hup]
    rfl
  have hpow : 2 ^ j % 2 ^ 4 = 2 ^ j := Nat.mod_eq_of_lt (Nat.pow_lt_pow_right (by decide) hj)
  refine ⟨_, he, bring_toYellow u 5 x, ?_, fun h0 => failcode_toYellow ?_ (by decide) x⟩
  · rw [rfld_of_regsBut (regsBut_toYellow u 5 x) (addr_ne_statusRegs (by decide) (by decide)), ← hpow]
    exact rfld_setRfld_self _ .hpstat _ (by decide)
  · exact (rfld_setRfld_reg _ .hpstat .bstat _ (by decide)).trans h0

theorem leaves_ieee1588Lock {s : State} (h : s.bring ≠ 0) (time : BitVec 64) : Leaves s (.ieee1588Lock time) fun t =>
    t.rfld .bstat 3 1 = 1 ∧ t.now = if s.boot.locked then s.now else time.toNat := by
  refine ⟨_, if_neg h, rfld_setRfld_self _ .bstat 1 (by decide), ?_⟩
  rw [State.setRfld_now]
  split <;> rfl

theorem leaves_ieee1588LockLoss (s : State) : Leaves s .ieee1588LockLoss fun t =>
    t.rfld .bstat 3 1 = 0 ∧ t.now = s.now ∧ t.boot.ppm = 0 :=
  ⟨_, rfl, rfld_setRfld_self _ .bstat 0 (by decide), by simp, by simp⟩

theorem leaves_selfTestComplete {s : State} (h : s.bring = 2) (fs : List TestFailure) : Leaves s (.selfTestComplete fs) fun t =>
    ((∀ f ∈ fs, ∃ l k, f = .lodraLane l k) → t.bring = 3) ∧ ((∃ f ∈ fs, f = .otherSram ∨ ∃ c, f = .hbmChannel c) → t.bring = 5) := by
  let u := (List.range 16).foldl (fun s l => s.trainLink fs l) { s with boot := { s.boot with outOfService := [] } }
  have hl := fun hk => foldl_resolveFailure_of_lanes (fs := fs) hk (u, none)
  have hf := fun hk => foldl_resolveFailure_of_fatal (fs := fs) hk (u, none)
  have he : exec (.selfTestComplete fs) s = match fs.foldl resolveFailure (u, none) with
      | (s, none) => .next (s.enterBoot 3)
      | (s, some (code, unit)) => .next (s.toYellow code unit) := if_neg (not_not.mpr h)
  generalize fs.foldl resolveFailure (u, none) = r at he hl hf
  obtain ⟨t, _ | ⟨code, unit⟩⟩ := r
  · exact ⟨_, he, fun _ => bring_enterBoot t (by decide), fun hk => absurd (hf hk) (by simp)⟩
  · exact ⟨_, he, fun hk => absurd (hl hk) (by simp), fun _ => bring_toYellow t code unit⟩

theorem leaves_firmwareMeasurement {s : State} (h : s.bring = 3) (images : List FwImage) : Leaves s (.firmwareMeasurement images) fun t =>
    ((∀ i ∈ loadOrder images, imageOk i = true) → t.bring = 4 ∧ t.boot.digests = (loadOrder images).map digestOf) ∧
      ((∃ i ∈ loadOrder images, imageOk i = false) → t.bring = 5 ∧ (s.rfld .bstat 8 8 = 0 → t.rfld .bstat 8 8 = 6)) := by
  have hok := fun hk => measureAll_of_ok (is := loadOrder images) hk (s.measure [])
  have hbad := fun hk => measureAll_of_bad (is := loadOrder images) hk (s.measure [])
  have hr := regsBut_trans (regsBut_measure s []) (regsBut_measureAll (loadOrder images) (s.measure []))
  have he : exec (.firmwareMeasurement images) s = match (s.measure []).measureAll (loadOrder images) with
      | (s, true) => .next (({ s with boot := { s.boot with locked := true } } : State).enterBoot 4)
      | (s, false) => .next (s.toYellow 6 0) := if_neg (not_not.mpr h)
  generalize (s.measure []).measureAll (loadOrder images) = r at he hok hbad hr
  obtain ⟨t, _ | _⟩ := r
  · refine ⟨_, he, fun hk => absurd (hok hk).1 (by simp), fun _ => ⟨bring_toYellow t 6 0, fun h0 => failcode_toYellow ?_ (by decide) 0⟩⟩
    exact (rfld_of_regsBut hr (by decide) 8 8).trans h0
  · refine ⟨_, he, fun hk => ⟨bring_enterBoot _ (by decide), ?_⟩, fun hk => absurd (hbad hk) (by simp)⟩
    simpa [State.enterBoot] using (hok hk).2

theorem leaves_bringupStateTimeout {s : State} {limit : Nat} (h : (s.bring, limit) ∈ [(0, 5000000), (1, 2000000000), (2, 1500000000), (3, 300000000)])
    (hl : s.boot.entered + limit < s.now) : Leaves s .bringupStateTimeout fun t =>
    t.bring = 5 ∧ (s.rfld .bstat 8 8 = 0 → t.rfld .bstat 8 8 = 2) := by
  have hlim : bootLimit s.bstate = some limit := by
    show bootLimit s.bring = some limit
    simp only [List.mem_cons, Prod.mk.injEq, List.not_mem_nil, or_false] at h
    obtain ⟨hb, rfl⟩ | ⟨hb, rfl⟩ | ⟨hb, rfl⟩ | ⟨hb, rfl⟩ := h <;> rw [hb] <;> rfl
  have he : exec .bringupStateTimeout s = .next (s.toYellow 2 0) := by
    show execBringupStateTimeout s = _
    rw [execBringupStateTimeout, hlim]
    exact if_neg (Nat.not_le.mpr hl)
  exact ⟨_, he, bring_toYellow s 2 0, fun h0 => failcode_toYellow h0 (by decide) 0⟩

theorem leaves_voltageSettled {s : State} {q k : Nat} (h : s.boot.rise.find q = some k) : Leaves s (.voltageSettled q) fun t =>
    t.boot.volt.get 0 q = min (s.boot.volt.get 0 q) (max k ((s.neededVolt q).getD k)) ∧ t.boot.rise.find q = none ∧ t = { s with boot := t.boot } := by
  let v := min (s.boot.volt.get 0 q) (max k ((s.neededVolt q).getD k))
  have he : exec (.voltageSettled q) s =
      .next { s with boot := { s.boot with volt := SMap.set 0 s.boot.volt q v, rise := s.boot.rise.erase q } } := by
    show execVoltageSettled q s = _
    rw [execVoltageSettled, h]
  exact ⟨_, he, by rw [SMap.get_set, if_pos rfl], by rw [SMap.find_erase, if_pos rfl], rfl⟩

/-- Settles O32: each clause is what its event leaves. -/
theorem bringUp : Obligations.BringUp := by
  unfold Obligations.BringUp
  exact fun s => ⟨leaves_powerOnReset s, leaves_regulatorsStarted, fun _ => leaves_regulatorFault s, fun _ => leaves_voltageBackInRegulation s,
    leaves_hostPortLanesTrained, fun h _ _ _ hk hkl hj => leaves_hostLaneTrainingFailure h hk hkl hj, leaves_ieee1588Lock, leaves_ieee1588LockLoss s,
    leaves_selfTestComplete, leaves_firmwareMeasurement, fun _ => leaves_bringupStateTimeout, fun _ _ => leaves_voltageSettled⟩

/-! ## What goes out at the host port (R21, R79) -/

/-- Sending changes the host port and the counts of the device, and nothing else. -/
theorem emitOut_frame (s : State) (o : Out) : s.emitOut o = { s with host := (s.emitOut o).host, mon := (s.emitOut o).mon } := by
  unfold State.emitOut
  split <;> rfl

@[simp] theorem emitOut_regs (s : State) (o : Out) : (s.emitOut o).regs = s.regs := by rw [emitOut_frame]
@[simp] theorem emitOut_boot (s : State) (o : Out) : (s.emitOut o).boot = s.boot := by rw [emitOut_frame]
@[simp] theorem emitOut_now (s : State) (o : Out) : (s.emitOut o).now = s.now := by rw [emitOut_frame]

@[simp] theorem emitOut_pauseUntil (s : State) (o : Out) : (s.emitOut o).host.pauseUntil = s.host.pauseUntil := by
  unfold State.emitOut
  split <;> rfl

@[simp] theorem emitOut_qps (s : State) (o : Out) : (s.emitOut o).host.qps = s.host.qps := by
  unfold State.emitOut
  split <;> rfl

theorem sent_emitOut (s : State) (o : Out) : Sent s (s.emitOut o) o := by
  unfold State.emitOut
  split
  · exact .inr ⟨rfl, rfl⟩
  · exact .inl ⟨rfl, rfl⟩

/-- While transmission is not held, what is sent leaves at once. -/
theorem emitOut_open {s : State} (hp : s.host.pauseUntil ≤ s.now) (hl : s.boot.hostLane = none) (o : Out) :
    (s.emitOut o).host.out = s.host.out ++ [o] ∧ (s.emitOut o).host.waiting = s.host.waiting := by
  rw [State.emitOut, if_neg (by simp [hl, hp])]
  exact ⟨rfl, rfl⟩

theorem foldl_emitOut_open (os : List Out) {s : State} (hp : s.host.pauseUntil ≤ s.now) (hl : s.boot.hostLane = none) :
    (os.foldl State.emitOut s).host.out = s.host.out ++ os ∧ (os.foldl State.emitOut s).host.waiting = s.host.waiting := by
  induction os generalizing s with
  | nil => simp
  | cons o os ih =>
    obtain ⟨ho, hw⟩ := emitOut_open hp hl o
    obtain ⟨io, iw⟩ := ih (s := s.emitOut o) (by simpa using hp) (by simpa using hl)
    exact ⟨by rw [List.foldl_cons, io, ho]; simp, by rw [List.foldl_cons, iw, hw]⟩

@[simp] theorem flushOut_boot (s : State) : s.flushOut.boot = s.boot := by
  unfold State.flushOut
  split
  · rfl
  · exact foldl_keeps State.boot emitOut_boot _ _

/-- While transmission is not held, all that waited leaves in order. -/
theorem flushOut_open {s : State} (hp : s.host.pauseUntil ≤ s.now) (hl : s.boot.hostLane = none) :
    s.flushOut.host.out = s.host.out ++ s.host.waiting ∧ s.flushOut.host.waiting = [] := by
  rw [State.flushOut, if_neg (by simp [hl, hp])]
  exact foldl_emitOut_open s.host.waiting (s := { s with host := { s.host with waiting := [] } }) hp hl

/-! ## Maintenance (R17, R21, R23, R24) -/

@[simp] theorem requestStop_boot (s : State) (ts : List Nat) (kind : Nat) (due cluster : Option Nat) :
    (s.requestStop ts kind due cluster).boot = s.boot := by
  have hfold : ∀ f : Team → Team, (ts.foldl (fun s t => s.updTeam t f) s).boot = s.boot :=
    fun f => foldl_keeps State.boot (fun t n => by simp) ts s
  unfold State.requestStop
  cases due <;> dsimp only <;> split <;> simp [hfold]

@[simp] theorem askStop_boot (s : State) (part : Nat) (on : Team → Bool) : (s.askStop part on).boot = s.boot := by
  unfold State.askStop
  dsimp only
  split
  · rfl
  · exact requestStop_boot _ _ _ _ _

@[simp] theorem drainCluster_boot (s : State) (cluster : Nat) : (s.drainCluster cluster).boot = s.boot := by
  unfold State.drainCluster
  split
  · exact askStop_boot _ _ _
  · rfl

theorem leaves_partitionFirmwareUpdate {s : State} {part : Nat} {image : FwImage} (hb : s.bring = 4) (hv : s.partValid part = true)
    (hs : image.stage = 2) (hp : image.part = part) (hi : imageOk image = true) : Leaves s (.partitionFirmwareUpdate part image) fun t =>
    (s.boot.updating = none → t.boot.updating = some part ∧ t.boot.digests = replaceDigest s.boot.digests (digestOf image)) ∧
      (s.boot.updating ≠ none → t = { s with boot := { s.boot with updates := s.boot.updates ++ [(part, image)] } }) := by
  have hg : ¬ (s.bstate ≠ 4 ∨ (!s.partValid part) = true ∨ image.stage ≠ 2 ∨ image.part ≠ part ∨ (!imageOk image) = true) := by
    have hb' : s.bstate = 4 := hb
    simp [hb', hv, hs, hp, hi]
  cases hu : s.boot.updating with
  | none => exact ⟨_, (if_neg hg).trans (if_neg (by simp [hu])), fun _ => by simp, fun h => absurd rfl h⟩
  | some p => exact ⟨_, (if_neg hg).trans (if_pos (by simp [hu])), fun h => by simp at h, fun _ => rfl⟩

theorem link_updLink (s : State) (n : Nat) (f : Link → Link) : (s.updLink n f).link n = f (s.link n) := SMap.get_put_self _ _ _ _

/-- A lane of a link leaves it, or comes back, and the link is in status `st`. -/
theorem laneChanged (s : State) (n : Nat) {k st b : Nat} (f : Link → Link) (hk : k < 8) (hst : st < 8) (hb : b < 2) :
    let t := ((s.setRfld (.lstat n) 9 3 st).setRfld (.lstat n) (1 + k) 1 b).updLink n f
    t.rfld (.lstat n) 9 3 = st ∧ t.rfld (.lstat n) (1 + k) 1 = b ∧ t.link n = f (s.link n) ∧ RegsBut s t [.lstat n] := by
  refine ⟨?_, ?_, ?_, ?_⟩
  · refine (rfld_setRfld_other _ (.lstat n) b (by omega) (.inr (by omega))).trans ?_
    exact (rfld_setRfld_self s (.lstat n) st (by decide)).trans (Nat.mod_eq_of_lt hst)
  · exact (rfld_setRfld_self _ (.lstat n) b (by omega)).trans (Nat.mod_eq_of_lt hb)
  · rw [link_updLink]
    simp [State.link]
  · exact regsBut_trans (regsBut_setRfld s 9 3 st (by simp)) (regsBut_setRfld _ (1 + k) 1 b (by simp))

theorem leaves_lodraLaneRecalibration {s : State} {n k : Nat} (hn : n < 16) (hk : k < 8) (h : s.rfld (.lstat n) 9 3 = 2) :
    Leaves s (.lodraLaneRecalibration n k) fun t =>
      t.rfld (.lstat n) 9 3 = 5 ∧ t.rfld (.lstat n) (1 + k) 1 = 0 ∧ (t.link n).recal = some k ∧ RegsBut s t [.lstat n] := by
  obtain ⟨hst, hlane, hlink, hregs⟩ := laneChanged s n (st := 5) (b := 0) (fun l => { l with recal := some k }) hk (by decide) (by decide)
  exact ⟨_, if_neg (by omega), hst, hlane, by rw [hlink], hregs⟩

theorem leaves_lodraLaneRecalibrationComplete {s : State} {n k : Nat} (hk : k < 8) (h : s.rfld (.lstat n) 9 3 = 5)
    (hr : (s.link n).recal = some k) : Leaves s (.lodraLaneRecalibrationComplete n k) fun t =>
      t.rfld (.lstat n) 9 3 = 2 ∧ t.rfld (.lstat n) (1 + k) 1 = 1 ∧ (t.link n).recal = none ∧ RegsBut s t [.lstat n] := by
  obtain ⟨hst, hlane, hlink, hregs⟩ := laneChanged s n (st := 2) (b := 1) (fun l => { l with recal := none }) hk (by decide) (by decide)
  exact ⟨_, if_neg (by simp [h, hr]), hst, hlane, by rw [hlink], hregs⟩

theorem leaves_hostPortLaneRecalibrationComplete {s : State} {k d : Nat} (h : s.boot.hostLane = some (k, d)) :
    Leaves s (.hostPortLaneRecalibrationComplete k) fun t => t.boot.hostLane = none ∧
      (s.host.pauseUntil ≤ s.now → t.host.out = s.host.out ++ s.host.waiting ∧ t.host.waiting = []) := by
  let u : State := { s with boot := { s.boot with hostLane := none } }
  exact ⟨u.flushOut, if_pos (by simp [h]), by rw [flushOut_boot], fun hp => flushOut_open (s := u) hp rfl⟩

theorem quadOfPart_lt {sl : Bool} {u : Nat} (h : u < if sl then 64 else 128) : quadOfPart sl u < 4 := by
  cases sl <;> simp [quadOfPart, quadOfUnit, quadOfPair] at h ⊢ <;> omega

theorem freeSpare_lt {s : State} {q k : Nat} {sl : Bool} (h : s.freeSpare q sl = some k) : k < 4 := by
  have hm := List.mem_of_find?_eq_some h
  cases sl <;> simp at hm <;> omega

/-- A unit whose failure finds no free spare is out of service. -/
theorem leaves_spareRemap_none {s : State} (hb : s.bring = 4) (hr : s.boot.remap = none) {sl : Bool} {u : Nat} (hu : u < if sl then 64 else 128)
    (hn : s.freeSpare (quadOfPart sl u) sl = none) : Leaves s (.spareRemap sl u) fun t =>
    (sl, u) ∈ t.boot.outOfService ∧ (sl = true → t = { s with boot := t.boot }) := by
  let v : State := { s with boot := { s.boot with outOfService := s.boot.outOfService.filter (fun x => x != (sl, u)) ++ [(sl, u)] } }
  have hb' : s.bstate = 4 := hb
  have he : exec (.spareRemap sl u) s = .next (if sl then v else v.drainCluster u) := by
    show execSpareRemap sl u s = _
    rw [execSpareRemap, if_neg (by simp [hb', hu]), if_neg (by simp [hr]), if_neg (by simp [hr]), hn]
  refine ⟨_, he, ?_, ?_⟩
  · cases sl <;> simp [v]
  · rintro rfl
    rfl

/-- A free spare takes the number of a slice. -/
theorem leaves_spareRemap_slice {s : State} (hb : s.bring = 4) (hr : s.boot.remap = none) {u k : Nat} (hu : u < 64)
    (hk : s.freeSpare (quadOfPart true u) true = some k) : Leaves s (.spareRemap true u) fun t =>
    t.rfld .spmap (16 * quadOfPart true u + k) 1 = 1 ∧ t.boot.spareUse = s.boot.spareUse ++ [(true, u, k % 2)] := by
  let keys := (s.msys.l2.filter fun (k, _) => channelOf (128 * l2LineOf k) == channelOfSlice u).map Prod.fst
  have hb' : s.bstate = 4 := hb
  have hq := quadOfPart_lt (sl := true) (u := u) (by simpa using hu)
  have hk4 := freeSpare_lt hk
  have he : exec (.spareRemap true u) s = .next ((s.updMem fun m => keys.foldl MemSys.evict m).useSpare true u k) := by
    show execSpareRemap true u s = _
    rw [execSpareRemap, if_neg (by simp [hb', hu]), if_neg (by simp), if_neg (by simp [hr]), hk]
    rfl
  exact ⟨_, he, rfld_setRfld_self _ .spmap 1 (by omega), rfl⟩

/-- Settles O33: each clause is what its event leaves. -/
theorem maintenance : Obligations.Maintenance := by
  unfold Obligations.Maintenance
  refine fun s => ⟨fun _ _ => leaves_partitionFirmwareUpdate, fun ch hch hh => ?_, fun ch d hh => ?_, fun n k hn hk =>
    ⟨leaves_lodraLaneRecalibration hn hk, leaves_lodraLaneRecalibrationComplete hk⟩, fun k hk hh hs => ?_,
    fun _ _ => leaves_hostPortLaneRecalibrationComplete, fun hb hr sl u hu => ⟨leaves_spareRemap_none hb hr hu, ?_⟩⟩
  · exact if_neg (by simp [hh, hch])
  · exact if_pos (by simp [hh])
  · exact if_neg (by simp [hh, hs, hk])
  · rintro k rfl hf
    exact leaves_spareRemap_slice hb hr hu hf

/-! ## Messages and their answers (R89, R90) -/

@[simp] theorem mgmtAnswer_regs (s : State) (m : MgmtMsg) (n : Nat) (d : Bytes) : (s.mgmtAnswer m n d).regs = s.regs := emitOut_regs s _
@[simp] theorem mgmtAnswer_boot (s : State) (m : MgmtMsg) (n : Nat) (d : Bytes) : (s.mgmtAnswer m n d).boot = s.boot := emitOut_boot s _
@[simp] theorem mgmtAnswer_qps (s : State) (m : MgmtMsg) (n : Nat) (d : Bytes) : (s.mgmtAnswer m n d).host.qps = s.host.qps := emitOut_qps s _

theorem regsBut_mgmtAnswer (s : State) (m : MgmtMsg) (n : Nat) (d : Bytes) (rs : List RegName) : RegsBut s (s.mgmtAnswer m n d) rs :=
  regsBut_of_regs (mgmtAnswer_regs s m n d) rs

@[simp] theorem reg_mgmtAnswer (s : State) (m : MgmtMsg) (n : Nat) (d : Bytes) (r : RegName) : (s.mgmtAnswer m n d).reg r = s.reg r :=
  regsBut_mgmtAnswer s m n d [] r (by simp)

/-- A message is answered where nothing else has been sent before. -/
theorem answered_of_sends {s u t : State} (m : MgmtMsg) (n : Nat) (d : Bytes) (ho : u.host.out = s.host.out) (hw : u.host.waiting = s.host.waiting)
    (ht : t.host = (u.mgmtAnswer m n d).host) : Answered s t m n d := by
  have h := sent_emitOut u (.mgmtReply m.mseq n d)
  unfold Answered Sent
  rw [ht, ← ho, ← hw]
  exact h

theorem regsBut_taken (s : State) (m : MgmtMsg) : RegsBut s (s.taken m) [.mseqlast] := regsBut_setReg s m.mseq (by simp)

theorem reg_taken (s : State) (m : MgmtMsg) {r : RegName} (h : r.addr ≠ RegName.mseqlast.addr) : (s.taken m).reg r = s.reg r :=
  reg_setReg_other s .mseqlast r m.mseq h

@[simp] theorem reg_taken_mseqlast (s : State) (m : MgmtMsg) : (s.taken m).reg .mseqlast = m.mseq := reg_setReg_self s .mseqlast m.mseq

@[simp] theorem taken_host (s : State) (m : MgmtMsg) : (s.taken m).host = s.host := State.setReg_host s _ _
@[simp] theorem taken_boot (s : State) (m : MgmtMsg) : (s.taken m).boot = s.boot := State.setReg_boot s _ _
@[simp] theorem taken_now (s : State) (m : MgmtMsg) : (s.taken m).now = s.now := State.setReg_now s _ _

theorem rfld_bstat_taken (s : State) (m : MgmtMsg) (lo n : Nat) : (s.taken m).rfld .bstat lo n = s.rfld .bstat lo n :=
  rfld_of_regsBut (regsBut_taken s m) (by decide) lo n

/-- An answer right from the state in which an accepted message acts. -/
theorem answered_taken (s : State) (m : MgmtMsg) (n : Nat) (d : Bytes) : Answered s ((s.taken m).mgmtAnswer m n d) m n d :=
  answered_of_sends m n d (by simp) (by simp) rfl

theorem regsBut_answer_taken (s : State) (m : MgmtMsg) (n : Nat) (d : Bytes) : RegsBut s ((s.taken m).mgmtAnswer m n d) [.mseqlast] :=
  regsBut_trans (regsBut_taken s m) (regsBut_mgmtAnswer _ m n d _)

/-- An accepted message passes the checks of R89 and acts. -/
theorem manage_of_accepted {s : State} {m : MgmtMsg} {signed early : Bool} {ops : List (Nat × Nat)} (h : Accepted s m signed early ops)
    (act : State → State) : s.manage m signed early ops act = act (s.taken m) := by
  obtain ⟨hcmd, hpay, hsig⟩ := h.sizes
  have hauth : s.authentic m signed = true := by
    cases hs : signed with
    | true => simp [State.authentic, h.fresh, h.signed hs]
    | false => simp [State.authentic, h.fresh]
  have hready : (!early && (s.taken m).rfld .bstat 0 3 != 4) = false := by
    rw [rfld_bstat_taken]
    obtain he | hb := h.ready
    · simp [he]
    · have hb' : s.rfld .bstat 0 3 = 4 := hb
      simp [hb']
  unfold State.manage
  rw [if_neg (by simp [State.portUp, h.lane]), if_neg (by simp [hcmd, hsig, hpay]), if_neg (by simp [hauth])]
  show (if (!reservedOk m ops) = true then _ else if (!early && (s.taken m).rfld .bstat 0 3 != 4) = true then _ else _) = _
  rw [if_neg (by simp [h.zeros]), if_neg (by simp [hready])]
  rfl

/-- A command on an accepted message goes on with its own action. -/
theorem next_of_accepted {s : State} {m : MgmtMsg} {signed early : Bool} {ops : List (Nat × Nat)} {p : Prop} [Decidable p] (hp : ¬ p)
    (h : Accepted s m signed early ops) (act : State → State) :
    (if p then .next s else .next (s.manage m signed early ops act) : Host.Outcome State Fault Refusal) = .next (act (s.taken m)) := by
  rw [if_neg hp, manage_of_accepted h]

/-! ## Status, reads and attestation (R20, R90) -/

theorem leaves_configStatusRead {s : State} {m : MgmtMsg} (hc : isConfig m 0 = true) (h : Accepted s m false true [(8, 1)]) :
    Leaves s (.configStatusRead m) fun t => t.reg .mseqlast = m.mseq ∧ RegsBut s t [.mseqlast] ∧
      Answered s t m 0 (([.bstat, .vdstat, .spmap, .hpstat] : List RegName).flatMap (fun r => bytesLE 8 (s.reg r).toNat) ++ s.boot.reportBytes) := by
  have hread : ∀ r ∈ ([.bstat, .vdstat, .spmap, .hpstat] : List RegName), (s.taken m).readReg r = s.reg r := by
    simp only [List.forall_mem_cons]
    exact ⟨reg_taken s m (by decide), reg_taken s m (by decide), reg_taken s m (by decide), reg_taken s m (by decide), by simp⟩
  refine ⟨_, next_of_accepted (by simp [hc]) h _, by simp, regsBut_answer_taken s m _ _, ?_⟩
  rw [List.flatMap_congr fun r hr => by rw [hread r hr], taken_boot]
  exact answered_taken s m _ _

theorem leaves_configRegisterRead {s : State} {m : MgmtMsg} (hc : isConfig m 2 = true) (h : Accepted s m false false [(8, 1)])
    (hl : m.payload.length % 8 = 0) : Leaves s (.configRegisterRead m) fun t => RegsBut s t [.mseqlast] ∧
      Answered s t m 0 ((words m.payload (m.payload.length / 8)).flatMap fun a => bytesLE 8 ((s.taken m).readAddr a).toNat) := by
  refine ⟨_, (next_of_accepted (by simp [hc]) h _).trans (congrArg _ (if_neg (by simp [hl]))), ?_, ?_⟩
  · exact regsBut_answer_taken s m _ _
  · exact answered_taken s m _ _

theorem attestation_taken (s : State) (m : MgmtMsg) (nonce : Bytes) : (s.taken m).attestation nonce = s.attestation nonce := by
  have hid : (s.taken m).readReg .ident = s.readReg .ident := by
    show (s.taken m).reg .ident ||| _ = s.reg .ident ||| _
    rw [reg_taken s m (by decide)]
  have hgeo : ∀ n ∈ List.range 48, bytesLE 8 ((s.taken m).reg (.pgeo n)).toNat = bytesLE 8 (s.reg (.pgeo n)).toNat := by
    intro n hn
    have hn48 := List.mem_range.mp hn
    rw [reg_taken s m (by simp only [RegName.addr]; omega)]
  unfold State.attestation
  rw [hid, List.flatMap_congr hgeo, taken_now, taken_boot]

theorem leaves_configAttestation {s : State} {m : MgmtMsg} (hc : isConfig m 6 = true) (h : Accepted s m false true [(8, 1), (16, 32)]) :
    Leaves s (.configAttestation m) fun t => let r := s.attestation ((m.command.drop 16).take 32)
      Answered s t m 0 (r ++ Config.identitySign (Config.sha512 r)) := by
  refine ⟨_, next_of_accepted (by simp [hc]) h _, ?_⟩
  dsimp only
  rw [attestation_taken]
  exact answered_taken s m _ _

/-! ## Firmware, retest and reset (R15, R19, R90) -/

/-- Bytes put into a map one after another from `off` on. -/
def putBytes (off : Nat) (bs : Bytes) (m : SMap Byte) : SMap Byte := (bs.mapIdx fun i b => (off + i, b)).foldl (fun t (a, b) => t.put a b) m

theorem putBytes_cons (off : Nat) (b : Byte) (bs : Bytes) (m : SMap Byte) : putBytes off (b :: bs) m = putBytes (off + 1) bs (SMap.put m off b) := by
  simp [putBytes, List.mapIdx_cons, Nat.add_comm, Nat.add_left_comm]

theorem find_putBytes_below {off j : Nat} (hj : j < off) (bs : Bytes) (m : SMap Byte) : SMap.find (putBytes off bs m) j = SMap.find m j := by
  induction bs generalizing off m with
  | nil => rfl
  | cons b bs ih => rw [putBytes_cons, ih (by omega), SMap.find_put_other m b (by omega)]

theorem find_putBytes {bs : Bytes} {i : Nat} {b : Byte} (h : bs[i]? = some b) (off : Nat) (m : SMap Byte) :
    SMap.find (putBytes off bs m) (off + i) = some b := by
  induction bs generalizing off i m with
  | nil => simp at h
  | cons c bs ih =>
    rw [putBytes_cons]
    cases i with
    | zero =>
      obtain rfl : c = b := by simpa using h
      exact (find_putBytes_below (Nat.lt_succ_self off) _ _).trans (SMap.find_put_self _ _ _)
    | succ i =>
      rw [show off + (i + 1) = off + 1 + i by omega]
      exact ih (by simpa using h) _ _

theorem leaves_configFirmwareLoad {s : State} {m : MgmtMsg} (hc : isConfig m 3 = true) (h : Accepted s m true true [(8, 2), (16, 8)])
    (h0 : cmdField m 9 1 = 0) : Leaves s (.configFirmwareLoad m) fun t => Answered s t m 0 [] ∧
      ∀ i b, m.payload[i]? = some b → t.boot.staged.find (cmdField m 16 8 + i) = some b := by
  let u : State := { s.taken m with boot := { s.boot with staged := putBytes (cmdField m 16 8) m.payload s.boot.staged } }
  have he : exec (.configFirmwareLoad m) s = .next (u.mgmtAnswer m 0 []) := by
    refine (next_of_accepted (by simp [hc]) h _).trans (congrArg _ ((if_neg (by omega)).trans ((if_pos h0).trans ?_)))
    simp only [u, putBytes, taken_boot]
  refine ⟨_, he, answered_of_sends m 0 [] (by simp [u]) (by simp [u]) rfl, fun i b hb => ?_⟩
  rw [mgmtAnswer_boot]
  exact find_putBytes hb _ _

/-- `BSTAT` after a retest has been accepted: no failure is shown, and one more retest is counted. -/
def retestShown (s : State) : State := ((s.setRfld .bstat 8 8 0).setRfld .bstat 16 8 0).satFld .bstat 24 8 1

theorem bring_retestShown (s : State) : (retestShown s).bring = s.bring := by
  unfold retestShown State.satFld State.bring
  rw [rfld_setRfld_other _ .bstat _ (by decide) (by decide), rfld_setRfld_other _ .bstat _ (by decide) (by decide),
    rfld_setRfld_other _ .bstat _ (by decide) (by decide)]

theorem failcode_retestShown (s : State) : (retestShown s).rfld .bstat 8 8 = 0 := by
  unfold retestShown State.satFld
  rw [rfld_setRfld_other _ .bstat _ (by decide) (by decide), rfld_setRfld_other _ .bstat _ (by decide) (by decide)]
  exact rfld_setRfld_self s .bstat 0 (by decide)

theorem retries_retestShown (s : State) : (retestShown s).rfld .bstat 24 8 = min 255 (s.rfld .bstat 24 8 + 1) := by
  unfold retestShown State.satFld
  rw [rfld_setRfld_self _ .bstat _ (by decide), rfld_setRfld_other _ .bstat _ (by decide) (by decide),
    rfld_setRfld_other _ .bstat _ (by decide) (by decide)]
  omega

@[simp] theorem host_retestShown (s : State) : (retestShown s).host = s.host := by simp [retestShown]

@[simp] theorem boot_retestShown (s : State) : (retestShown s).boot = s.boot := by simp [retestShown]

/-- The state with another record of bring-up. -/
def withBoot (s : State) (b : Boot) : State := { s with boot := b }

@[simp] theorem withBoot_host (s : State) (b : Boot) : (withBoot s b).host = s.host := rfl

theorem rfld_withBoot (s : State) (b : Boot) (r : RegName) (lo n : Nat) : (withBoot s b).rfld r lo n = s.rfld r lo n := rfl

/-- The device after a retest has been accepted: the failed lanes, if any, train again. -/
def retested (s : State) : State :=
  withBoot (retestShown s) { (retestShown s).boot with retraining := !(retestShown s).boot.failedLanes.isEmpty, report := [], outOfService := [] }

theorem rfld_retested (s : State) (r : RegName) (lo n : Nat) : (retested s).rfld r lo n = (retestShown s).rfld r lo n := rfld_withBoot _ _ r lo n

@[simp] theorem host_retested (s : State) : (retested s).host = s.host := (withBoot_host _ _).trans (host_retestShown s)

/-- What an accepted retest does: TEST is entered at once where no lane has failed. -/
theorem exec_configRetest {s : State} {m : MgmtMsg} (hc : isConfig m 4 = true) (h : Accepted s m true true [(8, 1)]) (hb : s.bring = 5) :
    exec (.configRetest m) s = .next (if s.boot.failedLanes = [] then (retested ((s.taken m).mgmtAnswer m 0 [])).enterTest
      else retested ((s.taken m).mgmtAnswer m 0 [])) := by
  have hyellow : (s.taken m).rfld .bstat 0 3 = 5 := (rfld_bstat_taken s m 0 3).trans hb
  have hboot : (retestShown ((s.taken m).mgmtAnswer m 0 [])).boot = s.boot := by simp
  refine (next_of_accepted (by simp [hc]) h _).trans (congrArg _ ((if_neg (not_not.mpr hyellow)).trans ?_))
  generalize (s.taken m).mgmtAnswer m 0 [] = a at hboot
  show (if (!(retestShown a).boot.failedLanes.isEmpty) = true then retested a else (retested a).enterTest) = _
  rw [hboot]
  cases s.boot.failedLanes <;> simp

theorem leaves_configRetest {s : State} {m : MgmtMsg} (hc : isConfig m 4 = true) (h : Accepted s m true true [(8, 1)]) (hb : s.bring = 5) :
    Leaves s (.configRetest m) fun t => t.bring = (if s.boot.failedLanes = [] then 2 else 5) ∧ t.rfld .bstat 8 8 = 0 ∧
      t.rfld .bstat 24 8 = min 255 (s.rfld .bstat 24 8 + 1) ∧ Answered s t m 0 [] := by
  refine ⟨_, exec_configRetest hc h hb, ?_⟩
  have ha : ∀ lo n, ((s.taken m).mgmtAnswer m 0 []).rfld .bstat lo n = s.rfld .bstat lo n :=
    rfld_of_regsBut (regsBut_answer_taken s m 0 []) (by decide)
  have hans : ∀ t : State, t.host = ((s.taken m).mgmtAnswer m 0 []).host → Answered s t m 0 [] :=
    fun t => answered_of_sends m 0 [] (by simp) (by simp)
  generalize (s.taken m).mgmtAnswer m 0 [] = a at ha hans
  have hbring : (retested a).bring = 5 := by
    rw [State.bring, rfld_retested, ← hb, State.bring, ← ha]
    exact bring_retestShown a
  have hcode : (retested a).rfld .bstat 8 8 = 0 := (rfld_retested a _ _ _).trans (failcode_retestShown a)
  have hret : (retested a).rfld .bstat 24 8 = min 255 (s.rfld .bstat 24 8 + 1) := by rw [rfld_retested, retries_retestShown, ha]
  split
  · exact ⟨bring_enterTest _, (rfld_bstat_enterTest _ 8 8 (by decide)).trans hcode, (rfld_bstat_enterTest _ 24 8 (by decide)).trans hret,
      hans _ ((host_enterTest _).trans (host_retested a))⟩
  · exact ⟨hbring, hcode, hret, hans _ (host_retested a)⟩

theorem leaves_configReset {s : State} {m : MgmtMsg} (hc : isConfig m 5 = true) (h : Accepted s m true true [(8, 1)]) :
    Leaves s (.configReset m) fun t => t.bring = 0 ∧ t.cores = [] ∧ t.msys.cells = [] ∧ t.reg .mseqlast = m.mseq ∧
      ∀ n i, n ≤ 256 → i < 6 → t.reg (.fmeter n i) = s.reg (.fmeter n i) := by
  refine ⟨_, next_of_accepted (by simp [hc]) h _, bring_restart _ _, cores_restart _ _, cells_restart _ _, ?_, fun n i hn hi => ?_⟩
  · rw [reg_restart_kept _ (by decide) (by decide), reg_mgmtAnswer, reg_taken_mseqlast]
  · have hk : keptOver false (RegName.fmeter n i).addr = true := by
      have ha : 0x80000 ≤ (RegName.fmeter n i).addr ∧ (RegName.fmeter n i).addr < 0xC0000 := by
        simp only [RegName.addr]
        omega
      simp [keptOver, ha]
    rw [reg_restart_kept _ hk (by simp only [RegName.addr]; omega), reg_mgmtAnswer, reg_taken s m (by simp only [RegName.addr]; omega)]

/-! ## Queue pairs and meters (R79, R91) -/

theorem leOf_lt (bs : Bytes) : leOf bs < 256 ^ bs.length := by
  induction bs with
  | nil => decide
  | cons b bs ih =>
    rw [leOf, List.length_cons, pow_succ]
    have := b.isLt
    omega

theorem cmdField_lt (m : MgmtMsg) (b n : Nat) : cmdField m b n < 256 ^ n :=
  (leOf_lt _).trans_le (Nat.pow_le_pow_right (by decide) (List.length_take_le _ _))

/-- The queue pair that a CONFIG creates. -/
def newPair (m : MgmtMsg) : QPair :=
  { peer := BitVec.ofNat 128 (cmdField m 32 16), peerQp := cmdField m 20 4
    rxPsn := BitVec.ofNat 24 (cmdField m 24 4), txPsn := BitVec.ofNat 24 (cmdField m 28 4) }

theorem leaves_configQueuePair {s : State} {m : MgmtMsg} (hc : isConfig m 7 = true) (h : Accepted s m true false [(8, 2), (16, 2), (20, 28)])
    {n : Nat} (hn : cmdField m 16 2 = n) (hlo : 16 ≤ n) (hhi : n < 257 * 16)
    (hq : cmdField m 20 4 < 2 ^ 24) (hr : cmdField m 24 4 < 2 ^ 24) (ht : cmdField m 28 4 < 2 ^ 24) :
    (cmdField m 9 1 = 0 → s.host.qps.find n = none → Leaves s (.configQueuePair m) fun t => Answered s t m 0 [] ∧ ∃ q, t.host.qps.find n = some q ∧
      q.peer.toNat = cmdField m 32 16 ∧ q.peerQp = cmdField m 20 4 ∧ q.rxPsn.toNat = cmdField m 24 4 ∧ q.txPsn.toNat = cmdField m 28 4 ∧ q.unacked = []) ∧
    (cmdField m 9 1 = 1 → s.host.qps.find n ≠ none → Leaves s (.configQueuePair m) fun t => Answered s t m 0 [] ∧ t.host.qps.find n = none) := by
  subst hn
  let u (qps : SMap QPair) : State := { s.taken m with host := { s.host with qps } }
  have he : ((s.host.qps.find (cmdField m 16 2)).isSome = (cmdField m 9 1 == 0)) = False → cmdField m 9 1 ≤ 1 →
      exec (.configQueuePair m) s = .next ((u (if cmdField m 9 1 = 0 then s.host.qps.put (cmdField m 16 2) (newPair m)
        else s.host.qps.erase (cmdField m 16 2))).mgmtAnswer m 0 []) := by
    intro hthere hop
    refine (next_of_accepted (by simp [hc]) h _).trans (congrArg _ ((if_neg ?_).trans ?_))
    · simp only [taken_host, hthere, false_or]
      omega
    · simp only [u, newPair, taken_host]
  have hans : ∀ qps, Answered s ((u qps).mgmtAnswer m 0 []) m 0 [] := fun qps => answered_of_sends (u := u qps) m 0 [] rfl rfl rfl
  refine ⟨fun hop hf => ⟨_, he (by simp [hop, hf]) (by omega), hans _, newPair m, ?_, ?_, rfl, ?_, ?_, rfl⟩,
    fun hop hf => ⟨_, he (by simp [hop, hf]) (by omega), hans _, ?_⟩⟩
  · rw [mgmtAnswer_qps, if_pos hop]
    exact SMap.find_put_self _ _ _
  · exact Nat.mod_eq_of_lt (by simpa using cmdField_lt m 32 16)
  · exact Nat.mod_eq_of_lt hr
  · exact Nat.mod_eq_of_lt ht
  · rw [mgmtAnswer_qps, if_neg (by omega)]
    exact (SMap.find_erase _ _ _).trans (if_pos rfl)

theorem leaves_meterset {s : State} {m : MgmtMsg} (hc : cmdField m 0 1 = 0x41) (h : Accepted s m true false [(8, 3), (16, 8)])
    (hn : cmdField m 8 2 ≤ 256) (hi : cmdField m 10 1 ≤ 5) : Leaves s (.meterset m) fun t =>
      let r := RegName.fmeter (cmdField m 8 2) (cmdField m 10 1)
      let v := cmdField m 16 8
      ((s.reg r).toNat ≤ v → (t.reg r).toNat = v ∧ RegsBut s t [.mseqlast, r] ∧ Answered s t m 0 []) ∧
      (v < (s.reg r).toNat → RegsBut s t [.mseqlast] ∧ Answered s t m 3 []) := by
  let r := RegName.fmeter (cmdField m 8 2) (cmdField m 10 1)
  let w := BitVec.ofNat 64 (cmdField m 16 8)
  have hw : w.toNat = cmdField m 16 8 := Nat.mod_eq_of_lt (by simpa using cmdField_lt m 16 8)
  have hr : (s.taken m).reg r = s.reg r := reg_taken s m (by simp only [r, RegName.addr]; omega)
  have he : exec (.meterset m) s = .next (if w.toNat < (s.reg r).toNat then (s.taken m).mgmtAnswer m 3 [] else ((s.taken m).setReg r w).mgmtAnswer m 0 []) := by
    refine (next_of_accepted (by simp [hc]) h _).trans (congrArg _ ((if_neg (by omega)).trans ?_))
    rw [← hr]
  rw [hw] at he
  refine ⟨_, he, fun hle => ?_, fun hlt => ?_⟩
  · rw [if_neg (Nat.not_lt.mpr hle)]
    refine ⟨by rw [reg_mgmtAnswer, reg_setReg_self, hw], ?_, answered_of_sends m 0 [] (by simp) (by simp) rfl⟩
    exact regsBut_trans (regsBut_mono (regsBut_taken s m) (by simp)) (regsBut_trans (regsBut_setReg _ w (by simp [r])) (regsBut_mgmtAnswer _ m 0 [] _))
  · rw [if_pos hlt]
    exact ⟨regsBut_answer_taken s m 3 [], answered_taken s m 3 []⟩

/-! ## What a write set changes beside what it writes (R42, R43, R90, R114, R115, R175) -/

/-- The registers that follow a write set: owners of clusters, a partition's drops and clock, and the read-back snapshots. -/
def followRegs : List RegName := (List.range 128).map RegName.clend ++ (List.range 48).flatMap (fun n => [RegName.pstat n, .pslst n]) ++
  [.svsta, .svstb, .lsta, .lstb]

theorem clend_mem_followRegs {c : Nat} (h : c < 128) : RegName.clend c ∈ followRegs := by simp [followRegs, h]
theorem pstat_mem_followRegs {n : Nat} (h : n < 48) : RegName.pstat n ∈ followRegs := by simp [followRegs, h]
theorem pslst_mem_followRegs {n : Nat} (h : n < 48) : RegName.pslst n ∈ followRegs := by simp [followRegs, h]

/-- A change that is made only sometimes. -/
theorem regsBut_ite {p : Prop} [Decidable p] {s t u : State} {rs : List RegName} (ht : RegsBut s t rs) (hu : RegsBut s u rs) :
    RegsBut s (if p then t else u) rs := by
  split
  · exact ht
  · exact hu

@[simp] theorem lowerVolt_regs (s : State) (q : Nat) : (s.lowerVolt q).regs = s.regs := by
  unfold State.lowerVolt
  split <;> rfl

theorem foldl_lowerVolt_regs (qs : List Nat) (s : State) : (qs.foldl State.lowerVolt s).regs = s.regs :=
  foldl_keeps State.regs lowerVolt_regs qs s

theorem regsBut_recheck (s : State) {n : Nat} (hn : n < 48) : RegsBut s (s.recheck n) followRegs := by
  refine regsBut_trans (regsBut_of_regs ?_ _) (regsBut_setRfld _ 21 1 _ (pslst_mem_followRegs hn))
  refine foldl_keeps State.regs (fun _ _ => ?_) _ s
  rfl

/-- The instances at some engines with their remainders cleared. -/
def clearRemainders (s : State) (es : List (Nat × Nat)) : State :=
  { s with srvs := s.srvs.map fun (v : Srv) => if es.contains (v.cls, v.inst) then { v with e := 0 } else v }

@[simp] theorem clearRemainders_regs (s : State) (es : List (Nat × Nat)) : (clearRemainders s es).regs = s.regs := rfl

theorem setStep_eq (s : State) (n k : Nat) :
    let t := s.setRfld (.pslst n) 17 4 k
    let u := clearRemainders t (t.coreEngines n)
    s.setStep n k = ((u.partQuads n).foldl State.lowerVolt u).recheck n := rfl

theorem regsBut_setStep (s : State) {n : Nat} (hn : n < 48) (k : Nat) : RegsBut s (s.setStep n k) followRegs := by
  have hset := regsBut_setRfld s 17 4 k (pslst_mem_followRegs hn)
  rw [setStep_eq]
  generalize s.setRfld (.pslst n) 17 4 k = t at hset
  refine regsBut_trans hset (regsBut_trans (regsBut_of_regs ?_ _) (regsBut_recheck _ hn))
  rw [foldl_lowerVolt_regs, clearRemainders_regs]

theorem regsBut_newGeometry (s t : State) : RegsBut t (s.newGeometry t) followRegs := by
  unfold State.newGeometry
  dsimp only
  refine regsBut_trans ?_ (regsBut_of_regs (foldl_lowerVolt_regs _ _) _)
  refine regsBut_trans (regsBut_of_regs ?_ _) (regsBut_foldl _ _ (fun u n hn => ?_) _)
  · rfl
  have hn48 : n < 48 := List.mem_range.mp (List.mem_of_mem_filter hn)
  have hstat : RegsBut u (if s.partValid n then u else u.setRfld (.pstat n) 16 32 0) followRegs :=
    regsBut_ite (regsBut_of_regs rfl _) (regsBut_setRfld u 16 32 0 (pstat_mem_followRegs hn48))
  exact regsBut_ite (regsBut_trans hstat (regsBut_setStep _ hn48 _)) hstat

@[simp] theorem askRound_regs (s : State) (n : Nat) : (s.askRound n).regs = s.regs := by
  unfold State.askRound
  split <;> rfl

theorem regsBut_latchSrv (s : State) : RegsBut s s.latchSrv followRegs := by
  unfold State.latchSrv
  split <;> exact regsBut_trans (regsBut_setReg s _ (by simp [followRegs])) (regsBut_setReg _ _ (by simp [followRegs]))

theorem regsBut_latchLease (s : State) : RegsBut s s.latchLease followRegs :=
  regsBut_trans (regsBut_setReg s _ (by simp [followRegs])) (regsBut_setReg _ _ (by simp [followRegs]))

theorem regsBut_showOwners (s : State) : RegsBut s s.showOwners followRegs := by
  unfold State.showOwners
  refine regsBut_foldl _ _ (fun t c hc => ?_) s
  have hm := clend_mem_followRegs (List.mem_range.mp hc)
  refine regsBut_ite (regsBut_of_regs rfl _) ?_
  exact regsBut_trans (regsBut_trans (regsBut_setRfld t 3 9 _ hm) (regsBut_setRfld _ 0 3 0 hm)) (regsBut_setRfld _ 12 6 _ hm)

theorem regsBut_follow (s t : State) (rs : List RegName) : RegsBut t (s.follow t rs) followRegs := by
  unfold State.follow
  dsimp only
  refine regsBut_trans ?_ (regsBut_showOwners _)
  refine regsBut_trans ?_ (regsBut_ite (regsBut_latchLease _) (regsBut_of_regs rfl _))
  refine regsBut_trans ?_ (regsBut_ite (regsBut_latchSrv _) (regsBut_of_regs rfl _))
  refine regsBut_trans ?_ (regsBut_of_regs (foldl_keeps State.regs (fun u r => ?rounds) _ _) _)
  refine regsBut_trans ?_ (regsBut_of_regs (foldl_keeps State.regs (fun u r => ?rotations) _ _) _)
  · exact regsBut_ite (regsBut_newGeometry s t) (regsBut_of_regs rfl _)
  case rounds =>
    split
    · split <;> simp
    · split <;> simp
    · rfl
  case rotations =>
    split
    · split <;> rfl
    · split <;> rfl
    · rfl

/-- The registers that a set writes, each once. -/
def writtenRegs (ws : List RegWrite) : List RegName := (ws.map RegWrite.name).eraseDups

/-- What an applied set leaves in a state `s`: it answers at once, or waits for what it started. -/
def writesApplied (s : State) (m : MgmtMsg) (ws : List RegWrite) : State :=
  let u := s.afterWrites ws
  let evs := (writtenRegs ws).flatMap (s.startedBy u) ++ ws.flatMap RegWrite.triggers ++ s.tinvWrites ws
  let waits := evs.filter waitsFor
  let t := s.follow u (writtenRegs ws)
  (if waits.isEmpty then t.mgmtAnswer m 0 [] else { t with host := { t.host with replies := t.host.replies ++ [(m.mseq, waits)] } }).push evs

theorem regsBut_writesApplied (s : State) (m : MgmtMsg) (ws : List RegWrite) : RegsBut (s.afterWrites ws) (writesApplied s m ws) followRegs := by
  refine regsBut_trans (regsBut_follow s _ (writtenRegs ws)) (regsBut_of_regs ?_ _)
  rw [writesApplied, State.push_regs]
  split
  · exact mgmtAnswer_regs _ _ _ _
  · rfl

section
variable {s : State} {m : MgmtMsg} {ws : List RegWrite} (hc : isConfig m 1 = true) (h : Accepted s m true false [(8, 1)])
  (hl : m.payload.length % 24 = 0) (hws : regWrites (words m.payload (m.payload.length / 8)) = some ws)
include hc h hl hws

theorem exec_writeSet_refused {n : Nat} (hp : (s.taken m).setProblem ((s.taken m).afterWrites ws) (writtenRegs ws) = some n) :
    exec (.configRegisterWriteSet m) s = .next ((s.taken m).mgmtAnswer m n []) := by
  refine (next_of_accepted (by simp [hc]) h _).trans (congrArg _ ?_)
  rw [writtenRegs] at hp
  simp only [hl, if_true, hws, hp]

theorem exec_writeSet_applied (hp : (s.taken m).setProblem ((s.taken m).afterWrites ws) (writtenRegs ws) = none) :
    exec (.configRegisterWriteSet m) s = .next (writesApplied (s.taken m) m ws) := by
  refine (next_of_accepted (by simp [hc]) h _).trans (congrArg _ ?_)
  rw [writtenRegs] at hp
  simp only [hl, if_true, hws, hp]
  rfl

theorem leaves_configRegisterWriteSet : Leaves s (.configRegisterWriteSet m) fun t =>
    (∀ n, (s.taken m).setProblem ((s.taken m).afterWrites ws) (writtenRegs ws) = some n → RegsBut s t [.mseqlast] ∧ Answered s t m n []) ∧
      ((s.taken m).setProblem ((s.taken m).afterWrites ws) (writtenRegs ws) = none → RegsBut ((s.taken m).afterWrites ws) t followRegs) := by
  cases hp : (s.taken m).setProblem ((s.taken m).afterWrites ws) (writtenRegs ws) with
  | none => exact ⟨_, exec_writeSet_applied hc h hl hws hp, fun n hn => by simp at hn, fun _ => regsBut_writesApplied _ m ws⟩
  | some st =>
    refine ⟨_, exec_writeSet_refused hc h hl hws hp, fun n hn => ?_, fun hn => by simp at hn⟩
    obtain rfl : st = n := by simpa using hn
    exact ⟨regsBut_answer_taken s m st [], answered_taken s m st []⟩

end

/-- Settles O34: each clause is what its message does once it is accepted. -/
theorem managementMessages : Obligations.ManagementMessages := by
  unfold Obligations.ManagementMessages
  exact fun s m => ⟨leaves_configStatusRead, leaves_configRegisterRead, fun hc h hl _ hws => leaves_configRegisterWriteSet hc h hl hws, leaves_configFirmwareLoad,
    leaves_configRetest, leaves_configReset, leaves_configAttestation, fun hc h _ hn hlo hhi => leaves_configQueuePair hc h hn hlo hhi, leaves_meterset⟩

end Sys2Proof.BringUpProofs

namespace Sys2Proof.NetworkProofs
open Sys2Proof Sys2Proof.Machine

/-! ## What an issuing path reads -/

@[simp] theorem issuing_s (s : State) (c : Cur) (g : Group) : (s.issuing c g).s = s.off := rfl
@[simp] theorem issuing_c (s : State) (c : Cur) (g : Group) : (s.issuing c g).c = c := rfl
@[simp] theorem issuing_g (s : State) (c : Cur) (g : Group) : (s.issuing c g).g = g := rfl
@[simp] theorem issuing_p (s : State) (c : Cur) (g : Group) : (s.issuing c g).p = g.path c.path := rfl

theorem sameBytes_of_msys {s t : State} (h : t.msys = s.msys) : SameBytes s t := fun sg a => by rw [h]

/-! ## Mailbox registers (R44 to R47, R353, R354) -/

/-- How an instruction of one beat uses the port. -/
def oneInf (sp : BitVec 1) (_ : Group) : Info := { sp := sp == 1 }

theorem extract_eq_ofNat (v : W32) (lo n : Nat) : v.extractLsb' lo n = BitVec.ofNat n (v.toNat / 2 ^ lo) := by
  rw [BitVec.extractLsb', Nat.shiftRight_eq_div_pow]

section
variable {s : State} {c : Cur} {g : Group}

theorem mbsetSend_acts (f : MbsetF) (hi : Issues s c g (oneInf f.sp g)) (hw : (s.issuing c g).sWait [f.a.toNat] = none) :
    let v := (g.sreg f.a.toNat).toNat
    let there := s.off.partHasUnit (s.off.ctxPart g.ctx) (unitOfCore (v % 256)) = true
    (v < 4096 → there → (g.mbSend f.n.toNat).busy = false →
      Retires s c g (.mbsetSend f) (oneInf f.sp g) (s.withGroup c fun h =>
        { h with mbs := h.mbs.put f.n.toNat { (h.mbSend f.n.toNat) with dcore := BitVec.ofNat 8 v, dq := BitVec.ofNat 4 (v / 256), svalid := true } })) ∧
    (v < 4096 → there → (g.mbSend f.n.toNat).busy = true → Parks s c (.mbsetSend f) (.busy f.n.toNat)) ∧
    (v < 4096 → ¬ there → Traps s c g (.mbsetSend f) 7 0 0) ∧
    (4096 ≤ v → Traps s c g (.mbsetSend f) 1 0 4) := by
  refine ⟨fun hv ht hb => retires_withGroup rfl rfl hi ?_, fun hv ht hb => parks_of rfl rfl hi ?_, fun hv ht => traps_of rfl rfl hi ?_,
    fun hv => traps_of rfl rfl hi ?_⟩
  · simp [hw, hv, ht, hb, extract_eq_ofNat, State.withGroup]
  · simp [hw, hv, ht, hb]
  · simp [hw, hv, ht]
  · simp [hw, Nat.not_lt.mpr hv]

theorem mbsetRecv_acts (f : MbsetF) (hi : Issues s c g (oneInf f.sp g)) (hw : (s.issuing c g).sWait [f.a.toNat] = none) :
    let v := (g.sreg f.a.toNat).toNat
    let bind (t : State) : State := t.updGroup c.core c.slot fun h => { h with mbg := h.mbg.put f.n.toNat { rq := BitVec.ofNat 4 v, rvalid := true } }
    (v < 16 → ((s.core c.core).recvQ v).st ≠ 0 → ((s.core c.core).recvQ v).team = g.team → Retires s c g (.mbsetRecv f) (oneInf f.sp g) (bind s.off)) ∧
    (v < 16 → ((s.core c.core).recvQ v).st = 0 → Retires s c g (.mbsetRecv f) (oneInf f.sp g)
      (bind (s.off.updCore c.core fun k => { k with recv := k.recv.put v { ctx := g.ctx, team := g.team, st := 1 } }))) ∧
    (v < 16 → ((s.core c.core).recvQ v).st ≠ 0 → ((s.core c.core).recvQ v).team ≠ g.team → Traps s c g (.mbsetRecv f) 7 0 0) ∧
    (16 ≤ v → Traps s c g (.mbsetRecv f) 1 0 4) := by
  have hoff : s.off.core c.core = s.core c.core := rfl
  have hcore (f : SMap RecvQ → SMap RecvQ) : (s.off.updCore c.core fun k => { k with recv := f k.recv }).group? c.core c.slot = some g := by
    rw [State.group?_updCore, if_pos rfl]
    exact hi.group
  refine ⟨fun hv hst ht => ?_, fun hv hst => ?_, fun hv hst ht => traps_of rfl rfl hi ?_, fun hv => traps_of rfl rfl hi ?_⟩
  · refine retires_withGroup rfl rfl hi ?_
    simp [hw, hv, hoff, Nat.mod_eq_of_lt hv, hst, ht, extract_eq_ofNat, State.withGroup]
  · refine retires_of rfl rfl hi ?_ (by rw [State.group?_updGroup_self, hcore (fun m => m.put _ _), Option.map_some])
    simp [hw, hv, hoff, Nat.mod_eq_of_lt hv, hst, extract_eq_ofNat]
  · simp [hw, hv, hoff, Nat.mod_eq_of_lt hv, hst, ht]
  · simp [hw, Nat.not_lt.mpr hv]

theorem mbsetRoute_acts (f : MbsetF) (hi : Issues s c g (oneInf f.sp g)) (hw : (s.issuing c g).sWait [f.a.toNat] = none) :
    let v := (g.sreg f.a.toNat).toNat
    let open? := s.off.rteValid (v % 1024) = true ∧ s.off.rteLctx (v % 1024) = g.ctx ∧ s.off.rteDrain (v % 1024) = false
    (f.n = 0 → v < 2048 → open? →
      Retires s c g (.mbsetRoute f) (oneInf f.sp g) (s.withGroup c fun h => { h with route := v % 1024, fm := v.testBit 10, rOn := true })) ∧
    (f.n = 0 → v < 2048 → ¬ open? → Traps s c g (.mbsetRoute f) 8 0 0) ∧
    (f.n = 0 → 2048 ≤ v → Traps s c g (.mbsetRoute f) 1 0 4) ∧
    (f.n ≠ 0 → Traps s c g (.mbsetRoute f) 1 0 3) := by
  have hcode (h : f.n = 0) : illegalMbsetRoute f = none := by simp [illegalMbsetRoute, firstCode, h]
  refine ⟨fun hn hv ho => retires_withGroup rfl (hcode hn) hi ?_, fun hn hv ho => traps_of rfl (hcode hn) hi ?_,
    fun hn hv => traps_of rfl (hcode hn) hi ?_, fun hn => traps_code rfl ?_ hi⟩
  · have hfm : (g.sreg f.a.toNat)[10] = (g.sreg f.a.toNat).toNat.testBit 10 := rfl
    simp [hw, hv, ho, hfm, State.withGroup]
  · have hshut : ((s.off.rteValid ((g.sreg f.a.toNat).toNat % 1024) && s.off.rteLctx ((g.sreg f.a.toNat).toNat % 1024) == g.ctx) &&
        !s.off.rteDrain ((g.sreg f.a.toNat).toNat % 1024)) = false := by simpa [and_assoc] using ho
    simp only [hw, issuing_s, issuing_g, hshut]
    simp [hv]
  · simp [hw, Nat.not_lt.mpr hv]
  · exact if_pos (by simpa using hn)

theorem mbsetLocal_acts (f : SafeF) (hi : Issues s c g (oneInf f.sp g)) :
    Retires s c g (.mbsetLocal f) (oneInf f.sp g) (s.withGroup c fun h => { h with rOn := false }) := retires_withGroup rfl rfl hi rfl

theorem mbpoll_acts (f : MbpollF) (hi : Issues s c g (oneInf f.sp g)) :
    ((g.mbRecv f.n.toNat).rvalid = false → Traps s c g (.mbpoll f) 7 0 0) ∧
    ((g.mbRecv f.n.toNat).rvalid = true → Retires s c g (.mbpoll f) (oneInf f.sp g) (s.withGroup c fun h =>
      h.setK f.k.toNat (decide (((s.core c.core).recvQ (g.mbRecv f.n.toNat).rq.toNat).msgs ≠ [])))) := by
  have hempty (xs : List Msg) : decide (xs ≠ []) = !xs.isEmpty := by cases xs <;> rfl
  refine ⟨fun hv => traps_of rfl rfl hi ?_, fun hv => retires_withGroup rfl rfl hi ?_⟩
  · simp [hv]
  · rw [hempty]
    simp only [hv, issuing_g]
    rfl

/-! ### A message sent (R45, R354) -/

/-- The packet of the message that a mailbox register of a group holds. -/
def mailPkt (s : State) (core slot n : Nat) (g : Group) : Pkt :=
  let m := g.mbSend n
  let dc := m.dcore.toNat
  { op := 0x20, drt := coreRouter dc, dep := corePort dc, srt := coreRouter core, sep := corePort core
    part := s.ctxPart g.ctx, ctx := g.ctx, cls := if s.rfld (.svcfg g.ctx 0) 48 3 = 0 then 0 else 1
    addr := m.dq.toNat + 16 * g.wc + 64 * n, img := m.img, core, slot, gen := g.gen, stage := .net (coreRouter core), born := s.now, arr := s.stamp, came := s.now
    inp := corePort core, frec := s.faultRec core g m.path (g.path m.path).mask m.pc 5 0 0, pid := m.pid, grid := g.grid }

theorem injectMail_eq {core slot n : Nat} (hg : s.group? core slot = some g) :
    s.injectMail core slot n = ({ s.bump with pkts := s.pkts.put s.stamp (mailPkt s core slot n g) }).updGroup core slot
      fun h => { h with mbs := h.mbs.put n { g.mbSend n with retry := none } } := by
  simp only [State.injectMail, hg]
  rfl

theorem injectMail_group {core slot n : Nat} (hg : s.group? core slot = some g) :
    (s.injectMail core slot n).group? core slot = some { g with mbs := g.mbs.put n { g.mbSend n with retry := none } } := by
  rw [injectMail_eq hg, State.group?_updGroup_self]
  exact congrArg (Option.map _) hg

/-- The group once a register that it names has been popped into a mailbox register. -/
def mailFilled (x : IssueCtx) (a n : Nat) : Group :=
  { x.g with
    queues := (queuesOf x.d [a]).foldl (fun qs q => qs.put q (SMap.get {} qs q).pop) x.g.queues
    mbs := x.g.mbs.put n { x.g.mbSend n with
      busy := true, path := x.c.path, pid := x.p.born, pc := x.p.pc, img := VReg.ofFn x.w (x.vsrc a).lane } }

theorem vmovMbs_acts (f : MbsF) (hi : Issues s c g (unitInf f.sp g)) (hl : (s.issuing c g).laneFault [f.a.toNat] [] [] = none) :
    let x := s.issuing c g
    let m := g.mbSend f.n.toNat
    (m.svalid = false → Traps s c g (.vmovMbs f) 7 0 0) ∧
    (m.svalid = true → x.laneWait [f.a.toNat] [] [] = none → m.busy = true → Parks s c (.vmovMbs f) (.busy f.n.toNat)) ∧
    (m.svalid = true → m.busy = false → x.laneWait [f.a.toNat] [] [] = none →
      Retires s c g (.vmovMbs f) (unitInf f.sp g) ((s.withGroup c fun _ => mailFilled x f.a.toNat f.n.toNat).injectMail c.core c.slot f.n.toNat)) := by
  refine ⟨fun hv => traps_of rfl rfl hi ?_, fun hv hw hb => parks_of rfl rfl hi ?_, fun hv hb hw => ?_⟩
  · simp [hl, hv]
  · simp [hl, hv, hw, hb, firstWait]
  have hfill : (s.off.popQueues (s.issuing c g) [f.a.toNat]).updGroup c.core c.slot (fun h => { h with mbs := h.mbs.put f.n.toNat { g.mbSend f.n.toNat with
        busy := true, path := c.path, pid := (g.path c.path).born, pc := (g.path c.path).pc, img := VReg.ofFn g.w ((s.issuing c g).vsrc f.a.toNat).lane } }) =
      s.withGroup c fun _ => mailFilled (s.issuing c g) f.a.toNat f.n.toNat := by
    refine (popQueues_updGroup s.off (s.issuing c g) [f.a.toNat] _).trans (State.updGroup_congr fun h hh => ?_)
    obtain rfl : g = h := by simpa using hi.group.symm.trans hh
    rfl
  refine retires_of rfl rfl hi ?_ (injectMail_group (by rw [State.group?_withGroup, hi.group]; rfl))
  rw [← hfill]
  simp only [issuing_s, issuing_c, issuing_g, issuing_p, hl, hw, hv, hb, firstWait]
  rfl

/-- What the group and the packets hold once a message has been sent. -/
theorem mailFilled_sent (hg : s.group? c.core c.slot = some g) (a n : Nat) :
    let x := s.issuing c g
    let m := g.mbSend n
    let e := (s.withGroup c fun _ => mailFilled x a n).injectMail c.core c.slot n
    ∃ h p, e.group? c.core c.slot = some h ∧ e.pkts = s.pkts.put s.stamp p ∧
      h.mbSend n = { m with busy := true, path := c.path, pid := (g.path c.path).born, pc := (g.path c.path).pc, img := VReg.ofFn x.w (x.vsrc a).lane, retry := none } ∧
      p.op = 0x20 ∧ p.img = VReg.ofFn x.w (x.vsrc a).lane ∧ p.drt = coreRouter m.dcore.toNat ∧ p.dep = corePort m.dcore.toNat ∧
      SameBytes s e ∧ ∀ k, h.vreg k = g.vreg k := by
  intro x m e
  have hfill : (mailFilled x a n).mbSend n = { m with
      busy := true, path := c.path, pid := (g.path c.path).born, pc := (g.path c.path).pc, img := VReg.ofFn x.w (x.vsrc a).lane } := SMap.get_put_self _ _ _ _
  have hin : (s.withGroup c fun _ => mailFilled x a n).group? c.core c.slot = some (mailFilled x a n) := by
    rw [State.group?_withGroup, hg]
    rfl
  have he := injectMail_eq (n := n) hin
  refine ⟨_, mailPkt (s.withGroup c fun _ => mailFilled x a n) c.core c.slot n (mailFilled x a n), injectMail_group hin, ?_, ?_, rfl, ?_, ?_, ?_, ?_, fun _ => rfl⟩
  · exact congrArg State.pkts he
  · exact (SMap.get_put_self _ _ _ _).trans (by rw [hfill])
  · exact congrArg MbSend.img hfill
  · show coreRouter ((mailFilled x a n).mbSend n).dcore.toNat = _
    rw [hfill]
  · show corePort ((mailFilled x a n).mbSend n).dcore.toNat = _
    rw [hfill]
  · exact sameBytes_of_msys ((congrArg State.msys he).trans rfl)

/-! ### A message received (R47, R354) -/

/-- The receive queue of a core has become `r`, and no path issues. -/
def withRecv (s : State) (core q : Nat) (r : RecvQ) : State := s.off.updCore core fun k => { k with recv := k.recv.put q r }

theorem withRecv_group (s : State) (core q n sl : Nat) (r : RecvQ) : (withRecv s core q r).group? n sl = s.group? n sl := by
  unfold withRecv
  rw [State.group?_updCore]
  split
  · next h => rw [h]; rfl
  · rfl

theorem withRecv_core_self (s : State) (core q : Nat) (r : RecvQ) :
    (withRecv s core q r).core core = { s.core core with recv := (s.core core).recv.put q r } := State.core_updCore_self _ _ _

/-- A group may take the oldest message unless another has begun to wait before it. -/
theorem recvQ_mine_iff {r : RecvQ} {slot : Nat} : r.mine slot = true ↔ r.msgs ≠ [] ∧ ∀ w ws, r.waiters = w :: ws → w.1 = slot := by
  unfold RecvQ.mine
  cases r.waiters <;> simp

/-- Whether a lane instruction of a group is ready does not depend on its core's receive queues. -/
theorem laneReady_withRecv {o : LaneOp} (hopw : o.opw = none) (hl : (s.issuing c g).laneFault o.srcs o.runs [o.dst] = none)
    (hw : (s.issuing c g).laneWait o.srcs o.runs [o.dst] = none) (hp : (s.core c.core).canPlace c.slot g.wc = true) (q : Nat) (r : RecvQ) :
    LaneReady { s.issuing c g with s := withRecv s c.core q r } o := by
  have hcore := withRecv_core_self s c.core q r
  have hcvt : IssueCtx.cvtPending { s.issuing c g with s := withRecv s c.core q r } = (s.issuing c g).cvtPending := by
    funext n
    simp only [IssueCtx.cvtPending, issuing_c, hcore]
    rfl
  have hv : IssueCtx.vPending { s.issuing c g with s := withRecv s c.core q r } = (s.issuing c g).vPending := by
    funext n
    simp only [IssueCtx.vPending, hcvt]
    rfl
  refine ⟨hl, ?_, by simp [hopw], ?_⟩
  · rw [← hw]
    simp only [IssueCtx.laneWait, IssueCtx.vWait, IssueCtx.cvtWait, hcvt, hv]
    rfl
  · rw [issuing_c, hcore]
    exact hp

/-- A change that changes no group leaves the groups. -/
theorem upd_id {α : Type} (m : SMap α) (i : Nat) : SMap.upd m i (fun x => x) = m := by
  induction m with
  | nil => rfl
  | cons e m ih => simp [SMap.upd, ih]

theorem setXrMm_withRecv (core slot q : Nat) (r : RecvQ) : (withRecv s core q r).setXrMm core slot false false = withRecv s core q r := by
  simp only [State.setXrMm, State.updGroup, Bool.false_eq_true, if_false, upd_id]
  simp [State.updCore, withRecv, State.core, SMap.put_put]

/-- A message that a group takes is written as the result of a lane instruction is. -/
theorem takeMail_writes {d q : Nat} {r : RecvQ} (lane : Nat → W32) (hg : s.group? c.core c.slot = some g) (hl : (s.issuing c g).laneFault [] [] [d] = none)
    (hw : (s.issuing c g).laneWait [] [] [d] = none) (hp : (s.core c.core).canPlace c.slot g.wc = true) :
    let m := (g.path c.path).mask
    ∃ e, (s.issuing c g).writeDst (withRecv s c.core q r) [] d m lane none = some e ∧
      LaneWrote { s.issuing c g with s := withRecv s c.core q r } { dst := d, mask := m, lane } e := by
  intro m
  let o : LaneOp := { dst := d, mask := m, lane }
  have hready := laneReady_withRecv (o := o) rfl hl hw hp q r
  obtain ⟨e, he, hwrote⟩ := laneAct_done (x := { s.issuing c g with s := withRecv s c.core q r }) ((withRecv_group s c.core q c.core c.slot r).trans hg) hready
  refine ⟨e, ?_, hwrote⟩
  have hact : IssueCtx.laneAct { s.issuing c g with s := withRecv s c.core q r } o =
      match (s.issuing c g).writeDst ((withRecv s c.core q r).setXrMm c.core c.slot false false) [] d m lane none with
      | some t => .done t
      | none => .park .place := by
    unfold IssueCtx.laneAct
    rw [hready.legal, hready.free]
    rfl
  rw [setXrMm_withRecv, he] at hact
  cases hwr : (s.issuing c g).writeDst (withRecv s c.core q r) [] d m lane none with
  | some t =>
    rw [hwr] at hact
    exact congrArg some (Act.done.inj hact).symm
  | none =>
    rw [hwr] at hact
    cases hact

/-- What a group does that asks for a message of a valid register. -/
theorem vmovMbg_acts (f : MbgF) (hi : Issues s c g (unitInf f.sp g)) (hl : (s.issuing c g).laneFault [] [] [f.d.toNat] = none) :
    let x := s.issuing c g
    let d := f.d.toNat
    let q := (g.mbRecv f.n.toNat).rq.toNat
    let r := (s.core c.core).recvQ q
    let takes (more : List Msg) : State := withRecv s c.core q { r with msgs := more, waiters := r.waiters.erase (c.slot, c.path) }
    let mine := ∀ w ws, r.waiters = w :: ws → w.1 = c.slot
    ((g.mbRecv f.n.toNat).rvalid = false → Traps s c g (.vmovMbg f) 7 0 0) ∧
    ((g.mbRecv f.n.toNat).rvalid = true → x.laneWait [] [] [d] = none →
      (∀ msg more, r.msgs = msg :: more → mine →
        (msg.bad = false → (s.core c.core).canPlace c.slot g.wc = true → ∃ e, Retires s c g (.vmovMbg f) (unitInf f.sp g) e ∧
          LaneWrote { x with s := takes more } { srcs := [], dst := d, mask := (g.path c.path).mask
                                                 lane := fun l => if l < msg.width then msg.img.lane l else 0 } e) ∧
        (msg.bad = true → exec (.vmovMbg f) s = .next ((takes more).takeFault c.core c.slot c.path (g.path c.path).pc 6 0 0))) ∧
      ((r.msgs = [] ∨ ¬ mine) → (c.slot, c.path) ∈ r.waiters → Parks s c (.vmovMbg f) (.msg q)) ∧
      ((r.msgs = [] ∨ ¬ mine) → (c.slot, c.path) ∉ r.waiters →
        exec (.vmovMbg f) s = .next ((withRecv s c.core q { r with waiters := r.waiters ++ [(c.slot, c.path)] }).parkPath c (.msg q)))) := by
  intro x d q r takes mine
  refine ⟨fun hv => traps_of rfl rfl hi (by simp [hl, hv]), fun hv hw => ?_⟩
  have hw : (s.issuing c g).laneWait [] [] [f.d.toNat] = none := hw
  have hother (hnot : r.msgs = [] ∨ ¬ mine) : ((s.off.core c.core).recvQ (g.mbRecv f.n.toNat).rq.toNat).mine c.slot = false :=
    Bool.eq_false_iff.mpr fun h => hnot.elim (recvQ_mine_iff.mp h).1 fun hm => hm (recvQ_mine_iff.mp h).2
  refine ⟨fun msg more hmsgs hmine => ?_, fun hnot hin => ?_, fun hnot hin => ?_⟩
  · have hm : ((s.off.core c.core).recvQ (g.mbRecv f.n.toNat).rq.toNat).msgs = msg :: more := hmsgs
    have htake : ((s.off.core c.core).recvQ (g.mbRecv f.n.toNat).rq.toNat).mine c.slot = true := recvQ_mine_iff.mpr ⟨by simp [hm], hmine⟩
    refine ⟨fun hgood hp => ?_, fun hbad => ?_⟩
    · obtain ⟨e, he, hwrote⟩ := takeMail_writes (q := q) (r := { r with msgs := more, waiters := r.waiters.erase (c.slot, c.path) })
        (fun l => if l < msg.width then msg.img.lane l else 0) hi.group hl hw hp
      obtain ⟨h, hh, _⟩ := hwrote.group
      refine ⟨e, retires_of rfl rfl hi ?_ hh, hwrote⟩
      simp only [issuing_s, issuing_c, issuing_g, issuing_p, hl, hw, hv, hm, htake, hgood, Bool.not_true, Bool.false_eq_true, if_false, if_true]
      exact congrArg (fun o : Option State => match o with | some t => Act.done t | none => .park .place) he
    · refine (issue_issues hi).trans (congrArg _ (?_ : _ = (s.issuing c g).finish (unitInf f.sp g) (.trapAt (takes more) (g.path c.path).pc 6 0)))
      simp only [issuing_s, issuing_c, issuing_g, issuing_p, hl, hw, hv, hm, htake, hbad, Bool.not_true, Bool.false_eq_true, if_false, if_true]
      rfl
  · have hc : ((s.off.core c.core).recvQ (g.mbRecv f.n.toNat).rq.toNat).waiters.contains (c.slot, c.path) = true := List.contains_iff_mem.mpr hin
    refine parks_of rfl rfl hi ?_
    simp only [issuing_s, issuing_c, issuing_g, hl, hw, hv, hother hnot, hc, Bool.not_true, Bool.false_eq_true, if_false, if_true]
    split <;> rfl
  · have hc : ((s.off.core c.core).recvQ (g.mbRecv f.n.toNat).rq.toNat).waiters.contains (c.slot, c.path) = false :=
      Bool.eq_false_iff.mpr fun h => hin (List.contains_iff_mem.mp h)
    refine (issue_issues hi).trans (congrArg _ (?_ : _ = (s.issuing c g).finish (unitInf f.sp g)
      (.start (withRecv s c.core q { r with waiters := r.waiters ++ [(c.slot, c.path)] }) (.msg q))))
    simp only [issuing_s, issuing_c, issuing_g, hl, hw, hv, hother hnot, hc, Bool.not_true, Bool.false_eq_true, if_false]
    split <;> rfl

/-- Settles O21: each clause is what its instruction answers. -/
theorem mailboxes : Obligations.Mailboxes := by
  unfold Obligations.Mailboxes
  refine ⟨fun s c g => ⟨fun f hi => ?_, mbsetLocal_acts, mbpoll_acts⟩, fun s c g => ⟨fun f hi hl => ?_, vmovMbg_acts⟩⟩
  · intro x v inf there open? hw
    obtain ⟨hsend, hbusy, hfar, hsbits⟩ := mbsetSend_acts f hi hw
    obtain ⟨hbound, hopened, htheirs, hrbits⟩ := mbsetRecv_acts f hi hw
    exact ⟨hsend, hbusy, hfar, hsbits, hbound, hopened, htheirs, hrbits, mbsetRoute_acts f hi hw⟩
  · obtain ⟨hbad, hbusy, hsent⟩ := vmovMbs_acts f hi hl
    refine ⟨hbad, hbusy, fun hv hb hw => ?_⟩
    obtain ⟨h, p, hp⟩ := mailFilled_sent hi.group f.a.toNat f.n.toNat
    exact ⟨_, h, p, hsent hv hb hw, hp⟩

end
end Sys2Proof.NetworkProofs

namespace Sys2Proof.NetworkProofs
open Sys2Proof Sys2Proof.Machine Sys2Proof.BringUpProofs

/-! ## One packet of an operation is over (R39, R174) -/

section
variable {s : State} {id : Nat} {o : Op}

theorem pktDone_eq (h : s.ops.find id = some o) (hl : 2 ≤ o.left) :
    s.pktDone id = { s with ops := s.ops.put id { o with left := o.left - 1 } } := by
  simp only [State.pktDone, h]
  exact if_neg (by omega)

/-- The operation after one of its packets has failed: the first failure stands. -/
def failed (o : Op) (f : Nat × W64 × Nat) : Op := if o.fail.isSome then o else { o with fail := some f }

theorem failed_eq (o : Op) (f : Nat × W64 × Nat) : failed o f = { o with fail := match o.fail with | some x => some x | none => some f } := by
  unfold failed
  cases o with
  | mk _ _ _ _ _ _ _ _ _ _ _ _ _ _ _ _ _ _ _ _ _ _ _ fail => cases fail <;> rfl

theorem pktFail_eq (h : s.ops.find id = some o) (hl : 2 ≤ o.left) (cls : Nat) (va : W64) (det : Nat) :
    s.pktFail id cls va det = { s with ops := (s.ops.upd id fun o => failed o (cls, va, det)).put id { failed o (cls, va, det) with left := o.left - 1 } } := by
  have hleft : (failed o (cls, va, det)).left = o.left := by rw [failed_eq]
  have hfind : (s.ops.upd id fun o => failed o (cls, va, det)).find id = some (failed o (cls, va, det)) := by rw [SMap.find_upd, if_pos rfl, h]; rfl
  refine (pktDone_eq (s := { s with ops := s.ops.upd id fun o => failed o (cls, va, det) }) hfind (by rwa [hleft])).trans ?_
  rw [hleft]

theorem oneLess_pktDone (h : s.ops.find id = some o) (hl : 2 ≤ o.left) : OneLess (s.pktDone id) id o none := by
  unfold OneLess
  rw [pktDone_eq h hl, SMap.find_put_self]
  cases hf : o.fail <;> simp [← hf]

theorem oneLess_pktFail (h : s.ops.find id = some o) (hl : 2 ≤ o.left) (cls : Nat) (va : W64) (det : Nat) :
    OneLess (s.pktFail id cls va det) id o (some (cls, va, det)) := by
  unfold OneLess
  rw [pktFail_eq h hl, SMap.find_put_self]
  exact congrArg (fun o' : Op => some { o' with left := o.left - 1 }) (failed_eq o (cls, va, det))

/-- Nothing but the operation changes. -/
theorem pktDone_rest (h : s.ops.find id = some o) (hl : 2 ≤ o.left) : s.pktDone id = { s with ops := (s.pktDone id).ops } := by
  rw [pktDone_eq h hl]

theorem pktFail_rest (h : s.ops.find id = some o) (hl : 2 ≤ o.left) (cls : Nat) (va : W64) (det : Nat) :
    s.pktFail id cls va det = { s with ops := (s.pktFail id cls va det).ops } := by
  rw [pktFail_eq h hl]

end

/-! ## A packet put on a strand (R62) -/

theorem liveStrands_of_regs {s t : State} (h : t.regs = s.regs) (i : Nat) : t.liveStrands i = s.liveStrands i := by
  have hr : ∀ r lo n, t.rfld r lo n = s.rfld r lo n := fun r lo n => by simp only [State.rfld, State.reg, h]
  have hu : t.linkUp = s.linkUp := funext fun n => by simp only [State.linkUp, hr]
  simp only [State.liveStrands, State.strands, hr, hu]

/-- Of a state only the packets that wait at links change. -/
theorem onStrand_rest (s : State) (route : Nat) (p : SysPkt) :
    s.onStrand route p = { s with lodra := { s.lodra with links := (s.onStrand route p).lodra.links } } := by
  unfold State.onStrand
  dsimp only
  split <;> rfl

theorem wait_onStrand {s : State} {route n : Nat} {p : SysPkt} (h : (s.liveStrands route)[p.seq % (s.liveStrands route).length]? = some n) :
    ((s.onStrand route p).link n).wait = (s.link n).wait ++ [(route, p)] := by
  simp only [State.onStrand, h]
  exact congrArg Link.wait (SMap.get_put_self _ _ _ _)

@[simp] theorem onStrand_regs (s : State) (i : Nat) (p : SysPkt) : (s.onStrand i p).regs = s.regs := (congrArg State.regs (onStrand_rest s i p)).trans rfl
@[simp] theorem onStrand_pkts (s : State) (i : Nat) (p : SysPkt) : (s.onStrand i p).pkts = s.pkts := (congrArg State.pkts (onStrand_rest s i p)).trans rfl
@[simp] theorem onStrand_ops (s : State) (i : Nat) (p : SysPkt) : (s.onStrand i p).ops = s.ops := (congrArg State.ops (onStrand_rest s i p)).trans rfl
@[simp] theorem onStrand_msys (s : State) (i : Nat) (p : SysPkt) : (s.onStrand i p).msys = s.msys := (congrArg State.msys (onStrand_rest s i p)).trans rfl
@[simp] theorem onStrand_cores (s : State) (i : Nat) (p : SysPkt) : (s.onStrand i p).cores = s.cores := (congrArg State.cores (onStrand_rest s i p)).trans rfl
@[simp] theorem onStrand_mon (s : State) (i : Nat) (p : SysPkt) : (s.onStrand i p).mon = s.mon := (congrArg State.mon (onStrand_rest s i p)).trans rfl
@[simp] theorem onStrand_now (s : State) (i : Nat) (p : SysPkt) : (s.onStrand i p).now = s.now := (congrArg State.now (onStrand_rest s i p)).trans rfl
@[simp] theorem onStrand_rx (s : State) (i : Nat) (p : SysPkt) : (s.onStrand i p).lodra.rx = s.lodra.rx := (congrArg (fun t : State => t.lodra.rx) (onStrand_rest s i p)).trans rfl
@[simp] theorem onStrand_tx (s : State) (i : Nat) (p : SysPkt) : (s.onStrand i p).lodra.tx = s.lodra.tx := (congrArg (fun t : State => t.lodra.tx) (onStrand_rest s i p)).trans rfl

/-! ## The drop log (R38, R43) -/

/-- Of a state only registers change. -/
def OnlyRegs (s t : State) : Prop := ∃ r, t = { s with regs := r }

theorem onlyRegs_rest {s t : State} (h : OnlyRegs s t) : t = { s with regs := t.regs } := by
  obtain ⟨r, rfl⟩ := h
  rfl

theorem onlyRegs_trans {s t u : State} (h : OnlyRegs s t) (h' : OnlyRegs t u) : OnlyRegs s u := by
  obtain ⟨r, rfl⟩ := h
  obtain ⟨r', rfl⟩ := h'
  exact ⟨r', rfl⟩

theorem onlyRegs_setReg (s : State) (r : RegName) (v : W64) : OnlyRegs s (s.setReg r v) := by
  unfold State.setReg
  split
  · exact ⟨_, rfl⟩
  · exact ⟨_, rfl⟩

/-- The word that the drop log keeps of a flit that a router drops. -/
def dropWord (p : Pkt) (r why : Nat) : Nat :=
  r + p.part * 2 ^ 6 + p.ctx * 2 ^ 12 + p.cls * 2 ^ 21 + p.drt * 2 ^ 24 + p.dep * 2 ^ 30 + p.srt * 2 ^ 34 + p.sep * 2 ^ 40 + why * 2 ^ 44

/-- The state once a flit of a packet has been logged and counted in `DLHEAD`. -/
def logged (s : State) (p : Pkt) (r why : Nat) : State :=
  ((((s.setReg (.dlog (s.rfld .dlhead 0 4) 0) (BitVec.ofNat 64 (dropWord p r why))).setReg (.dlog (s.rfld .dlhead 0 4) 1) (BitVec.ofNat 64 s.now)).setRfld
    .dlhead 0 4 (s.rfld .dlhead 0 4 + 1)).satFld .dlhead 16 32 1)

theorem logDrop_eq (s : State) (p : Pkt) (r why : Nat) :
    s.logDrop r p.part p.ctx p.cls p.drt p.dep p.srt p.sep why =
      if p.part < 48 then (logged s p r why).satFld (.pstat p.part) 16 32 1 else logged s p r why := by
  unfold State.logDrop logged dropWord
  simp

theorem onlyRegs_logged (s : State) (p : Pkt) (r why : Nat) : OnlyRegs s (logged s p r why) :=
  onlyRegs_trans (onlyRegs_trans (onlyRegs_trans (onlyRegs_setReg _ _ _) (onlyRegs_setReg _ _ _)) (onlyRegs_setReg _ _ _)) (onlyRegs_setReg _ _ _)

/-- What the log and its head show once so many flits of a packet have been dropped. -/
structure Logged (s t : State) (p : Pkt) (r why n : Nat) : Prop where
  rest : OnlyRegs s t
  head : t.rfld .dlhead 0 4 = (s.rfld .dlhead 0 4 + n) % 16
  count : t.rfld .dlhead 16 32 = min (2 ^ 32 - 1) (s.rfld .dlhead 16 32 + n)
  entry : 0 < n → t.reg (.dlog (s.rfld .dlhead 0 4) 0) = BitVec.ofNat 64 (dropWord p r why) ∧ t.reg (.dlog (s.rfld .dlhead 0 4) 1) = BitVec.ofNat 64 s.now

theorem logged_none (s : State) (p : Pkt) (r why : Nat) : Logged s s p r why 0 where
  rest := ⟨s.regs, rfl⟩
  head := (Nat.mod_eq_of_lt (rfld_lt s .dlhead 0 4)).symm
  count := by
    have := rfld_lt s .dlhead 16 32
    omega
  entry h := absurd h (Nat.lt_irrefl 0)

section
variable (s : State) (p : Pkt) (r why : Nat)

theorem logged_head : (logged s p r why).rfld .dlhead 0 4 = (s.rfld .dlhead 0 4 + 1) % 16 := by
  unfold logged State.satFld
  rw [rfld_setRfld_other _ _ _ (by decide) (by decide), rfld_setRfld_self _ _ _ (by decide)]
  rfl

theorem logged_count : (logged s p r why).rfld .dlhead 16 32 = min (2 ^ 32 - 1) (s.rfld .dlhead 16 32 + 1) := by
  have hi := rfld_lt s .dlhead 0 4
  have hlog (j : Nat) (t : State) (v : W64) (lo n : Nat) (hj : j < 2) : (t.setReg (.dlog (s.rfld .dlhead 0 4) j) v).rfld .dlhead lo n = t.rfld .dlhead lo n := by
    have ha : RegName.dlhead.addr ≠ (RegName.dlog (s.rfld .dlhead 0 4) j).addr := by
      simp only [RegName.addr]
      omega
    unfold State.rfld at *
    rw [reg_setReg_other _ _ _ _ ha]
  unfold logged State.satFld
  rw [rfld_setRfld_self _ _ _ (by decide), rfld_setRfld_other _ _ _ (by decide) (by decide), hlog 1 _ _ _ _ (by decide), hlog 0 _ _ _ _ (by decide)]
  omega

/-- An entry of the log that is not at its head keeps its words. -/
theorem logged_entry_other {i j : Nat} (hi : i < 16) (hj : j < 2) (hne : i ≠ s.rfld .dlhead 0 4) :
    (logged s p r why).reg (.dlog i j) = s.reg (.dlog i j) := by
  have hh := rfld_lt s .dlhead 0 4
  unfold logged State.satFld
  rw [reg_setRfld_other, reg_setRfld_other, reg_setReg_other, reg_setReg_other] <;> simp only [RegName.addr] <;> omega

theorem logged_entry_head :
    (logged s p r why).reg (.dlog (s.rfld .dlhead 0 4) 0) = BitVec.ofNat 64 (dropWord p r why) ∧
    (logged s p r why).reg (.dlog (s.rfld .dlhead 0 4) 1) = BitVec.ofNat 64 s.now := by
  have hh := rfld_lt s .dlhead 0 4
  unfold logged State.satFld
  constructor
  · rw [reg_setRfld_other, reg_setRfld_other, reg_setReg_other, reg_setReg_self] <;> simp only [RegName.addr] <;> omega
  · rw [reg_setRfld_other, reg_setRfld_other, reg_setReg_self] <;> simp only [RegName.addr] <;> omega

theorem onlyRegs_logDrop : OnlyRegs s (s.logDrop r p.part p.ctx p.cls p.drt p.dep p.srt p.sep why) := by
  rw [logDrop_eq]
  split
  · exact onlyRegs_trans (onlyRegs_logged s p r why) (onlyRegs_setReg _ _ _)
  · exact onlyRegs_logged s p r why

/-- The count of a partition's drops is none of the log's registers. -/
theorem reg_logDrop {x : RegName} (hx : 0x10400 ≤ x.addr) :
    (s.logDrop r p.part p.ctx p.cls p.drt p.dep p.srt p.sep why).reg x = (logged s p r why).reg x := by
  rw [logDrop_eq]
  split
  · refine reg_setRfld_other _ _ _ _ _ _ ?_
    simp only [RegName.addr] at hx ⊢
    omega
  · rfl

end

theorem logged_succ {s t : State} {p : Pkt} {r why n : Nat} (h : Logged s t p r why n) (hn : n < 16) :
    Logged s (t.logDrop r p.part p.ctx p.cls p.drt p.dep p.srt p.sep why) p r why (n + 1) := by
  have hreg {x : RegName} (hx : 0x10400 ≤ x.addr) := reg_logDrop t p r why hx
  have hi := rfld_lt s .dlhead 0 4
  refine ⟨onlyRegs_trans h.rest (onlyRegs_logDrop t p r why), ?_, ?_, fun _ => ?_⟩
  · have := logged_head t p r why
    have := h.head
    unfold State.rfld at *
    rw [hreg (by decide)]
    omega
  · have := logged_count t p r why
    have := h.count
    unfold State.rfld at *
    rw [hreg (by decide)]
    omega
  · have hnow : t.now = s.now := (congrArg State.now (onlyRegs_rest h.rest)).trans rfl
    rw [hreg (by simp only [RegName.addr]; omega), hreg (by simp only [RegName.addr]; omega)]
    rcases Nat.eq_zero_or_pos n with rfl | hpos
    · have hhead : t.rfld .dlhead 0 4 = s.rfld .dlhead 0 4 := h.head.trans (Nat.mod_eq_of_lt hi)
      have := logged_entry_head t p r why
      rwa [hhead, hnow] at this
    · have hne : s.rfld .dlhead 0 4 ≠ t.rfld .dlhead 0 4 := by
        rw [h.head]
        omega
      rw [logged_entry_other t p r why hi (by decide) hne, logged_entry_other t p r why hi (by decide) hne]
      exact h.entry hpos

theorem logged_drops (s : State) (p : Pkt) (r why n : Nat) (hn : n ≤ 16) :
    Logged s ((List.range n).foldl (fun s _ => s.logDrop r p.part p.ctx p.cls p.drt p.dep p.srt p.sep why) s) p r why n := by
  induction n with
  | zero => exact logged_none s p r why
  | succ n ih =>
    rw [List.range_succ, List.foldl_append]
    exact logged_succ (ih (by omega)) (by omega)

theorem flits_bounds (p : Pkt) : 0 < p.flits ∧ p.flits ≤ 2 := by
  unfold Pkt.flits
  split <;> decide

theorem logged_dropFlits (s : State) (q : Pkt) (r why : Nat) : Logged s (s.dropFlits q r why) q.seen r why q.flits :=
  logged_drops s q.seen r why q.flits (by have := flits_bounds q; omega)

/-- The reason and the destination that a drop log's word shows. -/
theorem fld_dropWord {p : Pkt} {r why : Nat} (hw : why < 16) (hr : r < 64) (hp : p.part < 64) (hc : p.ctx < 512) (hcl : p.cls < 8) (hd : p.drt < 64) (he : p.dep < 16)
    (hs : p.srt < 64) (hse : p.sep < 16) :
    fld (BitVec.ofNat 64 (dropWord p r why)) 44 4 = why ∧ fld (BitVec.ofNat 64 (dropWord p r why)) 24 6 = p.drt := by
  unfold fld dropWord
  simp only [BitVec.toNat_ofNat, Nat.shiftRight_eq_div_pow]
  omega

theorem dropReason_lt {s : State} {q : Pkt} {r why : Nat} (h : s.dropReason q r = some why) : why < 16 := by
  unfold State.dropReason at h
  dsimp only at h
  repeat' split at h
  all_goals cases h <;> decide

end Sys2Proof.NetworkProofs

namespace Sys2Proof.NetworkProofs
open Sys2Proof Sys2Proof.Machine Sys2Proof.BringUpProofs

/-! ## A flit at a router (R35 to R38) -/

section
variable {s : State} {id r : Nat} {p : Pkt}

theorem flit_dropped {why : Nat} (hp : s.pkts.find id = some p) (hst : p.stage = .net r) (hd : s.dropReason p r = some why) :
    s.flit id = { s.dropFlits p r why with pkts := s.pkts.put id { p with stage := .dropped, why } } := by
  simp only [State.flit, hp, hst, hd]

theorem flit_waits (hp : s.pkts.find id = some p) (hst : p.stage = .net r) (hd : s.dropReason p r = none)
    (hg : (s.outputGrant r (p.output r)).map Prod.fst ≠ some id) : s.flit id = s := by
  simp only [State.flit, hp, hst, hd]
  exact if_pos hg

/-- The state once a packet has an output's grant: the partition it belongs to is noted, and a corrected header counted. -/
def granted (s : State) (p : Pkt) (r : Nat) : State :=
  { (if p.flips = 0 then s else s.countCorrected r) with msys := { s.msys with granted := s.msys.granted.put (128 * r + p.output r) p.part } }

theorem granted_rest (s : State) (p : Pkt) (r : Nat) :
    granted s p r = { s with mon := (granted s p r).mon, msys := { s.msys with granted := s.msys.granted.put (128 * r + p.output r) p.part } } := by
  unfold granted
  split <;> rfl

theorem granted_corrected (h : p.flips ≠ 0) : (granted s p r).mon.corrected.get 0 r = s.mon.corrected.get 0 r + 1 := by
  unfold granted
  rw [if_neg h]
  exact SMap.get_put_self _ _ _ _

/-- A state that a packet with its grant leaves: the packets, the strands and the faulted request apart, only the grant is noted. -/
structure Moved (s t : State) (p : Pkt) (r : Nat) : Prop where
  corrected : p.flips ≠ 0 → t.mon.corrected.get 0 r = s.mon.corrected.get 0 r + 1
  regs : t.regs = s.regs
  cores : t.cores = s.cores
  msys : t.msys = { s.msys with granted := t.msys.granted }

theorem moved_of {t : State} (hm : t.mon = (granted s p r).mon) (hr : t.regs = s.regs) (hc : t.cores = s.cores)
    (hs : t.msys = { s.msys with granted := s.msys.granted.put (128 * r + p.output r) p.part }) : Moved s t p r :=
  ⟨fun h => (congrArg (fun m : Monitor => m.corrected.get 0 r) hm).trans (granted_corrected h), hr, hc, by rw [hs]⟩

/-- A packet with its grant, before it moves. -/
theorem flit_granted (hp : s.pkts.find id = some p) (hst : p.stage = .net r) (hd : s.dropReason p r = none)
    (hg : (s.outputGrant r (p.output r)).map Prod.fst = some id) :
    s.flit id = if r ≠ p.drt then { (granted s p r).bump with
        pkts := s.pkts.put id { p with stage := .net (p.output r), arr := s.stamp, came := s.now, inp := 16 + r, flips := 0 } }
      else match p.sys with
        | some (route, q) =>
          if p.dep = 15 then (((granted s p r).gatewayPoison p).dropPkt id).onStrand route q
          else { (granted s p r).bump with pkts := s.pkts.put id { p with stage := .core, arr := s.stamp, flips := 0 } }
        | none => { (granted s p r).bump with pkts := s.pkts.put id { p with stage := if p.op < 0x10 then .home else .core, arr := s.stamp, flips := 0 } } := by
  simp only [State.flit, hp, hst, hd]
  rw [if_neg (fun h => h hg)]
  unfold granted
  by_cases hf : p.flips = 0
  · simp only [if_pos hf]
    rfl
  · simp only [if_neg hf]
    rfl

theorem gatewayPoison_rest (s : State) (p : Pkt) : s.gatewayPoison p = { s with ops := (s.gatewayPoison p).ops } := by
  unfold State.gatewayPoison
  split <;> rfl

theorem gatewayPoison_clean (h : p.poison = 0) : s.gatewayPoison p = s := if_pos h

theorem gatewayPoison_find {o : Op} (h : p.poison ≠ 0) (ho : s.ops.find p.opId = some o) (hf : o.fail = none) :
    (s.gatewayPoison p).ops.find p.opId = some { o with fail := some (6, BitVec.ofNat 64 p.va, 0) } := by
  unfold State.gatewayPoison
  rw [if_neg h]
  simp [SMap.find_upd, ho, hf]

/-- A packet that goes on a hop, or comes to its home slice or core. -/
theorem moved_bump (k : SMap Pkt) : Moved s { (granted s p r).bump with pkts := k } p r := by
  have h := granted_rest s p r
  exact moved_of rfl ((congrArg State.regs h).trans rfl) ((congrArg State.cores h).trans rfl) rfl

/-- A link packet that goes out to its strand. -/
def sentOut (s : State) (p : Pkt) (r id route : Nat) (q : SysPkt) : State :=
  (((granted s p r).gatewayPoison p).dropPkt id).onStrand route q

theorem poisoned_rest (s : State) (p : Pkt) (r : Nat) : (granted s p r).gatewayPoison p =
    { s with mon := (granted s p r).mon, ops := ((granted s p r).gatewayPoison p).ops
             msys := { s.msys with granted := s.msys.granted.put (128 * r + p.output r) p.part } } := by
  rw [gatewayPoison_rest, granted_rest]

theorem moved_sentOut (route : Nat) (q : SysPkt) : Moved s (sentOut s p r id route q) p r := by
  have h := poisoned_rest s p r
  refine moved_of ?_ ((onStrand_regs _ _ _).trans ((congrArg State.regs h).trans rfl)) ((onStrand_cores _ _ _).trans ((congrArg State.cores h).trans rfl))
    ((onStrand_msys _ _ _).trans ((congrArg State.msys h).trans rfl))
  exact (onStrand_mon _ _ _).trans ((congrArg State.mon h).trans rfl)

theorem sentOut_pkts (route : Nat) (q : SysPkt) : (sentOut s p r id route q).pkts = s.pkts.erase id := by
  have h : ((granted s p r).gatewayPoison p).pkts = s.pkts := (congrArg State.pkts (poisoned_rest s p r)).trans rfl
  exact (onStrand_pkts _ _ _).trans (congrArg (SMap.erase · id) h)

theorem sentOut_wait {route n : Nat} {q : SysPkt} (hn : (s.liveStrands route)[q.seq % (s.liveStrands route).length]? = some n) :
    ((sentOut s p r id route q).link n).wait = (s.link n).wait ++ [(route, q)] := by
  have h := poisoned_rest s p r
  have hlive : (((granted s p r).gatewayPoison p).dropPkt id).liveStrands route = s.liveStrands route :=
    liveStrands_of_regs ((congrArg State.regs h).trans rfl) route
  have hlink : (((granted s p r).gatewayPoison p).dropPkt id).link n = s.link n := (congrArg (fun t : State => t.link n) h).trans rfl
  exact (wait_onStrand (by rwa [hlive])).trans (by rw [hlink])

theorem sentOut_ops (route : Nat) (q : SysPkt) : (sentOut s p r id route q).ops = ((granted s p r).gatewayPoison p).ops := onStrand_ops _ _ _

theorem granted_ops (s : State) (p : Pkt) (r : Nat) : (granted s p r).ops = s.ops := (congrArg State.ops (granted_rest s p r)).trans rfl

/-- What a packet that holds its output's grant does. -/
theorem flit_goes (hp : s.pkts.find id = some p) (hst : p.stage = .net r) (hd : s.dropReason p r = none)
    (hg : (s.outputGrant r (p.output r)).map Prod.fst = some id) : Leaves s (.flit id) fun t =>
      (r ≠ p.drt → t.pkts = s.pkts.put id { p with stage := .net (p.output r), arr := s.stamp, came := s.now, inp := 16 + r, flips := 0 }) ∧
      (r = p.drt → p.sys = none ∨ p.dep ≠ 15 →
        t.pkts = s.pkts.put id { p with stage := (if p.sys = none ∧ p.op < 0x10 then .home else .core), arr := s.stamp, flips := 0 }) ∧
      (p.flips ≠ 0 → t.mon.corrected.get 0 r = s.mon.corrected.get 0 r + 1) ∧
      (∀ route q, r = p.drt → p.sys = some (route, q) → p.dep = 15 → t.pkts = s.pkts.erase id ∧
        ∀ n, (s.liveStrands route)[q.seq % (s.liveStrands route).length]? = some n → (t.link n).wait = (s.link n).wait ++ [(route, q)]) ∧
      t.regs = s.regs ∧ (p.poison = 0 ∨ p.sys = none ∨ r ≠ p.drt ∨ p.dep ≠ 15 → t.ops = s.ops) ∧
      (∀ o, r = p.drt → p.sys ≠ none → p.dep = 15 → p.poison ≠ 0 → s.ops.find p.opId = some o → o.fail = none →
        t.ops.find p.opId = some { o with fail := some (6, BitVec.ofNat 64 p.va, 0) }) ∧ t.cores = s.cores ∧ t.msys = { s.msys with granted := t.msys.granted } := by
  have he := flit_granted hp hst hd hg
  refine ⟨s.flit id, rfl, ?_⟩
  rw [he]
  by_cases hr : r = p.drt
  · rw [if_neg (not_not.2 hr)]
    cases hsys : p.sys with
    | none =>
      have hm := moved_bump (s := s) (p := p) (r := r)
      refine ⟨absurd hr, fun _ _ => ?_, (hm _).corrected, fun _ _ _ h => (nomatch h), (hm _).regs, fun _ => granted_ops s p r, fun _ _ h => absurd rfl h, (hm _).cores, (hm _).msys⟩
      simp
    | some x =>
      obtain ⟨route, q⟩ := x
      by_cases hdep : p.dep = 15
      · have hm := moved_sentOut (s := s) (p := p) (r := r) (id := id) route q
        have hops := sentOut_ops (s := s) (p := p) (r := r) (id := id) route q
        simp only [if_pos hdep]
        refine ⟨absurd hr, fun _ h => ?_, hm.corrected, fun _ _ _ h _ => ?_, hm.regs, fun h => ?_, fun o _ _ _ hpo ho hf => ?_, hm.cores, hm.msys⟩
        · rcases h with h | h
          · cases h
          · exact absurd hdep h
        · obtain ⟨rfl, rfl⟩ : route = _ ∧ q = _ := by simpa using h
          exact ⟨sentOut_pkts _ _, fun n hn => sentOut_wait hn⟩
        · have hpo : p.poison = 0 := by simpa [hr, hdep] using h
          rw [← granted_ops s p r]
          exact hops.trans (by rw [gatewayPoison_clean hpo])
        · rw [← granted_ops s p r] at ho
          exact (congrArg (SMap.find · p.opId) hops).trans (gatewayPoison_find hpo ho hf)
      · have hm := moved_bump (s := s) (p := p) (r := r)
        simp only [if_neg hdep]
        refine ⟨absurd hr, fun _ _ => ?_, (hm _).corrected, fun _ _ _ _ h => absurd h hdep, (hm _).regs, fun _ => granted_ops s p r, fun _ _ _ h => absurd h hdep,
          (hm _).cores, (hm _).msys⟩
        simp
  · rw [if_pos hr]
    have hm := moved_bump (s := s) (p := p) (r := r)
    exact ⟨fun _ => rfl, fun h => absurd h hr, (hm _).corrected, fun _ _ h => absurd h hr, (hm _).regs, fun _ => granted_ops s p r, fun _ h => absurd h hr, (hm _).cores, (hm _).msys⟩

end

/-! ## The sender of a mailbox packet (R45) -/

section
variable {s : State} {p : Pkt} {g : Group}

theorem senderOf_iff : s.senderOf p = some g ↔ s.group? p.core p.slot = some g ∧ g.gen = p.gen := by
  unfold State.senderOf
  cases h : s.group? p.core p.slot with
  | none => simp
  | some k =>
    by_cases hk : k.gen = p.gen
    · simp only [if_pos hk, Option.some.injEq]
      exact (and_iff_left_of_imp fun e => e ▸ hk).symm
    · simp only [if_neg hk, Option.some.injEq]
      exact iff_of_false (fun e => nomatch e) fun ⟨e, hg⟩ => hk (e ▸ hg)

/-- A mailbox register whose message is in flight no more. -/
def mbFreed (m : MbSend) : MbSend := { m with busy := false, retry := none }

/-- A group whose mailbox register that a packet names has changed. -/
def withMbs (p : Pkt) (f : MbSend → MbSend) (g : Group) : Group :=
  { g with mbs := g.mbs.put (p.addr / 64 % 4) (f (g.mbSend (p.addr / 64 % 4))) }

theorem withMbs_mbSend (p : Pkt) (f : MbSend → MbSend) (g : Group) : (withMbs p f g).mbSend (p.addr / 64 % 4) = f (g.mbSend (p.addr / 64 % 4)) :=
  SMap.get_put_self _ _ _ _

theorem updMbs_sent (h : s.senderOf p = some g) (f : MbSend → MbSend) : s.updMbs p f = s.updGroup p.core p.slot (withMbs p f) := by
  simp only [State.updMbs, h]
  rfl

theorem updMbs_group (h : s.senderOf p = some g) (f : MbSend → MbSend) : (s.updMbs p f).group? p.core p.slot = some (withMbs p f g) := by
  rw [updMbs_sent h, State.group?_updGroup_self, (senderOf_iff.1 h).1]
  rfl

theorem updMbs_senderOf (p : Pkt) (s : State) (f : MbSend → MbSend) : (s.updMbs p f).senderOf p = (s.senderOf p).map (withMbs p f) := by
  cases h : s.senderOf p with
  | none =>
    simp only [State.updMbs, h]
    rfl
  | some g => exact senderOf_iff.2 ⟨updMbs_group h f, (senderOf_iff.1 h).2⟩

/-- Of a state only the cores change. -/
theorem updMbs_rest (s : State) (p : Pkt) (f : MbSend → MbSend) : s.updMbs p f = { s with cores := (s.updMbs p f).cores } := by
  unfold State.updMbs
  split <;> rfl

theorem updMbs_pkts (s : State) (id : Nat) (p : Pkt) (f : MbSend → MbSend) : ((s.dropPkt id).updMbs p f).pkts = s.pkts.erase id :=
  (congrArg State.pkts (updMbs_rest (s.dropPkt id) p f)).trans rfl

/-! ## Lost requests and messages (R39) -/

theorem trace_rest (s : State) (r : TraceRec) :
    s.trace r = { s with stamp := (s.trace r).stamp, cores := (s.trace r).cores, mon := (s.trace r).mon } := by
  unfold State.trace
  dsimp only
  split_ifs <;> rfl

theorem strayFault_pkts (s : State) (grid : Nat) (r : FaultRec) : (s.strayFault grid r).pkts = s.pkts :=
  (congrArg State.pkts (trace_rest s.chose _)).trans rfl

/-- The first fault of a grid that no path stands for. -/
theorem strayFault_grid {grid : Nat} {g : Grid} (hg : s.sched.grids.find grid = some g) (hf : g.fault = none) (r : FaultRec) :
    (s.strayFault grid r).sched.grids.find grid = some { g with fault := some r } := by
  unfold State.strayFault State.gridFault State.updGrid
  have h (t : TraceRec) : ((s.chose.trace t).leaveHead grid).sched.grids = s.sched.grids := (congrArg (fun u : State => u.sched.grids) (trace_rest s.chose t)).trans rfl
  rw [SMap.find_upd, if_pos rfl, h, hg]
  simp [hf]

theorem mailLost_late (h : s.senderOf p = some g) (hd : g.done = false) : s.mailLost p =
    (s.updMbs p mbFreed).updGroup p.core p.slot fun g =>
      { g with late := g.late ++ [{ cls := 5, path := p.frec.path, pid := p.pid, pc := p.frec.pc, va := 0, detail := p.why }] } := by
  have hs : ((s.updMbs p mbFreed).senderOf p).any (fun g => !g.done) = true := by
    rw [updMbs_senderOf, h]
    simp [withMbs, hd]
  exact if_pos hs

theorem mailLost_stray (h : ∀ g, s.senderOf p = some g → g.done = true) : s.mailLost p =
    (s.updMbs p mbFreed).strayFault p.grid { p.frec with time := s.now, detail := p.why } := by
  have hs : ¬ ((s.updMbs p mbFreed).senderOf p).any (fun g => !g.done) = true := by
    rw [updMbs_senderOf]
    cases hg : s.senderOf p with
    | none => simp
    | some g => simp [withMbs, h g hg]
  have hnow : (s.updMbs p mbFreed).now = s.now := (congrArg State.now (updMbs_rest _ _ _)).trans rfl
  refine (if_neg hs).trans ?_
  show (s.updMbs p mbFreed).strayFault p.grid { p.frec with time := (s.updMbs p mbFreed).now, detail := p.why } = _
  rw [hnow]

theorem requestTimeout_eq {id : Nat} (hp : s.pkts.find id = some p) (hst : p.stage = .dropped) (hb : p.born + 100000 ≤ s.now) :
    exec (.requestTimeout id) s =
      .next (if 0x20 ≤ p.op then (s.dropPkt id).mailLost p else (s.dropPkt id).pktFail p.opId 5 (BitVec.ofNat 64 p.va) p.why) := by
  show execRequestTimeout id s = _
  simp only [execRequestTimeout, hp, hst, hb, and_self, if_true, apply_ite Host.Outcome.next]

theorem requestTimeout_request {id : Nat} {o : Op} (hp : s.pkts.find id = some p) (hst : p.stage = .dropped) (hb : p.born + 100000 ≤ s.now)
    (hop : p.op < 0x20) (ho : s.ops.find p.opId = some o) (hl : 2 ≤ o.left) : Leaves s (.requestTimeout id) fun t =>
      t.pkts = s.pkts.erase id ∧ OneLess t p.opId o (some (5, BitVec.ofNat 64 p.va, p.why)) ∧ t.cores = s.cores ∧ SameBytes s t := by
  have ho' : (s.dropPkt id).ops.find p.opId = some o := ho
  have hr := pktFail_rest ho' hl 5 (BitVec.ofNat 64 p.va) p.why
  refine ⟨_, (requestTimeout_eq hp hst hb).trans (congrArg Host.Outcome.next (if_neg (by omega))), (congrArg State.pkts hr).trans rfl, oneLess_pktFail ho' hl _ _ _, (congrArg State.cores hr).trans rfl,
    sameBytes_of_msys ((congrArg State.msys hr).trans rfl)⟩

theorem requestTimeout_late {id : Nat} (hp : s.pkts.find id = some p) (hst : p.stage = .dropped) (hb : p.born + 100000 ≤ s.now)
    (hop : 0x20 ≤ p.op) (hg : s.senderOf p = some g) (hd : g.done = false) : Leaves s (.requestTimeout id) fun t => t.pkts = s.pkts.erase id ∧
      ∃ h, t.group? p.core p.slot = some h ∧ h.mbSend (p.addr / 64 % 4) = { g.mbSend (p.addr / 64 % 4) with busy := false, retry := none } ∧
        h.late = g.late ++ [{ cls := 5, path := p.frec.path, pid := p.pid, pc := p.frec.pc, va := 0, detail := p.why }] := by
  have hg' : (s.dropPkt id).senderOf p = some g := hg
  refine ⟨_, (requestTimeout_eq hp hst hb).trans (congrArg Host.Outcome.next ((if_pos hop).trans (mailLost_late hg' hd))), updMbs_pkts s id p _, _,
    (State.group?_updGroup_self _ _ _ _).trans (congrArg (Option.map _) (updMbs_group hg' _)), withMbs_mbSend p mbFreed g, rfl⟩

theorem requestTimeout_stray {id : Nat} {gr : Grid} (hp : s.pkts.find id = some p) (hst : p.stage = .dropped) (hb : p.born + 100000 ≤ s.now)
    (hop : 0x20 ≤ p.op) (hd : ∀ h, s.senderOf p = some h → h.done = true) (hgr : s.sched.grids.find p.grid = some gr) (hf : gr.fault = none) :
    Leaves s (.requestTimeout id) fun t => t.pkts = s.pkts.erase id ∧
      ∃ h, t.sched.grids.find p.grid = some h ∧ h.fault = some { p.frec with time := s.now, detail := p.why } := by
  have hd' : ∀ h, (s.dropPkt id).senderOf p = some h → h.done = true := hd
  refine ⟨_, (requestTimeout_eq hp hst hb).trans (congrArg Host.Outcome.next ((if_pos hop).trans (mailLost_stray hd'))), ?_, _, strayFault_grid ?_ hf _, rfl⟩
  · exact (strayFault_pkts _ _ _).trans (updMbs_pkts s id p _)
  · exact (congrArg (fun t : State => t.sched.grids.find p.grid) (updMbs_rest (s.dropPkt id) p _)).trans hgr

end

/-! ## Mailbox messages at their receiver (R46) -/

section
variable {s : State} {id : Nat} {p : Pkt}

theorem replied_answer {u : State} (ho : u.ops = s.ops) (hr : u.regs = s.regs) (hk : u.pkts = s.pkts) (hn : u.now = s.now) (op : Nat) :
    Replied s (u.answer id p op) id p op fun a => a := by
  refine ⟨ho, hr, u.stamp, ?_⟩
  show u.pkts.put id _ = _
  rw [hk, ← hn]
  rfl

theorem held_eq (l : List Msg) : l.foldl (fun n m => n + m.flits) 0 = (l.map Msg.flits).sum := by
  rw [List.sum_eq_foldl, List.foldl_map]

/-- What the receiving queue of a message holds. -/
def heldAt (s : State) (p : Pkt) : RecvQ := (s.core (coreAt p.drt p.dep)).recvQ (p.addr % 16)

/-- The receiving core once it has accepted a message. -/
def accepting (s : State) (p : Pkt) (c : Core) : Core :=
  { c with recv := c.recv.put (p.addr % 16) { heldAt s p with
      msgs := (heldAt s p).msgs ++ [{ width := 16 * 2 ^ (p.addr / 16 % 4), img := p.img, flits := msgFlits (p.addr / 16 % 4), bad := p.poison != 0 }] } }

theorem mailboxMessage_eq (hp : s.pkts.find id = some p) (hst : p.stage = .core) (hop : p.op = 0x20) :
    exec (.mailboxMessage id) s = .next (
      if (heldAt s p).st ≠ 1 ∨ (heldAt s p).ctx ≠ p.ctx then s.answer id p 0x23
      else if 8 < ((heldAt s p).msgs.map Msg.flits).sum + msgFlits (p.addr / 16 % 4) then s.answer id p 0x22
      else (s.updCore (coreAt p.drt p.dep) (accepting s p)).answer id p 0x21) := by
  show execMailboxMessage id s = _
  simp only [execMailboxMessage, hp, hst, hop, held_eq, and_self, if_true, apply_ite Host.Outcome.next]
  rfl

/-- The answer of the receiving core to a message. -/
theorem mailboxMessage_answers (hp : s.pkts.find id = some p) (hst : p.stage = .core) (hop : p.op = 0x20) :
    let core := coreAt p.drt p.dep
    let q := heldAt s p
    let held := (q.msgs.map Msg.flits).sum
    ((q.st ≠ 1 ∨ q.ctx ≠ p.ctx) → Leaves s (.mailboxMessage id) fun t => Replied s t id p 0x23 (fun a => a) ∧ t.cores = s.cores) ∧
    (q.st = 1 → q.ctx = p.ctx → 8 < held + msgFlits (p.addr / 16 % 4) →
      Leaves s (.mailboxMessage id) fun t => Replied s t id p 0x22 (fun a => a) ∧ t.cores = s.cores) ∧
    (q.st = 1 → q.ctx = p.ctx → held + msgFlits (p.addr / 16 % 4) ≤ 8 →
      Leaves s (.mailboxMessage id) fun t => Replied s t id p 0x21 (fun a => a) ∧
        (t.core core).recvQ (p.addr % 16) = { q with msgs := q.msgs ++
          [{ width := 16 * 2 ^ (p.addr / 16 % 4), img := p.img, flits := msgFlits (p.addr / 16 % 4), bad := p.poison != 0 }] } ∧
        t.core core = { s.core core with recv := (t.core core).recv } ∧ ∀ n, n ≠ core → t.core n = s.core n) := by
  intro core q held
  have he := mailboxMessage_eq hp hst hop
  refine ⟨fun h => ?_, fun h1 h2 h => ?_, fun h1 h2 h => ?_⟩
  · rw [if_pos h] at he
    exact ⟨_, he, replied_answer rfl rfl rfl rfl _, rfl⟩
  · rw [if_neg (by simp [q, h1, h2]), if_pos h] at he
    exact ⟨_, he, replied_answer rfl rfl rfl rfl _, rfl⟩
  · rw [if_neg (by simp [q, h1, h2]), if_neg (Nat.not_lt.2 h)] at he
    refine ⟨_, he, replied_answer rfl rfl rfl rfl _, ?_, ?_, fun n hn => ?_⟩
    · exact (congrArg (Core.recvQ · (p.addr % 16)) (State.core_updCore_self s core (accepting s p))).trans (SMap.get_put_self _ _ _ _)
    · have hc : (s.updCore core (accepting s p)).core core = accepting s p (s.core core) := State.core_updCore_self s core _
      exact hc.trans (congrArg (fun k : Core => { s.core core with recv := k.recv }) hc.symm)
    · exact (State.core_updCore s core n (accepting s p)).trans (if_neg hn)

/-! ## Answers to messages and their retries (R45) -/

theorem mailboxResponse_eq (hp : s.pkts.find id = some p) (hst : p.stage = .core) (hop : 0x21 ≤ p.op) (hop' : p.op ≤ 0x23) {g : Group} (hg : s.senderOf p = some g) :
    exec (.mailboxResponse id) s = .next (
      if p.op = 0x22 then (s.dropPkt id).updMbs p fun m => { m with retry := some (s.now + 32) }
      else if p.op = 0x23 then ((s.dropPkt id).updMbs p mbFreed).updGroup p.core p.slot fun g => g.setGsr 6
      else (s.dropPkt id).updMbs p mbFreed) := by
  have hs : (((s.dropPkt id).updMbs p fun m => { m with busy := false, retry := none }).senderOf p).isSome = true := by
    have hg' : (s.dropPkt id).senderOf p = some g := hg
    rw [updMbs_senderOf, hg']
    rfl
  show execMailboxResponse id s = _
  simp only [execMailboxResponse, hp, hst, hop, hop', hs, and_self, and_true, if_true, apply_ite Host.Outcome.next]
  rfl

/-- The core of a number below 256 stands where its router and port say (R26). -/
theorem coreAt_place {c : Nat} (h : c < 256) : coreAt (coreRouter c) (corePort c) = c := by
  unfold coreAt coreRouter corePort clusterRouter pairOfRouter routerAt routerRow routerCol
  omega

theorem mailboxRetry_injects {core slot n due : Nat} {g : Group} (hg : s.group? core slot = some g) (hr : (g.mbSend n).retry = some due) (hdue : due ≤ s.now)
    (hs : g.stopped = false) : exec (.mailboxRetry core slot n) s = .next (s.injectMail core slot n) := by
  show execMailboxRetry core slot n s = _
  simp only [execMailboxRetry, hg, hr, hs, hdue]
  rfl

end

/-- Settles O40: each event's state written out, the log by induction over the dropped packet's flits. -/
theorem networkEvents : Obligations.NetworkEvents := by
  intro s id p hp
  refine ⟨fun r hst => ⟨fun why hd => ?_, fun hd hg => ?_, fun hd hg => ?_⟩, fun hst hb => ⟨fun o hop ho hl => ?_, fun g hop hg hdone => ?_, fun g hop hdone hg hf => ?_⟩,
    fun hst hop => ?_, fun g hst hg => ⟨fun hop => ?_, fun hop => ?_, fun hop => ?_⟩, fun core slot g n due hg hr hdue hs => ?_⟩
  · have hl := logged_dropFlits s p r why
    obtain ⟨hw, ht⟩ := hl.entry (flits_bounds p).1
    refine ⟨_, (congrArg Host.Outcome.next (flit_dropped hp hst hd) :), rfl, hl.head, hl.count, fun hr hpa hc hcl hdr hde hsr hse => ?_, ht, ?_⟩
    · have := fld_dropWord (dropReason_lt hd) hr hpa hc hcl hdr hde hsr hse
      rwa [← hw] at this
    · rw [onlyRegs_rest hl.rest]
  · exact flit_goes hp hst hd hg
  · exact congrArg Host.Outcome.next (flit_waits hp hst hd hg)
  · exact requestTimeout_request hp hst hb hop ho hl
  · exact requestTimeout_late hp hst hb hop hg hdone
  · exact requestTimeout_stray hp hst hb hop hdone hg hf
  · exact mailboxMessage_answers hp hst hop
  · have he := mailboxResponse_eq hp hst hop.ge (by omega) hg
    rw [if_neg (by omega), if_neg (by omega)] at he
    exact ⟨_, he, updMbs_pkts s id p _, _, updMbs_group (s := s.dropPkt id) hg _, rfl, withMbs_mbSend p _ g⟩
  · have he := mailboxResponse_eq hp hst (by omega) (by omega) hg
    rw [if_pos hop] at he
    exact ⟨_, he, updMbs_pkts s id p _, _, updMbs_group (s := s.dropPkt id) hg _, rfl, withMbs_mbSend p _ g⟩
  · have he := mailboxResponse_eq hp hst (by omega) hop.le hg
    rw [if_neg (by omega), if_pos hop] at he
    refine ⟨_, he, updMbs_pkts s id p _, (withMbs p mbFreed g).setGsr 6, ?_, rfl, withMbs_mbSend p mbFreed g⟩
    rw [State.group?_updGroup_self, updMbs_group (s := s.dropPkt id) hg]
    rfl
  · have hdc := (g.mbSend n).dcore.isLt
    have hdq := (g.mbSend n).dq.isLt
    refine ⟨_, mailboxRetry_injects hg hr hdue hs, ⟨mailPkt s core slot n g, congrArg State.pkts (injectMail_eq hg), rfl, rfl, rfl, coreAt_place hdc, ?_⟩,
      _, injectMail_group hg, rfl, SMap.get_put_self _ _ _ _⟩
    simp only [mailPkt]
    omega

end Sys2Proof.NetworkProofs

namespace Sys2Proof.NetworkProofs
open Sys2Proof Sys2Proof.Machine Sys2Proof.BringUpProofs

/-! ## The receiving side of a flow (R61, R63 to R66) -/

section
variable {s : State} {k : Nat} {f : RxFlow} {p : SysPkt}

/-- Of a state only the packets that wait at links and the receiving flows change. -/
def OnlyFlows (s t : State) : Prop := ∃ l r, t = { s with lodra := { s.lodra with links := l, rx := r } }

theorem onlyFlows_refl (s : State) : OnlyFlows s s := ⟨s.lodra.links, s.lodra.rx, rfl⟩

theorem onlyFlows_trans {s t u : State} (h : OnlyFlows s t) (h' : OnlyFlows t u) : OnlyFlows s u := by
  obtain ⟨l, r, rfl⟩ := h
  obtain ⟨l', r', rfl⟩ := h'
  exact ⟨l', r', rfl⟩

theorem onlyFlows_setRx (s : State) (k : Nat) (f : RxFlow) : OnlyFlows s (s.setRx k f) := ⟨_, _, rfl⟩

theorem onlyFlows_onStrand (s : State) (route : Nat) (p : SysPkt) : OnlyFlows s (s.onStrand route p) := ⟨_, _, onStrand_rest s route p⟩

/-- The packet that acknowledges what a flow has performed. -/
def ackPkt (s : State) (f : RxFlow) : SysPkt :=
  { ddev := f.sdev, sdev := s.devId, srt := f.srt, sep := f.sep, route := s.rteRidx f.route
    cls := f.cls, fm := false, seq := 0, op := 0x30, addr := (f.acked + 2 ^ 24 - 1) % 2 ^ 24, akq := false, data := [] }

/-- A flow once what it has performed is acknowledged. -/
def told (s : State) (f : RxFlow) : RxFlow :=
  { f with sinceAck := 0, oldest := oldestOf f.performed, told := f.acked, timed := (oldestOf f.performed).any fun t => decide (t + 1000 ≤ s.now) }

theorem sendAck_eq (h : s.lodra.rx.find k = some f) : s.sendAck k = (s.onStrand f.route (ackPkt s f)).setRx k (told s f) := by
  simp only [State.sendAck, h, onStrand_now]
  rfl

theorem onlyFlows_sendAck (s : State) (k : Nat) : OnlyFlows s (s.sendAck k) := by
  cases h : s.lodra.rx.find k with
  | none =>
    simp only [State.sendAck, h]
    exact onlyFlows_refl s
  | some f =>
    rw [sendAck_eq h]
    exact onlyFlows_trans (onlyFlows_onStrand _ _ _) (onlyFlows_setRx _ _ _)

/-- Moving past what has performed changes what is acknowledged alone. -/
theorem cover_rest (n : Nat) (f : RxFlow) : f.cover n = { f with acked := (f.cover n).acked, performed := (f.cover n).performed } := by
  induction n generalizing f with
  | zero => rfl
  | succ n ih =>
    unfold RxFlow.cover
    split
    · exact ih _
    · rfl

/-- A flow once one more of its packets has performed. -/
def performed (s : State) (f : RxFlow) (seq : Nat) : RxFlow :=
  let g : RxFlow := { f with performed := f.performed ++ [(seq, s.now)] }
  let g := g.cover g.performed.length
  { g with sinceAck := g.sinceAck + 1, oldest := some (g.oldest.getD s.now) }

theorem performed_rest (s : State) (f : RxFlow) (seq : Nat) : performed s f seq =
    { f with acked := (performed s f seq).acked, performed := (performed s f seq).performed, sinceAck := f.sinceAck + 1, oldest := some (f.oldest.getD s.now) } := by
  unfold performed
  dsimp only
  rw [cover_rest]

theorem performed_marks (s : State) (f : RxFlow) (seq : Nat) : (performed s f seq).marks = f.marks := (congrArg RxFlow.marks (performed_rest s f seq)).trans rfl
theorem performed_held (s : State) (f : RxFlow) (seq : Nat) : (performed s f seq).held = f.held := (congrArg RxFlow.held (performed_rest s f seq)).trans rfl
theorem performed_next (s : State) (f : RxFlow) (seq : Nat) : (performed s f seq).next = f.next := (congrArg RxFlow.next (performed_rest s f seq)).trans rfl

theorem rxDone_eq (h : s.lodra.rx.find k = some f) (seq : Nat) (akq : Bool) :
    s.rxDone k seq akq = if akq ∨ 16 ≤ (performed s f seq).sinceAck then (s.setRx k (performed s f seq)).sendAck k else s.setRx k (performed s f seq) := by
  simp only [State.rxDone, h]
  rfl

theorem onlyFlows_rxDone (s : State) (k seq : Nat) (akq : Bool) : OnlyFlows s (s.rxDone k seq akq) := by
  cases h : s.lodra.rx.find k with
  | none =>
    simp only [State.rxDone, h]
    exact onlyFlows_refl s
  | some f =>
    rw [rxDone_eq h]
    split
    · exact onlyFlows_trans (onlyFlows_setRx _ _ _) (onlyFlows_sendAck _ _)
    · exact onlyFlows_setRx _ _ _

/-- No acknowledgement is due yet. -/
theorem rxDone_quiet (h : s.lodra.rx.find k = some f) (hs : f.sinceAck < 15) (seq : Nat) : s.rxDone k seq false = s.setRx k (performed s f seq) := by
  rw [rxDone_eq h, if_neg]
  rw [performed_rest]
  simp only [Bool.false_eq_true, false_or]
  omega

theorem rx_setRx (s : State) (k : Nat) (f : RxFlow) : (s.setRx k f).lodra.rx.find k = some f := SMap.find_put_self _ _ _

theorem setRx_setRx (s : State) (k : Nat) (f g : RxFlow) : (s.setRx k f).setRx k g = s.setRx k g := by
  unfold State.setRx
  simp only [SMap.put_put]

/-- A flow whose next packet is not held stays. -/
theorem reorder_stops (h : s.lodra.rx.find k = some f) (hm : f.next ∉ f.marks) (hh : ∀ q ∈ f.held, q.seq ≠ f.next) (n : Nat) : s.reorder k n = s := by
  cases n with
  | zero => rfl
  | succ n =>
    have hf : f.held.find? (fun q => q.seq == f.next) = none := by simpa [List.find?_eq_none] using hh
    have hc : f.marks.contains f.next = false := by simpa using hm
    simp only [State.reorder, h, hc, hf]
    rfl

/-- A flow moves past its one mark. -/
theorem reorder_marked (h : s.lodra.rx.find k = some f) (hm : f.marks = [f.next]) (hh : f.held = []) (n : Nat) :
    s.reorder k (n + 1) = s.setRx k { f with next := (f.next + 1) % 2 ^ 24, marks := [] } := by
  have hstep : s.reorder k (n + 1) = (s.setRx k { f with next := (f.next + 1) % 2 ^ 24, marks := [] }).reorder k n := by
    simp [State.reorder, h, hm]
  rw [hstep]
  exact reorder_stops (rx_setRx _ _ _) (List.not_mem_nil) (by simp [hh]) n

/-- A flow that delivers its next packet. -/
def delivering (f : RxFlow) : RxFlow := { f with held := [], marks := [f.next] }

/-- A flow delivers the one packet that it holds. -/
theorem reorder_held (h : s.lodra.rx.find k = some f) (hm : f.marks = []) (hh : f.held = [p]) (hs : p.seq = f.next) (n : Nat) :
    s.reorder k (n + 1) = ((s.setRx k (delivering f)).deliver k (delivering f) p).reorder k n := by
  simp [State.reorder, h, hm, hh, hs, delivering]

/-- The receiving flow of a packet, where one stands. -/
theorem rxFlow_of (h : (s.lodra.rx.find? fun e => e.2.route == p.route && e.2.sdev == p.sdev && e.2.srt == p.srt && e.2.sep == p.sep && e.2.cls == p.cls) = some (k, f)) :
    s.rxFlow p = (k, f, s) := by
  unfold State.rxFlow
  split
  · next k' f' hf =>
    obtain ⟨rfl, rfl⟩ : k' = k ∧ f' = f := by simpa using hf.symm.trans h
    rfl
  · next hf => cases hf.symm.trans h

theorem route_of_found (h : (s.lodra.rx.find? fun e => e.2.route == p.route && e.2.sdev == p.sdev && e.2.srt == p.srt && e.2.sep == p.sep && e.2.cls == p.cls) = some (k, f)) :
    f.route = p.route := by
  have := List.find?_some h
  simp at this
  exact this.1.1.1.1


/-! ### A packet next in its flow (R63, R65) -/

/-- The packet that a remote request becomes in the grid, at the gateway of its home slice's router. -/
def servedPkt (s : State) (p : SysPkt) (ctx pa : Nat) : Pkt :=
  let sl := sliceOfChannel (channelOf pa)
  { op := p.op, drt := sliceRtr sl, dep := slicePort sl, srt := sliceRtr sl, sep := 15, part := s.ctxPart ctx, ctx, cls := p.cls
    fm := p.fm, seq := p.seq, addr := pa, va := p.addr, data := BitVec.ofNat 1024 (leOf (p.data.take 128))
    mask := if p.op = 2 then wholeMask else BitVec.ofNat 128 (leOf ((p.data.drop 128).take 16)), aop := leOf (p.data.take 2)
    lanes := if p.op = 4 ∨ p.op = 5 then [{ lane := 0, addr := p.addr, x := BitVec.ofNat 64 (leOf ((p.data.drop 2).take 8))
                                            y := BitVec.ofNat 64 (leOf ((p.data.drop 10).take 8)) }] else []
    stage := .net (sliceRtr sl), born := s.now, arr := s.stamp, came := s.now }

/-- The state once a remote request has entered the grid. -/
def entered (s : State) (k : Nat) (p : SysPkt) (ctx pa : Nat) : State :=
  { s.bump with pkts := s.pkts.put s.stamp (servedPkt s p ctx pa)
                lodra := { s.lodra with serving := s.lodra.serving.put s.stamp (k, p.seq, p.akq) } }

theorem deliver_served {lease pa : Nat} (hop : p.op ≤ 6) (hl : s.liveLease (s.rteLctx f.route) p.addr (reqSpan p) (sysNeed p) = some lease)
    (ht : s.translate (s.rteLctx f.route) p.addr = some pa) : s.deliver k f p = entered s k p (s.rteLctx f.route) pa := by
  simp only [State.deliver, hl, ht]
  exact if_neg (by omega)

theorem deliver_refused (hop : p.op ≤ 6) (hl : s.liveLease (s.rteLctx f.route) p.addr (reqSpan p) (sysNeed p) = none) :
    s.deliver k f p = (s.respond f p.seq 0x13 [3]).rxDone k p.seq p.akq := by
  simp only [State.deliver, hl]
  exact if_neg (by omega)

/-- The conditions under which a packet of a flow is checked and kept (R61, R64). -/
structure Takes (s : State) (k : Nat) (f : RxFlow) (p : SysPkt) : Prop where
  arrives : s.arrives p = true
  flow : s.rxFlow p = (k, f, s)
  find : s.lodra.rx.find k = some f
  route : f.route = p.route
  marks : f.marks = []
  held : f.held = []
  plain : p.fm = false
  peer : s.rtePeer p.route = p.sdev
  cls : s.rteCls p.route = p.cls
  op : p.op ≤ 6
  near : smod p.seq f.next < s.rteRobn p.route

theorem remoteRequest_takes (h : Takes s k f p) :
    exec (.remoteRequest p) s = .next ((s.setRx k { f with held := [p] }).reorder k reorderSteps) := by
  have hop := h.op
  have h1 : ¬ 0x20 ≤ p.op := by omega
  have h2 : ¬ (0x10 ≤ p.op ∧ p.op ≤ 0x13) := by omega
  have h3 : ¬ s.rteRobn p.route ≤ smod p.seq f.next := Nat.not_le.2 h.near
  show execRemoteRequest p s = _
  simp [execRemoteRequest, h1, h2, h3, h.arrives, h.peer, h.cls, h.flow, h.marks, h.held, h.plain]

theorem remoteRequest_held (h : Takes s k f p) (hn : p.seq ≠ f.next) :
    exec (.remoteRequest p) s = .next { s with lodra := { s.lodra with rx := s.lodra.rx.put k { f with held := [p] } } } := by
  have hm := h.marks
  rw [remoteRequest_takes h, reorder_stops (rx_setRx _ _ _) (by simp [hm]) (by simpa using hn)]
  rfl

/-- Delivery of a packet next in its flow, then the move past its mark. -/
theorem remoteRequest_next (h : Takes s k f p) (hn : p.seq = f.next) :
    exec (.remoteRequest p) s = .next (((s.setRx k (delivering f)).deliver k (delivering f) p).reorder k 16385) := by
  rw [remoteRequest_takes h]
  show Host.Outcome.next ((s.setRx k { f with held := [p] }).reorder k (16385 + 1)) = _
  rw [reorder_held (f := { f with held := [p] }) (rx_setRx _ _ _) h.marks rfl hn, setRx_setRx]
  rfl

theorem remoteRequest_enters {lease pa : Nat} (h : Takes s k f p) (hn : p.seq = f.next)
    (hl : s.liveLease (s.rteLctx p.route) p.addr (reqSpan p) (sysNeed p) = some lease) (ht : s.translate (s.rteLctx p.route) p.addr = some pa) :
    Leaves s (.remoteRequest p) fun t => SameBytes s t ∧ t.ops = s.ops ∧
      t.lodra.rx.find k = some { f with next := (f.next + 1) % 2 ^ 24 } ∧ t.lodra.serving.find s.stamp = some (k, p.seq, p.akq) ∧
      ∃ q, t.pkts = s.pkts.put s.stamp q ∧ q.op = p.op ∧ q.ctx = s.rteLctx p.route ∧ q.addr = pa ∧ q.sep = 15 ∧ q.data = BitVec.ofNat 1024 (leOf (p.data.take 128)) := by
  have he := remoteRequest_next h hn
  rw [← h.route] at hl ht
  rw [deliver_served (s := s.setRx k (delivering f)) (f := delivering f) h.op hl ht,
    reorder_marked (s := entered (s.setRx k (delivering f)) k p _ pa) (f := delivering f) (rx_setRx s k (delivering f)) rfl rfl] at he
  have hf : ({ f with held := [], marks := [], next := (f.next + 1) % 2 ^ 24 } : RxFlow) = { f with next := (f.next + 1) % 2 ^ 24 } := by
    rw [← h.marks, ← h.held]
  refine ⟨_, he, sameBytes_of_msys rfl, rfl, (rx_setRx _ _ _).trans (congrArg some hf), SMap.find_put_self _ _ _,
    servedPkt s p (s.rteLctx f.route) pa, rfl, rfl, congrArg s.rteLctx h.route, rfl, rfl, rfl⟩

theorem remoteRequest_refused {n : Nat} (h : Takes s k f p) (hn : p.seq = f.next) (hl : s.liveLease (s.rteLctx p.route) p.addr (reqSpan p) (sysNeed p) = none)
    (hk : p.akq = false) (hs : f.sinceAck < 15) (hlive : (s.liveStrands p.route)[p.seq % (s.liveStrands p.route).length]? = some n) :
    Leaves s (.remoteRequest p) fun t => t.pkts = s.pkts ∧ SameBytes s t ∧
      ∃ q, (t.link n).wait = (s.link n).wait ++ [(p.route, q)] ∧ q.op = 0x13 ∧ q.seq = p.seq ∧ q.data = [3] := by
  have he := remoteRequest_next h hn
  rw [← h.route] at hl hlive ⊢
  let g : RxFlow := delivering f
  have hrx : ((s.setRx k g).respond g p.seq 0x13 [3]).lodra.rx.find k = some g := (congrArg (SMap.find · k) (onStrand_rx _ _ _)).trans (rx_setRx _ _ _)
  rw [deliver_refused (s := s.setRx k g) (f := g) h.op hl, hk, rxDone_quiet hrx hs] at he
  rw [reorder_marked (rx_setRx _ _ _) ((performed_marks _ _ _).trans (by rw [performed_next]; rfl)) (performed_held _ _ _), setRx_setRx] at he
  refine ⟨_, he, onStrand_pkts _ _ _, sameBytes_of_msys (onStrand_msys _ _ _), _, wait_onStrand (s := s.setRx k g) hlive, rfl, rfl, rfl⟩

theorem ackTimer_acks {since : Nat} (h : s.lodra.rx.find k = some f) (ho : f.oldest = some since) (hd : since + 1000 ≤ s.now) (ht : f.timed = false) :
    Leaves s (.ackTimer k) fun t =>
      (∃ g, t.lodra.rx = s.lodra.rx.put k g ∧ g = { f with sinceAck := 0, oldest := oldestOf f.performed, told := f.acked, timed := g.timed }) ∧ t = { s with lodra := t.lodra } ∧
      ∀ n, (s.liveStrands f.route)[0]? = some n → ∃ q, (t.link n).wait = (s.link n).wait ++ [(f.route, q)] ∧ q.op = 0x30 ∧ q.addr = (f.acked + 2 ^ 24 - 1) % 2 ^ 24 := by
  have he : exec (.ackTimer k) s = .next (s.sendAck k) := by
    show execAckTimer k s = _
    simp [execAckTimer, h, ho, hd, ht]
  obtain ⟨l, r, hrest⟩ := onlyFlows_sendAck s k
  refine ⟨_, he, ⟨told s f, ?_, rfl⟩, by rw [hrest], fun n hn => ⟨ackPkt s f, ?_, rfl, rfl⟩⟩
  · rw [sendAck_eq h]
    exact congrArg (SMap.put · k (told s f)) (onStrand_rx _ _ _)
  · rw [sendAck_eq h]
    exact wait_onStrand (by rwa [show (ackPkt s f).seq = 0 from rfl, Nat.zero_mod])

theorem freset_moves (ha : s.arrives p = true) (hf : s.rxFlow p = (k, f, s)) :
    let b := p.addr % 2 ^ 24
    let f' : RxFlow := { f with next := b, marks := [], held := [], performed := [], acked := b, sinceAck := 0, oldest := none, told := b, timed := false }
    let stale := s.lodra.serving.map fun (i, v) => (i, if v.1 = k then (0, v.2) else v)
    exec (.freset p) s = .next { s with lodra := { s.lodra with rx := s.lodra.rx.put k f', serving := stale } } := by
  intro b f' stale
  show execFreset p s = _
  simp only [execFreset, ha, hf] <;> rfl

end

/-! ## The sending side of a flow (R63, R66, R67) -/

section
variable {s : State} {k id : Nat} {f : TxFlow} {r : TxReq} {o : Op} {p : SysPkt}

/-- A change of the one request of a flow that goes on. -/
theorem updReq_kept (h : s.lodra.tx.find k = some f) (hr : f.reqs = [r]) {g : TxReq → TxReq} (ho : (g r).over = false) :
    s.updReq k r.seq g = { s with lodra := { s.lodra with tx := s.lodra.tx.upd k fun f => { f with reqs := [g r] } } } := by
  have hu := SMap.upd_congr (m := s.lodra.tx) (i := k) (f := fun t => { t with reqs := (mapIf (fun r' => r'.seq == r.seq) g t.reqs).filter fun r => !r.over })
    (g := fun f => { f with reqs := [g r] }) fun x hx => by
      obtain rfl : f = x := by simpa using h.symm.trans hx
      simp [hr, mapIf, ho]
  unfold State.updReq
  rw [hu]

/-- A change that ends the one request of a flow. -/
theorem updReq_over (h : s.lodra.tx.find k = some f) (hr : f.reqs = [r]) {g : TxReq → TxReq} (ho : (g r).over = true) :
    s.updReq k r.seq g = { s with lodra := { s.lodra with tx := s.lodra.tx.upd k fun f => { f with reqs := [] } } } := by
  have hu := SMap.upd_congr (m := s.lodra.tx) (i := k) (f := fun t => { t with reqs := (mapIf (fun r' => r'.seq == r.seq) g t.reqs).filter fun r => !r.over })
    (g := fun f => { f with reqs := [] }) fun x hx => by
      obtain rfl : f = x := by simpa using h.symm.trans hx
      simp [hr, mapIf, ho]
  unfold State.updReq
  rw [hu]

theorem ack_eq (ha : s.arrives p = true) (hf : s.txFind p.route p.srt p.sep p.cls = some (k, f)) (hr : f.reqs = [r]) (ho : s.ops.find r.op = some o) :
    exec (.ack p) s = .next (
      if r.acked = false ∧ f.covers p.addr r.seq = true then
        if o.kind.answered ∨ r.waits then s.updReq k r.seq fun r => { r with acked := true }
        else (s.updReq k r.seq fun r => { r with acked := true }).pktDone r.op
      else s) := by
  have ho' : (s.updReq k r.seq fun r => { r with acked := true }).ops.find r.op = some o := ho
  show execAck p s = _
  simp only [execAck, ha, hf, hr]
  by_cases hc : r.acked = false ∧ f.covers p.addr r.seq = true
  · rw [if_pos hc]
    simp [hc, ho']
  · rw [if_neg hc]
    have hc' : (!r.acked && f.covers p.addr r.seq) = false := by simpa using hc
    simp [hc']

theorem ack_ends (ha : s.arrives p = true) (hk : s.lodra.tx.find k = some f) (hf : s.txFind p.route p.srt p.sep p.cls = some (k, f)) (hr : f.reqs = [r])
    (ho : s.ops.find r.op = some o) (hl : 2 ≤ o.left) (hacked : r.acked = false) (hw : r.waits = false) (hans : o.kind.answered = false) (hc : f.covers p.addr r.seq = true) :
    Leaves s (.ack p) fun t => OneLess t r.op o none ∧ t.lodra.tx = s.lodra.tx.upd k (fun f => { f with reqs := [] }) ∧ SameBytes s t := by
  have he := ack_eq ha hf hr ho
  rw [if_pos ⟨hacked, hc⟩, if_neg (by simp [hans, hw]), updReq_over hk hr (by simp [TxReq.over, hw])] at he
  have ho' : ({ s with lodra := { s.lodra with tx := s.lodra.tx.upd k fun f => { f with reqs := [] } } } : State).ops.find r.op = some o := ho
  have hrest := pktDone_rest ho' hl
  exact ⟨_, he, oneLess_pktDone ho' hl, (congrArg (fun t : State => t.lodra.tx) hrest).trans rfl, sameBytes_of_msys ((congrArg State.msys hrest).trans rfl)⟩

theorem ack_other (ha : s.arrives p = true) (hf : s.txFind p.route p.srt p.sep p.cls = some (k, f)) (hr : f.reqs = [r])
    (ho : s.ops.find r.op = some o) (hc : f.covers p.addr r.seq = false) : exec (.ack p) s = .next s := by
  rw [ack_eq ha hf hr ho, if_neg (by simp [hc])]

/-! ### Responses (R37, R63) -/

theorem answerIn_eq (hf : s.txFind p.route p.srt p.sep p.cls = some (k, f)) (hr : f.reqs = [r]) (ho : s.ops.find r.op = some o) (hs : p.seq = r.seq) :
    s.answerIn p = (if p.op = 0x13 then s.updReq k p.seq fun r => { r with waits := true } else s).byGateway o r.op p.route p false := by
  simp [State.answerIn, hf, hr, hs, ho]

theorem remoteRequest_answers (ha : s.arrives p = true) (hk : s.lodra.tx.find k = some f) (hf : s.txFind p.route p.srt p.sep p.cls = some (k, f)) (hr : f.reqs = [r])
    (ho : s.ops.find r.op = some o) (h1 : 0x10 ≤ p.op) (h2 : p.op ≤ 0x13) (hs : p.seq = r.seq) : Leaves s (.remoteRequest p) fun t =>
      t = { s with pkts := t.pkts, stamp := t.stamp, lodra := { s.lodra with tx := t.lodra.tx } } ∧
      t.lodra.tx = (if p.op = 0x13 then s.lodra.tx.upd k (fun f => { f with reqs := [{ r with waits := true }] }) else s.lodra.tx) ∧
      ∃ q, t.pkts = s.pkts.put s.stamp q ∧ q.op = p.op ∧ q.drt = p.srt ∧ q.dep = p.sep ∧ q.sep = 15 ∧ q.stage = .net p.srt ∧ q.sys = some (p.route, p) := by
  have h3 : ¬ 0x20 ≤ p.op := by omega
  have he : exec (.remoteRequest p) s = .next (s.answerIn p) := by
    show execRemoteRequest p s = _
    simp [execRemoteRequest, ha, h1, h2, h3]
  rw [answerIn_eq hf hr ho hs] at he
  refine ⟨_, he, ?_⟩
  split
  · rw [hs, updReq_kept hk hr (by simp [TxReq.over])]
    exact ⟨rfl, rfl, _, rfl, rfl, rfl, rfl, rfl, rfl, rfl⟩
  · exact ⟨rfl, rfl, _, rfl, rfl, rfl, rfl, rfl, rfl, rfl⟩

/-- The key of a load once one more of its lines is bound (R192). -/
def boundKey (s : State) (o : Op) : Option RtEntry :=
  match o.key with
  | some k => if o.got.isEmpty then some { k with epoch := (s.core o.core).epoch } else if k.epoch = (s.core o.core).epoch then some k else none
  | none => none

/-- The value of a line that is not poisoned returns to an operation. -/
theorem bindLine_clean (ho : s.ops.find id = some o) (hk : o.kind ≠ .fill) (ln : Nat) (d : Line) :
    s.bindLine id ln d 0 = ({ s with ops := s.ops.put id { o with got := o.got.put ln d, key := boundKey s o } } : State).pktDone id := by
  have hp (o : Op) : ¬ o.meetsPoison ln 0 = true := by simp [Op.meetsPoison]
  simp only [State.bindLine, ho]
  exact (if_neg (hp _)).trans (congrArg (State.pktDone · id) (if_neg hk))

/-- So it does to one that waits for more: nothing but the operation changes. -/
theorem bindLine_bound (ho : s.ops.find id = some o) (hl : 2 ≤ o.left) (hk : o.kind ≠ .fill) (ln : Nat) (d : Line) :
    ∃ e, s.bindLine id ln d 0 = { s with ops := (s.bindLine id ln d 0).ops } ∧
      (s.bindLine id ln d 0).ops.find id = some { o with left := o.left - 1, got := o.got.put ln d, key := e } := by
  have he := bindLine_clean ho hk ln d
  let o' : Op := { o with got := o.got.put ln d, key := boundKey s o }
  have ho' : ({ s with ops := s.ops.put id o' } : State).ops.find id = some o' := SMap.find_put_self _ _ _
  rw [pktDone_eq ho' hl] at he
  rw [he]
  exact ⟨boundKey s o, rfl, SMap.find_put_self _ _ _⟩

/-! ### Responses at the core (R34, R63) -/

/-- A response from a link that has come to its core. -/
structure FarAtCore (s : State) (id : Nat) (q : Pkt) (p : SysPkt) (op : Nat) : Prop where
  here : s.pkts.find id = some q
  stage : q.stage = .core
  op : q.op = op
  own : s.lodra.serving.find id = none
  far : ∃ route, q.sys = some (route, p)

theorem atCore_far {q : Pkt} {op : Nat} (h : FarAtCore s id q p op) (F : Pkt → State) : s.atCore id op F = .next ((s.dropPkt id).remoteAnswer p q.poison) := by
  obtain ⟨route, hfar⟩ := h.far
  simp [State.atCore, h.here, h.stage, h.op, h.own, hfar]

theorem atCore_near {q : Pkt} {op : Nat} (h : AtCore s id q op) (F : Pkt → State) : s.atCore id op F = .next (F q) := by
  simp [State.atCore, h.here, h.stage, h.op, h.own, h.near]

theorem readData_far {q : Pkt} (h : FarAtCore s id q p 0x10) (hf : s.txFind p.route p.srt p.sep p.cls = some (k, f)) (hr : f.reqs = [r])
    (ho : s.ops.find r.op = some o) (hl : 2 ≤ o.left) (hpo : q.poison = 0) (hkind : o.kind ≠ .fill) (hop : p.op = 0x10) (hs : p.seq = r.seq) (hw : r.waits = true) :
    Leaves s (.readData id) fun t => SameBytes s t ∧ t.pkts = s.pkts.erase id ∧
      ∃ e, t.ops.find r.op = some { o with left := o.left - 1, got := o.got.put r.item (BitVec.ofNat 1024 (leOf p.data)), key := e } := by
  have hf' : (s.dropPkt id).txFind p.route p.srt p.sep p.cls = some (k, f) := hf
  let u := (s.dropPkt id).updReq k r.seq fun r => { r with waits := false }
  have ho' : u.ops.find r.op = some o := ho
  have ha : (s.dropPkt id).remoteAnswer p q.poison = u.bindLine r.op r.item (BitVec.ofNat 1024 (leOf p.data)) 0 := by
    simp [State.remoteAnswer, hf', hr, hs, hop, hw, hpo, u]
  obtain ⟨e, hrest, hop'⟩ := bindLine_bound ho' hl hkind r.item (BitVec.ofNat 1024 (leOf p.data))
  exact ⟨_, (atCore_far h _).trans (congrArg Host.Outcome.next ha), sameBytes_of_msys ((congrArg State.msys hrest).trans rfl), (congrArg State.pkts hrest).trans rfl, e, hop'⟩

theorem accessFault_far {q : Pkt} (h : FarAtCore s id q p 0x13) (hf : s.txFind p.route p.srt p.sep p.cls = some (k, f)) (hr : f.reqs = [r])
    (ho : s.ops.find r.op = some o) (hl : 2 ≤ o.left) (hop : p.op = 0x13) (hs : p.seq = r.seq) (hd : p.data = [3]) :
    Leaves s (.accessFault id) fun t => SameBytes s t ∧ t.pkts = s.pkts.erase id ∧ ∃ va, OneLess t r.op o (some (3, va, 0)) := by
  have hf' : (s.dropPkt id).txFind p.route p.srt p.sep p.cls = some (k, f) := hf
  let u := (s.dropPkt id).updReq k r.seq fun r => { r with waits := false, op := 0 }
  have ho' : u.ops.find r.op = some o := ho
  have ha : ∃ va, (s.dropPkt id).remoteAnswer p q.poison = u.pktFail r.op 3 va 0 := ⟨_, by
    simp only [State.remoteAnswer, hf', hr, hs, hop, hd, u, List.find?_cons, beq_self_eq_true, if_true]
    rfl⟩
  obtain ⟨va, ha⟩ := ha
  have hrest := pktFail_rest ho' hl 3 va 0
  exact ⟨_, (atCore_far h _).trans (congrArg Host.Outcome.next ha), sameBytes_of_msys ((congrArg State.msys hrest).trans rfl), (congrArg State.pkts hrest).trans rfl,
    va, oneLess_pktFail ho' hl _ _ _⟩

theorem flowTimeout_fails (hk : s.lodra.tx.find k = some f) (hr : f.reqs = [r]) (ho : s.ops.find r.op = some o) (hl : 2 ≤ o.left) (hacked : r.acked = false)
    (hd : r.issued + 1000 * s.rfld .lcfg 16 24 ≤ s.now) : Leaves s (.flowTimeout k) fun t =>
      OneLess t r.op o (some (5, 0, 0)) ∧ t.lodra.tx = s.lodra.tx.upd k (fun f => { f with base := f.next, reqs := [] }) ∧ SameBytes s t ∧
      ∀ n, (s.liveStrands f.route)[0]? = some n → ∃ q, (t.link n).wait = (s.link n).wait ++ [(f.route, q)] ∧ q.op = 0x35 ∧ q.addr = f.next := by
  have hrest := pktFail_rest ho hl 5 0 0
  let u : State := { s.pktFail r.op 5 0 0 with lodra := { (s.pktFail r.op 5 0 0).lodra with tx := (s.pktFail r.op 5 0 0).lodra.tx.upd k fun f =>
        { f with base := f.next, reqs := f.reqs.filter fun r => !(!r.acked && decide (r.issued + 1000 * s.rfld .lcfg 16 24 ≤ s.now)) } } }
  let q : SysPkt := { ddev := u.rtePeer f.route, sdev := u.devId, srt := f.srt, sep := f.sep, route := u.rteRidx f.route
                      cls := f.cls, fm := false, seq := 0, op := 0x35, addr := f.next, akq := false, data := [] }
  have he : exec (.flowTimeout k) s = .next (u.onStrand f.route q) := by
    show execFlowTimeout k s = _
    simp only [execFlowTimeout, hk, hr]
    simp [hacked, hd, u, q]
  have hregs : u.regs = s.regs := (congrArg State.regs hrest).trans rfl
  have htx : u.lodra.tx = s.lodra.tx.upd k (fun f => { f with base := f.next, reqs := [] }) := by
    show (s.pktFail r.op 5 0 0).lodra.tx.upd k _ = _
    rw [hrest]
    refine SMap.upd_congr fun x hx => ?_
    obtain rfl : f = x := by simpa using hk.symm.trans hx
    simp [hr, hacked, hd]
  refine ⟨_, he, ?_, (onStrand_tx _ _ _).trans htx, sameBytes_of_msys ((onStrand_msys _ _ _).trans ((congrArg State.msys hrest).trans rfl)), fun n hn => ⟨q, ?_, rfl, rfl⟩⟩
  · exact (congrArg (SMap.find · r.op) (onStrand_ops u f.route q)).trans (oneLess_pktFail ho hl 5 0 0)
  · have hlink : u.link n = s.link n := (congrArg (fun t : State => t.link n) hrest).trans rfl
    rw [wait_onStrand (by rw [liveStrands_of_regs hregs]; exact hn), hlink]

end

/-! ## Responses of the core's own requests (R34, R156, R180) -/

section
variable {s : State} {id : Nat} {p : Pkt} {o : Op}

/-- A load that has seen a write on its way keeps all but its key. -/
theorem saw_op {ln : Nat} (ho : s.ops.find id = some o) : ∃ e, (s.saw id ln).ops.find id = some { o with key := e } := by
  simp only [State.saw, ho]
  split
  · exact ⟨o.key, ho⟩
  · exact ⟨none, SMap.find_put_self _ _ _⟩

theorem saw_rest (s : State) (id ln : Nat) : s.saw id ln = { s with cores := (s.saw id ln).cores, ops := (s.saw id ln).ops } := by
  unfold State.saw
  split
  · rfl
  · dsimp only
    split <;> rfl

/-- The state once a core has the line that it read. -/
def lineTaken (s : State) (id : Nat) (p : Pkt) (o : Op) : State :=
  if o.kind.throughL1 ∧ s.l1Mask p.ctx ≠ 0 ∧ !p.noAlloc then
    (s.dropPkt id).bump.updCore p.core fun c => c.l1Alloc (s.l1Mask p.ctx) (s.ctxSg p.ctx) p.line p.data p.poison s.stamp
  else s.dropPkt id

theorem lineTaken_rest (s : State) (id : Nat) (p : Pkt) (o : Op) : lineTaken s id p o =
    { s.dropPkt id with cores := (lineTaken s id p o).cores, stamp := (lineTaken s id p o).stamp } := by
  unfold lineTaken
  split <;> rfl

theorem takeData_eq (ho : s.ops.find p.opId = some o) : s.takeData id p = ((lineTaken s id p o).saw p.opId p.line).bindLine p.opId (p.va / 128) p.data p.poison := by
  have ho' : (s.dropPkt id).ops.find p.opId = some o := ho
  simp only [State.takeData, ho']
  rfl

theorem readData_near (h : AtCore s id p 0x10) (ho : s.ops.find p.opId = some o) (hl : 2 ≤ o.left) (hpo : p.poison = 0) (hk : o.kind ≠ .fill) :
    Leaves s (.readData id) fun t => t.pkts = s.pkts.erase id ∧ SameBytes s t ∧
      ∃ e, t.ops.find p.opId = some { o with left := o.left - 1, got := o.got.put (p.va / 128) p.data, key := e } := by
  have htaken := lineTaken_rest s id p o
  have hsaw := saw_rest (lineTaken s id p o) p.opId p.line
  have ho' : (lineTaken s id p o).ops.find p.opId = some o := (congrArg (fun t : State => t.ops.find p.opId) htaken).trans ho
  obtain ⟨e, he⟩ := saw_op (ln := p.line) ho'
  obtain ⟨e', hrest, hop⟩ := bindLine_bound he hl hk (p.va / 128) p.data
  have heq : s.takeData id p = ((lineTaken s id p o).saw p.opId p.line).bindLine p.opId (p.va / 128) p.data 0 := by rw [takeData_eq ho, hpo]
  refine ⟨_, (atCore_near h _).trans (congrArg Host.Outcome.next heq), ?_, sameBytes_of_msys ?_, e', hop⟩
  · exact (congrArg State.pkts hrest).trans ((congrArg State.pkts hsaw).trans ((congrArg State.pkts htaken).trans rfl))
  · exact (congrArg State.msys hrest).trans ((congrArg State.msys hsaw).trans ((congrArg State.msys htaken).trans rfl))

/-! ### Acknowledgements and old values (R156) -/

/-- A map that is changed entry by entry. -/
theorem find_map_entries {α β : Type} (m : SMap α) (g : Nat → α → β) (k : Nat) : SMap.find (m.map fun e => (e.1, g e.1 e.2)) k = (SMap.find m k).map (g k) := by
  induction m with
  | nil => rfl
  | cons e m ih =>
    simp only [List.map_cons, SMap.find]
    split
    · next h => rw [h]; rfl
    · exact ih

/-- A packet has come to its core: of the others only it can change that L1 takes their data. -/
def Consumed (s t : State) (id : Nat) : Prop :=
  t.pkts.find id = none ∧ ∀ k, k ≠ id → ∃ b, t.pkts.find k = (s.pkts.find k).map fun (q : Pkt) => { q with noAlloc := b }

/-- Packets are kept but for whether L1 takes their data. -/
def SamePkts (s t : State) : Prop := ∀ k, ∃ b, t.pkts.find k = (s.pkts.find k).map fun (q : Pkt) => { q with noAlloc := b }

theorem samePkts_of_eq {s t : State} (h : t.pkts = s.pkts) : SamePkts s t := fun k => by
  rw [h]
  cases hk : s.pkts.find k with
  | none => exact ⟨false, rfl⟩
  | some q => exact ⟨q.noAlloc, rfl⟩

theorem samePkts_trans {s t u : State} (h : SamePkts s t) (h' : SamePkts t u) : SamePkts s u := fun k => by
  obtain ⟨b, hb⟩ := h k
  obtain ⟨b', hb'⟩ := h' k
  refine ⟨b', hb'.trans ?_⟩
  rw [hb, Option.map_map]
  rfl

theorem samePkts_marked {s t : State} {c : Pkt → Prop} [DecidablePred c] (h : t.pkts = s.pkts.map fun (i, (q : Pkt)) => (i, if c q then { q with noAlloc := true } else q)) :
    SamePkts s t := fun k => by
  have hfind := find_map_entries s.pkts (fun _ (q : Pkt) => if c q then { q with noAlloc := true } else q) k
  rw [h]
  cases hk : s.pkts.find k with
  | none => exact ⟨false, hfind.trans (by rw [hk]; rfl)⟩
  | some q =>
    rw [hk] at hfind
    by_cases hc : c q
    · exact ⟨true, hfind.trans (congrArg some (if_pos hc))⟩
    · exact ⟨q.noAlloc, hfind.trans (congrArg some (if_neg hc))⟩

theorem samePkts_clearAfter (s : State) (id : Nat) (p : Pkt) : SamePkts s (s.clearAfter id p) :=
  samePkts_marked (c := fun q => q.sys.isNone ∧ q.op = 0x10 ∧ q.core = p.core ∧ q.line = p.line) rfl

theorem samePkts_dropLine (s : State) (core sg line : Nat) : SamePkts s (s.dropLine core sg line) :=
  samePkts_marked (c := fun q => q.core = core ∧ q.opId ≠ 0 ∧ s.ctxSg q.ctx = sg ∧ (q.addr / 128 == line) = true) rfl

theorem consumed_of {t : State} (h : SamePkts (s.dropPkt id) t) : Consumed s t id := by
  constructor
  · obtain ⟨b, hb⟩ := h id
    rw [hb]
    show Option.map _ ((s.pkts.erase id).find id) = _
    rw [SMap.find_erase, if_pos rfl]
    rfl
  · intro k hk
    obtain ⟨b, hb⟩ := h k
    refine ⟨b, hb.trans ?_⟩
    show Option.map _ ((s.pkts.erase id).find k) = _
    rw [SMap.find_erase, if_neg hk]

/-- The state once an acknowledgement has invalidated what L1 has taken of its line. -/
def lineCleared (s : State) (id : Nat) (p : Pkt) (o : Op) : State :=
  if o.kind.engine then ((s.dropPkt id).clearAfter id p).dropLine p.core ((s.dropPkt id).ctxSg p.ctx) p.line
  else if o.kind = .pref ∨ o.kind.atGateway then s.dropPkt id
  else (s.dropPkt id).clearAfter id p

theorem lineCleared_rest (s : State) (id : Nat) (p : Pkt) (o : Op) : lineCleared s id p o =
    { s with cores := (lineCleared s id p o).cores, pkts := (lineCleared s id p o).pkts } := by
  unfold lineCleared
  split
  · rfl
  · split <;> rfl

theorem samePkts_lineCleared (s : State) (id : Nat) (p : Pkt) (o : Op) : SamePkts (s.dropPkt id) (lineCleared s id p o) := by
  unfold lineCleared
  split
  · exact samePkts_trans (samePkts_clearAfter _ id p) (samePkts_dropLine _ _ _ _)
  · split
    · exact samePkts_of_eq rfl
    · exact samePkts_clearAfter _ id p

theorem takeAck_eq (ho : s.ops.find p.opId = some o) : s.takeAck id p =
    if p.poison ≠ 0 then (lineCleared s id p o).pktFail p.opId 6 (BitVec.ofNat 64 p.va) 0 else (lineCleared s id p o).pktDone p.opId := by
  have ho' : (s.dropPkt id).ops.find p.opId = some o := ho
  simp only [State.takeAck, ho']
  rfl

theorem writeAcknowledgement_near (h : AtCore s id p 0x11) (ho : s.ops.find p.opId = some o) (hl : 2 ≤ o.left) :
    Leaves s (.writeAcknowledgement id) fun t => Consumed s t id ∧ SameBytes s t ∧
      OneLess t p.opId o (if p.poison = 0 then none else some (6, BitVec.ofNat 64 p.va, 0)) := by
  have hc := lineCleared_rest s id p o
  have ho' : (lineCleared s id p o).ops.find p.opId = some o := (congrArg (fun t : State => t.ops.find p.opId) hc).trans ho
  have hmsys : (lineCleared s id p o).msys = s.msys := (congrArg State.msys hc).trans rfl
  have hpk := samePkts_lineCleared s id p o
  by_cases hpo : p.poison = 0
  · have heq := takeAck_eq (id := id) ho
    rw [if_neg (not_not.2 hpo)] at heq
    have hrest := pktDone_rest ho' hl
    refine ⟨_, (atCore_near h _).trans (congrArg Host.Outcome.next heq), consumed_of (samePkts_trans hpk (samePkts_of_eq ((congrArg State.pkts hrest).trans rfl))),
      sameBytes_of_msys (((congrArg State.msys hrest).trans rfl).trans hmsys), ?_⟩
    rw [if_pos hpo]
    exact oneLess_pktDone ho' hl
  · have heq := takeAck_eq (id := id) ho
    rw [if_pos hpo] at heq
    have hrest := pktFail_rest ho' hl 6 (BitVec.ofNat 64 p.va) 0
    refine ⟨_, (atCore_near h _).trans (congrArg Host.Outcome.next heq), consumed_of (samePkts_trans hpk (samePkts_of_eq ((congrArg State.pkts hrest).trans rfl))),
      sameBytes_of_msys (((congrArg State.msys hrest).trans rfl).trans hmsys), ?_⟩
    rw [if_neg hpo]
    exact oneLess_pktFail ho' hl _ _ _

/-- The state once an old value's line has been cleared and seen. -/
def oldSeen (s : State) (id : Nat) (p : Pkt) : State := ((s.dropPkt id).clearAfter id p).saw p.opId p.line

theorem oldSeen_op (ho : s.ops.find p.opId = some o) : ∃ e, (oldSeen s id p).ops.find p.opId = some { o with key := e } := saw_op (s := (s.dropPkt id).clearAfter id p) ho

theorem samePkts_oldSeen (s : State) (id : Nat) (p : Pkt) : SamePkts (s.dropPkt id) (oldSeen s id p) :=
  samePkts_trans (samePkts_clearAfter _ id p) (samePkts_of_eq ((congrArg State.pkts (saw_rest ((s.dropPkt id).clearAfter id p) p.opId p.line)).trans rfl))

theorem oldSeen_msys (s : State) (id : Nat) (p : Pkt) : (oldSeen s id p).msys = s.msys :=
  (congrArg State.msys (saw_rest ((s.dropPkt id).clearAfter id p) p.opId p.line)).trans rfl

theorem atomicResult_old {l : LaneAcc} (h : AtCore s id p 0x12) (ho : s.ops.find p.opId = some o) (hl : 2 ≤ o.left) (hpo : p.poison = 0) (hlanes : p.lanes = [l]) :
    Leaves s (.atomicResult id) fun t => Consumed s t id ∧ SameBytes s t ∧
      ∃ e, t.ops.find p.opId = some { o with left := o.left - 1, olds := o.olds.put l.lane l.x, key := e } := by
  obtain ⟨e, he⟩ := oldSeen_op (id := id) ho
  let u : State := { oldSeen s id p with ops := (oldSeen s id p).ops.upd p.opId fun o => { o with olds := o.olds.put l.lane l.x } }
  have heq : s.takeOld id p = u.pktDone p.opId := by
    unfold State.takeOld
    dsimp only
    rw [if_neg (not_not.2 hpo), hlanes]
    rfl
  have hu : u.ops.find p.opId = some { o with olds := o.olds.put l.lane l.x, key := e } := by
    show ((oldSeen s id p).ops.upd p.opId _).find p.opId = _
    rw [SMap.find_upd, if_pos rfl, he]
    rfl
  have hrest := pktDone_rest hu hl
  refine ⟨_, (atCore_near h _).trans (congrArg Host.Outcome.next heq), consumed_of (samePkts_trans (samePkts_oldSeen s id p) (samePkts_of_eq ((congrArg State.pkts hrest).trans rfl))),
    sameBytes_of_msys (((congrArg State.msys hrest).trans rfl).trans (oldSeen_msys s id p)), e, ?_⟩
  rw [pktDone_eq hu hl]
  exact SMap.find_put_self _ _ _

theorem atomicResult_poisoned (h : AtCore s id p 0x12) (ho : s.ops.find p.opId = some o) (hl : 2 ≤ o.left) (hpo : p.poison ≠ 0) :
    Leaves s (.atomicResult id) fun t => Consumed s t id ∧ ∃ e, OneLess t p.opId { o with key := e } (some (6, BitVec.ofNat 64 p.va, 0)) := by
  obtain ⟨e, he⟩ := oldSeen_op (id := id) ho
  have heq : s.takeOld id p = (oldSeen s id p).pktFail p.opId 6 (BitVec.ofNat 64 p.va) 0 := if_pos hpo
  have hrest := pktFail_rest he hl 6 (BitVec.ofNat 64 p.va) 0
  exact ⟨_, (atCore_near h _).trans (congrArg Host.Outcome.next heq), consumed_of (samePkts_trans (samePkts_oldSeen s id p) (samePkts_of_eq ((congrArg State.pkts hrest).trans rfl))),
    e, oneLess_pktFail he hl _ _ _⟩

theorem accessFault_near (h : AtCore s id p 0x13) (ho : s.ops.find p.opId = some o) (hl : 2 ≤ o.left) :
    Leaves s (.accessFault id) fun t => t.pkts = s.pkts.erase id ∧ OneLess t p.opId o (some (3, BitVec.ofNat 64 p.va, 0)) := by
  have ho' : (s.dropPkt id).ops.find p.opId = some o := ho
  exact ⟨_, atCore_near h _, (congrArg State.pkts (pktFail_rest ho' hl 3 (BitVec.ofNat 64 p.va) 0)).trans rfl, oneLess_pktFail ho' hl _ _ _⟩

/-! ### Answers of the grid to remote requests (R63) -/

/-- What the end of a remote request served here leaves. -/
def Served (s t : State) (id : Nat) : Prop :=
  t.pkts = s.pkts.erase id ∧ t.lodra.serving = s.lodra.serving.erase id ∧ t.ops = s.ops ∧ SameBytes s t

theorem served_serveDone (s : State) (id : Nat) (p : Pkt) (v : Nat × Nat × Bool) : Served s (s.serveDone id p v) id := by
  let u : State := { s.dropPkt id with lodra := { s.lodra with serving := s.lodra.serving.erase id } }
  have h : OnlyFlows u (s.serveDone id p v) := by
    unfold State.serveDone
    dsimp only
    split
    · exact onlyFlows_refl u
    · next f _ =>
      refine onlyFlows_trans ?_ (onlyFlows_rxDone _ _ _ _)
      split_ifs
      · exact onlyFlows_onStrand u _ _
      · exact onlyFlows_onStrand u _ _
      · exact onlyFlows_onStrand u _ _
      · exact onlyFlows_refl u
  obtain ⟨l, r, h⟩ := h
  rw [h]
  exact ⟨rfl, rfl, rfl, sameBytes_of_msys rfl⟩

theorem atCore_served {v : Nat × Nat × Bool} {op : Nat} (h : s.pkts.find id = some p) (hst : p.stage = .core) (hv : s.lodra.serving.find id = some v) (hop : p.op = op)
    (F : Pkt → State) : ∃ t, s.atCore id op F = .next t ∧ Served s t id := by
  refine ⟨s.serveDone id p v, ?_, served_serveDone s id p v⟩
  simp [State.atCore, h, hst, hv, hop]

end

/-- Settles O43: each event's state written out from the lemmas on its flow or its operation. -/
theorem remoteFlows : Obligations.RemoteFlows := by
  intro s
  refine ⟨fun p k f ha hk hfind => ⟨fun hm hh hfm hpeer hcls hop hnear => ?_, freset_moves ha (rxFlow_of hfind), fun since ho hd ht => ackTimer_acks hk ho hd ht⟩,
    fun p k f r o ha hk hf hr ho => ⟨fun hl hacked hw hans hseq hbase => ?_, fun hseq hbase => ?_, fun h1 h2 hs => remoteRequest_answers ha hk hf hr ho h1 h2 hs,
      fun id q route hl hq hst hop hown hsys hpo hkind hpop hs hw => ?_, fun id q route hl hq hst hop hown hsys hpop hs hd => ?_⟩,
    fun k f r o hk hr ho hl hacked hd => flowTimeout_fails hk hr ho hl hacked hd, fun id p o ho hl => ?_, fun id p v hp hst hv => ?_⟩
  · have h : Takes s k f p := ⟨ha, rxFlow_of hfind, hk, route_of_found hfind, hm, hh, hfm, hpeer, hcls, hop, hnear⟩
    exact ⟨remoteRequest_held h, fun lease pa hn hl ht => remoteRequest_enters h hn hl ht, fun n hn hl hakq hs hlive => remoteRequest_refused h hn hl hakq hs hlive⟩
  · refine ack_ends ha hk hf hr ho hl hacked hw hans ?_
    simp only [TxFlow.covers, Bool.and_eq_true, Bool.or_eq_true, decide_eq_true_eq, Bool.not_eq_true', decide_eq_false_iff_not]
    omega
  · refine ack_other ha hf hr ho ?_
    have h1 : decide (smod r.seq f.base < 2 ^ 23) = false := decide_eq_false (Nat.not_lt.2 hseq)
    have h2 : decide (smod p.addr f.base < 2 ^ 23) = true := decide_eq_true hbase
    rw [TxFlow.covers, h1, h2, Bool.not_true, Bool.or_false, Bool.and_false]
  · exact readData_far ⟨hq, hst, hop, hown, route, hsys⟩ hf hr ho hl hpo hkind hpop hs hw
  · exact accessFault_far ⟨hq, hst, hop, hown, route, hsys⟩ hf hr ho hl hpop hs hd
  · exact ⟨fun h hpo hk => readData_near h ho hl hpo hk, fun h => writeAcknowledgement_near h ho hl, fun l h hpo hlanes => atomicResult_old h ho hl hpo hlanes,
      fun h hpo => atomicResult_poisoned h ho hl hpo, fun h => accessFault_near h ho hl⟩
  · exact ⟨fun hop => atCore_served hp hst hv hop _, fun hop => atCore_served hp hst hv hop _, fun hop => atCore_served hp hst hv hop _, fun hop => atCore_served hp hst hv hop _⟩

end Sys2Proof.NetworkProofs

namespace Sys2Proof.NetworkProofs
open Sys2Proof Sys2Proof.Machine Sys2Proof.BringUpProofs

/-! ## Settled replies (R90) -/

/-- Of a state only what goes out at the host port and its counts change. -/
def OnlyOut (s t : State) : Prop := ∃ h m, t = { s with host := h, mon := m }

theorem onlyOut_trans {s t u : State} (h : OnlyOut s t) (h' : OnlyOut t u) : OnlyOut s u := by
  obtain ⟨x, m, rfl⟩ := h
  obtain ⟨x', m', rfl⟩ := h'
  exact ⟨x', m', rfl⟩

theorem emitOut_replies (s : State) (o : Out) : (s.emitOut o).host.replies = s.host.replies := by
  unfold State.emitOut
  split <;> rfl

theorem onlyOut_emits (rs : List (W64 × List Instr)) (s : State) : OnlyOut s (rs.foldl (fun s r => s.emitOut (.mgmtReply r.1 0 [])) s) := by
  induction rs generalizing s with
  | nil => exact ⟨s.host, s.mon, rfl⟩
  | cons r rs ih => exact onlyOut_trans ⟨_, _, emitOut_frame s _⟩ (ih _)

theorem onlyOut_answerSettled (s : State) (rs : List (W64 × List Instr)) : OnlyOut s (s.answerSettled rs) :=
  onlyOut_trans ⟨_, _, rfl⟩ (onlyOut_emits _ { s with host := { s.host with replies := rs.filter fun r => !r.2.isEmpty } })

theorem replies_answerSettled (s : State) (rs : List (W64 × List Instr)) : (s.answerSettled rs).host.replies = rs.filter fun r => !r.2.isEmpty :=
  foldl_keeps (f := fun (t : State) (r : W64 × List Instr) => t.emitOut (.mgmtReply r.1 0 [])) (fun t : State => t.host.replies)
    (fun t r => emitOut_replies t (.mgmtReply r.1 0 [])) _ { s with host := { s.host with replies := rs.filter fun r => !r.2.isEmpty } }

theorem onlyOut_settle (s : State) (i : Instr) : OnlyOut s (s.settle i) := onlyOut_answerSettled s _

/-- No answer waits for what has settled. -/
theorem not_mem_settle (s : State) (i : Instr) : ∀ e ∈ (s.settle i).host.replies, i ∉ e.2 := by
  intro e he
  unfold State.settle at he
  rw [replies_answerSettled] at he
  obtain ⟨r, _, rfl⟩ := List.mem_map.1 (List.mem_filter.1 he).1
  simp

theorem onlyOut_settleLast (s : State) (i : Instr) : OnlyOut s (s.settleLast i) := by
  unfold State.settleLast
  split
  · exact ⟨s.host, s.mon, rfl⟩
  · exact onlyOut_answerSettled s _

/-! ## A new partition geometry (R42) -/

section
variable {s : State} {n : Nat}

/-- Whether a flit of a partition is under way. -/
def flying (s : State) (n : Nat) : Bool := s.pkts.any fun e => e.2.part == n && match e.2.stage with | .net _ => true | _ => false

theorem flying_iff : flying s n = true ↔ ∃ e ∈ s.pkts, e.2.part = n ∧ ∃ r, e.2.stage = .net r := by
  unfold flying
  rw [List.any_eq_true]
  refine exists_congr fun e => and_congr_right fun _ => ?_
  rw [Bool.and_eq_true, beq_iff_eq]
  refine and_congr_right fun _ => ?_
  cases e.2.stage <;> simp

/-- The reservations of a partition once its geometry is the new one. -/
def newSlew (s : State) (n : Nat) : SMap Slew :=
  let inside (r : Resv) : Bool := s.partHasUnit n (unitOfCore r.core)
  if s.partValid n then s.slew.put n { s.slew.get {} n with held := (s.slew.get {} n).held.filter inside, pending := (s.slew.get {} n).pending.filter inside } else s.slew.erase n

theorem partitionTableChange_eq (h : ∃ e ∈ s.host.replies, Instr.partitionTableChange n ∈ e.2) : exec (.partitionTableChange n) s =
    .next (if flying s n then { s with slew := newSlew s n } else ({ s with slew := newSlew s n } : State).settle (.partitionTableChange n)) := by
  have hnew : (s.host.replies.any fun e => e.2.contains (.partitionTableChange n)) = true := by
    obtain ⟨e, he, hi⟩ := h
    exact List.any_eq_true.2 ⟨e, he, by simpa using hi⟩
  exact if_neg (by rw [hnew]; decide)

theorem partitionTableChange_completes (h : ∃ e ∈ s.host.replies, Instr.partitionTableChange n ∈ e.2) : Leaves s (.partitionTableChange n) fun t =>
    (s.partValid n = false → t.slew.find n = none) ∧
    ((∀ e ∈ s.pkts, e.2.part = n → ∀ r, e.2.stage ≠ .net r) → ∀ e ∈ t.host.replies, Instr.partitionTableChange n ∉ e.2) ∧
    ((∃ e ∈ s.pkts, e.2.part = n ∧ ∃ r, e.2.stage = .net r) → t = { s with slew := t.slew }) := by
  have he := partitionTableChange_eq h
  have hslew (hv : s.partValid n = false) : (newSlew s n).find n = none := by
    simp [newSlew, hv, SMap.find_erase]
  refine ⟨_, he, ?_⟩
  by_cases hf : flying s n = true
  · rw [if_pos hf]
    obtain ⟨e, hmem, hpart, r, hr⟩ := flying_iff.1 hf
    exact ⟨hslew, fun hn => absurd hr (hn e hmem hpart r), fun _ => rfl⟩
  · rw [if_neg hf]
    obtain ⟨x, m, hout⟩ := onlyOut_settle { s with slew := newSlew s n } (.partitionTableChange n)
    exact ⟨fun hv => by rw [hout]; exact hslew hv, fun _ => not_mem_settle _ _, fun hn => absurd (flying_iff.2 hn) hf⟩

/-! ## Ways that leave a group's mask (R171) -/

theorem evict_find (m : MemSys) (key j : Nat) : (m.evict key).l2.find j = if j = key then none else m.l2.find j := by
  unfold MemSys.evict
  cases h : m.l2.find key with
  | none =>
    dsimp only
    split
    · next hj => rw [hj, h]
    · rfl
  | some l =>
    have he := SMap.find_erase m.l2 key j
    dsimp only
    split
    · exact he
    · exact he

/-- What stays in L2 once some lines have been taken out of it stood there and is none of them. -/
theorem find_foldl_evict {keys : List Nat} {m : MemSys} {j : Nat} {l : L2Line} (h : (keys.foldl MemSys.evict m).l2.find j = some l) : m.l2.find j = some l ∧ j ∉ keys := by
  induction keys generalizing m with
  | nil => exact ⟨h, List.not_mem_nil⟩
  | cons k ks ih =>
    obtain ⟨hf, hnot⟩ := ih h
    rw [evict_find] at hf
    by_cases hj : j = k
    · rw [if_pos hj] at hf
      cases hf
    · rw [if_neg hj] at hf
      exact ⟨hf, by simp [hj, hnot]⟩

theorem mem_of_find {α : Type} {m : SMap α} {k : Nat} {x : α} (h : SMap.find m k = some x) : (k, x) ∈ m := by
  induction m with
  | nil => cases h
  | cons e m ih =>
    obtain ⟨j, y⟩ := e
    simp only [SMap.find] at h
    split at h
    · next hk =>
      obtain rfl := Option.some.inj h
      simp [hk]
    · exact List.mem_cons_of_mem _ (ih h)

/-- The ways that left a group's mask: L1's in bits 0 to 7, L2's above them. -/
def waysGone (s : State) (n : Nat) (old : W64) : W64 := old &&& ~~~(s.reg (.sgmask n))

theorem waysGone_of {old : W64} {b : Nat} (h : old.getLsbD b = true) (h' : (s.reg (.sgmask n)).getLsbD b = false) : (waysGone s n old).getLsbD b = true := by
  have hb : b < 64 := BitVec.lt_of_getLsbD h
  simp only [waysGone, BitVec.getLsbD_and, BitVec.getLsbD_not, h, h', hb]
  decide

/-- The state once the lines in ways that left a group's mask are out of L1 and L2. -/
def waysCleared (s : State) (n : Nat) (old : W64) : State :=
  let s' : State := { s with cores := s.cores.map fun e => (e.1, { e.2 with l1 := e.2.l1.filter fun l => !(l.sg == n && (waysGone s n old).getLsbD l.way) }) }
  s'.updMem fun m => ((s.msys.l2.filter fun e => e.2.sg == n && (waysGone s n old).getLsbD (8 + e.2.way)).map Prod.fst).foldl MemSys.evict m

theorem wayMaskChange_eq (s : State) (n : Nat) (old : W64) :
    exec (.wayMaskChange n old) s = .next ((waysCleared s n old).settle (.wayMaskChange n old)) := rfl

theorem wayMaskChange_clears (s : State) (n : Nat) (old : W64) : Leaves s (.wayMaskChange n old) fun t =>
    let gone (b : Nat) := old.getLsbD b = true ∧ (s.reg (.sgmask n)).getLsbD b = false
    (∀ e ∈ t.cores, ∀ l ∈ e.2.l1, ¬ (l.sg = n ∧ gone l.way)) ∧ ∀ ln l, t.msys.l2.find ln = some l → ¬ (l.sg = n ∧ gone (8 + l.way)) := by
  obtain ⟨x, m, hout⟩ := onlyOut_settle (waysCleared s n old) (.wayMaskChange n old)
  have he := wayMaskChange_eq s n old
  rw [hout] at he
  refine ⟨_, he, fun e he l hl ⟨hsg, hold, hnew⟩ => ?_, fun ln l hl ⟨hsg, hold, hnew⟩ => ?_⟩
  · obtain ⟨c, _, rfl⟩ := List.mem_map.1 he
    have := (List.mem_filter.1 hl).2
    simp [hsg, waysGone_of hold hnew] at this
  · obtain ⟨hf, hnot⟩ := find_foldl_evict hl
    refine hnot (List.mem_map.2 ⟨(ln, l), List.mem_filter.2 ⟨mem_of_find hf, ?_⟩, rfl⟩)
    simp [hsg, waysGone_of hold hnew]

end

/-! ## Instances of a template (R95, R103, R104) -/

section
variable {s : State} {cls ctx : Nat}

/-- What names a server: its engine, and its context or route. -/
def srvKey (v : Srv) : Nat × Nat × Nat × Nat := (v.cls, v.inst, v.ctx, v.route)

theorem is_iff {v : Srv} {e r : Nat} : v.is cls e ctx r = true ↔ srvKey v = (cls, e, ctx, r) := by
  simp [Srv.is, srvKey, and_assoc]

theorem mem_of_keys {xs ys : List Srv} (h : ys.map srvKey = xs.map srvKey) {v : Srv} (hv : v ∈ ys) : ∃ u ∈ xs, srvKey u = srvKey v :=
  List.mem_map.1 (h ▸ List.mem_map_of_mem (f := srvKey) hv)

theorem setQ_key (v : Srv) (q : Nat) : srvKey (v.setQ q) = srvKey v := rfl

/-- Budgets are checked again without a change of what instances stand. -/
theorem recheck_keys (s : State) (part : Nat) : (s.recheck part).srvs.map srvKey = s.srvs.map srvKey := by
  refine (congrArg (List.map srvKey) (State.setRfld_srvs _ _ _ _ _)).trans ?_
  refine foldl_keeps (fun t : State => t.srvs.map srvKey) (fun t e => ?_) _ s
  refine List.map_map.trans (List.map_congr_left fun v _ => ?_)
  simp only [Function.comp]
  split_ifs
  · rfl
  · exact setQ_key _ _
  · rfl
  · exact setQ_key _ _
  · rfl

/-- A change of a template reaches its instances; what names them stays. -/
theorem retune_keys (xs : List Srv) (p : Srv → Prop) [DecidablePred p] (t : Srv → W64) :
    (xs.map fun v => if p v then v.retune (t v) else v).map srvKey = xs.map srvKey := by
  rw [List.map_map]
  refine List.map_congr_left fun v _ => ?_
  simp only [Function.comp, Srv.retune]
  split_ifs <;> rfl

theorem addSrv_cases (s : State) (cls e ctx r : Nat) :
    (s.addSrv cls e ctx r = s ∧ ((∃ v ∈ s.srvs, v.is cls e ctx r = true) ∨ s.freeSlot cls e = none)) ∨
    ∃ v, s.addSrv cls e ctx r = { s with srvs := s.srvs ++ [v] } ∧ srvKey v = (cls, e, ctx, r) := by
  unfold State.addSrv
  split
  · next h => exact .inl ⟨rfl, .inl (by simpa using h)⟩
  · split
    · next h => exact .inl ⟨rfl, .inr h⟩
    · exact .inr ⟨_, rfl, rfl⟩

theorem mem_addSrv {v : Srv} (h : v ∈ s.srvs) (e r : Nat) : v ∈ (s.addSrv cls e ctx r).srvs := by
  rcases addSrv_cases s cls e ctx r with ⟨h', _⟩ | ⟨u, h', _⟩
  · rwa [h']
  · rw [h']
    exact List.mem_append_left _ h

/-- A server that stands once one has been added stood before, or is the one. -/
theorem key_addSrv {v : Srv} {e r : Nat} (h : v ∈ (s.addSrv cls e ctx r).srvs) : v ∈ s.srvs ∨ srvKey v = (cls, e, ctx, r) := by
  rcases addSrv_cases s cls e ctx r with ⟨h', _⟩ | ⟨u, h', hu⟩
  · exact .inl (h' ▸ h)
  · rw [h'] at h
    rcases List.mem_append.1 h with h | h
    · exact .inl h
    · exact .inr (by rw [List.mem_singleton.1 h, hu])

theorem addSrv_rest (s : State) (cls e ctx r : Nat) : s.addSrv cls e ctx r = { s with srvs := (s.addSrv cls e ctx r).srvs } := by
  rcases addSrv_cases s cls e ctx r with ⟨h', _⟩ | ⟨u, h', _⟩
  · rw [h']
  · rw [h']

/-- An engine that has fewer instances than slots has a free one. -/
theorem freeSlot_of_room {e : Nat} (h : (s.srvsAt cls e).length < arbiterSlots cls) : s.freeSlot cls e ≠ none := by
  intro hn
  unfold State.freeSlot at hn
  rw [List.find?_eq_none] at hn
  have hsub : List.range (arbiterSlots cls) ⊆ (s.srvsAt cls e).map Srv.slot := fun i hi => by
    have := hn i hi
    simp only [Bool.not_eq_true, Bool.not_eq_false', List.any_eq_true, beq_iff_eq] at this
    exact List.mem_map.2 this
  have hle := (List.subperm_of_subset List.nodup_range hsub).length_le
  simp only [List.length_range, List.length_map] at hle
  omega

/-- An engine has its server, or has room for one. -/
def HasRoom (s : State) (cls ctx e : Nat) : Prop := (s.srvsAt cls e).length < arbiterSlots cls ∨ ∃ v ∈ s.srvs, v.is cls e ctx 0 = true

theorem addSrv_adds {e : Nat} (h : HasRoom s cls ctx e) : ∃ v ∈ (s.addSrv cls e ctx 0).srvs, v.is cls e ctx 0 = true := by
  rcases addSrv_cases s cls e ctx 0 with ⟨h', hv | hn⟩ | ⟨u, h', hu⟩
  · rwa [h']
  · rcases h with hr | hv
    · exact absurd hn (freeSlot_of_room hr)
    · rwa [h']
  · rw [h']
    exact ⟨u, by simp, is_iff.2 hu⟩

theorem hasRoom_addSrv {e e' : Nat} (hne : e' ≠ e) (h : HasRoom s cls ctx e) : HasRoom (s.addSrv cls e' ctx 0) cls ctx e := by
  rcases h with hr | ⟨v, hv, his⟩
  · refine .inl ?_
    rcases addSrv_cases s cls e' ctx 0 with ⟨h', _⟩ | ⟨u, h', hu⟩
    · rwa [h']
    · have hi : u.inst = e' := congrArg (fun k : Nat × Nat × Nat × Nat => k.2.1) hu
      rw [h']
      simpa [State.srvsAt, hi, hne] using hr
  · exact .inr ⟨v, mem_addSrv hv e' 0, his⟩

theorem mem_addSrvs {v : Srv} (es : List Nat) (h : v ∈ s.srvs) : v ∈ (es.foldl (fun s e => s.addSrv cls e ctx 0) s).srvs := by
  induction es generalizing s with
  | nil => exact h
  | cons e es ih => exact ih (mem_addSrv h e 0)

/-- Each of some engines that has room has its server afterwards. -/
theorem addSrvs_adds {es : List Nat} {e : Nat} (he : e ∈ es) (h : HasRoom s cls ctx e) :
    ∃ v ∈ (es.foldl (fun s e => s.addSrv cls e ctx 0) s).srvs, v.is cls e ctx 0 = true := by
  induction es generalizing s with
  | nil => cases he
  | cons x xs ih =>
    by_cases hx : x = e
    · obtain ⟨v, hv, his⟩ := addSrv_adds h
      rw [hx]
      exact ⟨v, mem_addSrvs xs hv, his⟩
    · exact ih ((List.mem_cons.1 he).resolve_left (Ne.symm hx)) (hasRoom_addSrv hx h)

theorem key_addSrvs {v : Srv} {es : List Nat} (h : v ∈ (es.foldl (fun s e => s.addSrv cls e ctx 0) s).srvs) : v ∈ s.srvs ∨ ∃ e ∈ es, srvKey v = (cls, e, ctx, 0) := by
  induction es generalizing s with
  | nil => exact .inl h
  | cons x xs ih =>
    rcases ih h with h | ⟨e, he, hk⟩
    · exact (key_addSrv h).imp_right fun hk => ⟨x, by simp, hk⟩
    · exact .inr ⟨e, by simp [he], hk⟩

theorem unitOfChannel_slice : ∀ u, u < 64 → unitOfChannel (channelOfSlice u) = u := by decide

theorem engineUnit_unitEngines {u e : Nat} (hc : cls < 4) (hu : u < 64) (h : e ∈ unitEngines cls u) : engineUnit cls e = u := by
  obtain rfl | rfl | rfl | rfl : cls = 0 ∨ cls = 1 ∨ cls = 2 ∨ cls = 3 := by omega
  · simp only [unitEngines, engineUnit, if_true, List.mem_map, List.mem_range] at h ⊢
    omega
  · simp [unitEngines, engineUnit] at h ⊢
    omega
  · simp [unitEngines, engineUnit] at h ⊢
    omega
  · simp only [unitEngines] at h
    rw [List.mem_singleton.1 h]
    exact unitOfChannel_slice u hu

/-- The engines of a template are those at which its context is to have a server. -/
theorem holds_ctxEngines {e : Nat} (hc : cls < 4) (hv : s.ctxValid ctx = true) (h : e ∈ s.ctxEngines ctx cls) : s.holds cls (engineUnit cls e) ctx = true := by
  unfold State.ctxEngines at h
  split at h
  · next hbit =>
    obtain ⟨u, hu, he⟩ := List.mem_flatMap.1 h
    obtain ⟨hlt, hmask⟩ := List.mem_filter.1 hu
    rw [engineUnit_unitEngines hc (List.mem_range.1 hlt) he]
    simp only [State.holds, hv, hbit, hmask, Bool.and_self]
  · cases h

/-- The instances that stay where a class' templates have changed, with the changed template's own fields. -/
def tuned (s : State) (ctx cls : Nat) : State :=
  let s' := s.dropSrvs fun v => v.cls == cls && s.ctxValid v.ctx && !(s.holds cls (engineUnit cls v.inst) v.ctx)
  { s' with srvs := s'.srvs.map fun v => if v.cls = cls ∧ v.ctx = ctx then v.retune (s.reg (.svcfg ctx cls)) else v }

/-- The state once each engine of a template has its server. -/
def templated (s : State) (ctx cls : Nat) : State := (s.ctxEngines ctx cls).foldl (fun s e => s.addSrv cls e ctx 0) (tuned s ctx cls)

theorem serverTemplateChange_eq (hc : cls < 4) (hv : s.ctxValid ctx = true) : exec (.serverTemplateChange ctx cls) s =
    .next ((if cls ≤ 1 then (templated s ctx cls).recheck ((templated s ctx cls).ctxPart ctx) else templated s ctx cls).askRound ((templated s ctx cls).ctxPart ctx)) := by
  show execServerTemplateChange ctx cls s = _
  unfold execServerTemplateChange
  rw [if_neg (by omega), if_neg (by simp [hv])]
  exact congrArg Host.Outcome.next (by split_ifs <;> rfl)

theorem tuned_keys (s : State) (ctx cls : Nat) : (tuned s ctx cls).srvs.map srvKey =
    (s.srvs.filter fun v => !(v.cls == cls && s.ctxValid v.ctx && !(s.holds cls (engineUnit cls v.inst) v.ctx))).map srvKey :=
  retune_keys _ (fun v => v.cls = cls ∧ v.ctx = ctx) fun _ => s.reg (.svcfg ctx cls)

/-- A server that stays is one that its template is to have. -/
theorem holds_tuned {v : Srv} (h : v ∈ (tuned s ctx cls).srvs) (hcls : v.cls = cls) (hv : s.ctxValid v.ctx = true) : s.holds cls (engineUnit cls v.inst) v.ctx = true := by
  obtain ⟨u, hu, hk⟩ := mem_of_keys (tuned_keys s ctx cls) h
  simp only [srvKey, Prod.mk.injEq] at hk
  obtain ⟨h1, h2, h3, _⟩ := hk
  have := (List.mem_filter.1 hu).2
  rw [h1, h2, h3, hcls, hv] at this
  simpa using this

theorem tuned_kept {v : Srv} (h : v ∈ s.srvs) (hh : s.holds cls (engineUnit cls v.inst) v.ctx = true) : ∃ u ∈ (tuned s ctx cls).srvs, srvKey u = srvKey v :=
  mem_of_keys (tuned_keys s ctx cls).symm (List.mem_filter.2 ⟨h, by simp [hh]⟩)

theorem srvsAt_tuned (s : State) (ctx cls e : Nat) : ((tuned s ctx cls).srvsAt cls e).length ≤ (s.srvsAt cls e).length := by
  let at? (k : Nat × Nat × Nat × Nat) : Bool := k.1 == cls && k.2.1 == e && k.2.2.1 != mgmtCtx
  have hlen (xs : List Srv) : (xs.filter fun v => v.cls == cls && v.inst == e && v.ctx != mgmtCtx).length = ((xs.map srvKey).filter at?).length := by
    rw [List.filter_map, List.length_map]
    rfl
  unfold State.srvsAt
  rw [hlen, tuned_keys, hlen]
  exact ((List.filter_sublist.map srvKey).filter at?).length_le

theorem hasRoom_tuned {e : Nat} (hh : s.holds cls (engineUnit cls e) ctx = true) (h : HasRoom s cls ctx e) : HasRoom (tuned s ctx cls) cls ctx e := by
  rcases h with hr | ⟨v, hv, his⟩
  · exact .inl (Nat.lt_of_le_of_lt (srvsAt_tuned s ctx cls e) hr)
  · have hk := is_iff.1 his
    simp only [srvKey, Prod.mk.injEq] at hk
    obtain ⟨-, h2, h3, -⟩ := hk
    obtain ⟨u, hu, hku⟩ := tuned_kept (ctx := ctx) hv (by rwa [h2, h3])
    exact .inr ⟨u, hu, is_iff.2 (hku.trans (is_iff.1 his))⟩

theorem askRound_srvs (s : State) (part : Nat) : (s.askRound part).srvs = s.srvs := by
  unfold State.askRound
  split <;> rfl

theorem serverTemplateChange_instances (hc : cls < 4) (hv : s.ctxValid ctx = true) : Leaves s (.serverTemplateChange ctx cls) fun t =>
    (∀ v ∈ t.srvs, v.cls = cls → s.ctxValid v.ctx = true → s.holds cls (engineUnit cls v.inst) v.ctx = true) ∧
    ∀ e ∈ s.ctxEngines ctx cls, ((s.srvsAt cls e).length < arbiterSlots cls ∨ ∃ v ∈ s.srvs, v.is cls e ctx 0 = true) → ∃ v ∈ t.srvs, v.is cls e ctx 0 = true := by
  refine ⟨_, serverTemplateChange_eq hc hv, ?_⟩
  dsimp only
  rw [askRound_srvs]
  generalize hu : (if cls ≤ 1 then (templated s ctx cls).recheck ((templated s ctx cls).ctxPart ctx) else templated s ctx cls) = u
  have hkeys : u.srvs.map srvKey = (templated s ctx cls).srvs.map srvKey := by
    rw [← hu]
    split
    · exact recheck_keys _ _
    · rfl
  refine ⟨fun v hmem hcls hval => ?_, fun e he hroom => ?_⟩
  · obtain ⟨w, hw, hk⟩ := mem_of_keys hkeys hmem
    obtain ⟨h1, h2, h3⟩ : w.cls = v.cls ∧ w.inst = v.inst ∧ w.ctx = v.ctx := by
      simp only [srvKey, Prod.mk.injEq] at hk
      exact ⟨hk.1, hk.2.1, hk.2.2.1⟩
    rw [← h2, ← h3]
    rcases key_addSrvs hw with hw | ⟨e, he, hke⟩
    · exact holds_tuned hw (h1.trans hcls) (h3 ▸ hval)
    · obtain ⟨-, h5, h6, -⟩ : w.cls = cls ∧ w.inst = e ∧ w.ctx = ctx ∧ w.route = 0 := by simpa [srvKey] using hke
      rw [h5, h6]
      exact holds_ctxEngines hc hv he
  · obtain ⟨v, hmem, his⟩ := addSrvs_adds he (hasRoom_tuned (holds_ctxEngines hc hv he) hroom)
    obtain ⟨w, hw, hk⟩ := mem_of_keys hkeys.symm hmem
    exact ⟨w, hw, is_iff.2 (hk.trans (is_iff.1 his))⟩

/-! ### Instances of routes (R95) -/

/-- The state once the routes of a context have lost the instances that their templates no longer ask for. -/
def routesTuned (s : State) (ctx : Nat) : State :=
  let s' := s.dropSrvs fun v => v.cls == 4 && v.ctx == ctx && s.rteValid v.route && !(s.reg (.svlink v.route)).getLsbD 52
  { s' with srvs := s'.srvs.map fun v => if v.cls = 4 ∧ v.ctx = ctx then v.retune (s.reg (.svlink v.route)) else v }

theorem routesTuned_keys (s : State) (ctx : Nat) : (routesTuned s ctx).srvs.map srvKey =
    (s.srvs.filter fun v => !(v.cls == 4 && v.ctx == ctx && s.rteValid v.route && !(s.reg (.svlink v.route)).getLsbD 52)).map srvKey :=
  retune_keys _ (fun v => v.cls = 4 ∧ v.ctx = ctx) fun v => s.reg (.svlink v.route)

/-- Of a state only the instances change, and a route of the context that is valid has one only where its template asks for it. -/
def Linked (s t : State) (ctx : Nat) : Prop :=
  (∃ vs, t = { s with srvs := vs }) ∧ ∀ v ∈ t.srvs, v.cls = 4 → v.ctx = ctx → s.rteValid v.route = true → (s.reg (.svlink v.route)).getLsbD 52 = true

theorem linked_routesTuned (s : State) (ctx : Nat) : Linked s (routesTuned s ctx) ctx := by
  refine ⟨⟨_, rfl⟩, fun v hv hcls hctx hval => ?_⟩
  obtain ⟨u, hu, hk⟩ := mem_of_keys (routesTuned_keys s ctx) hv
  simp only [srvKey, Prod.mk.injEq] at hk
  obtain ⟨h1, -, h3, h4⟩ := hk
  have := (List.mem_filter.1 hu).2
  rw [h1, h3, h4, hcls, hctx, hval] at this
  simpa using this

theorem linked_addSrv {t : State} {i l : Nat} (hi : (s.reg (.svlink i)).getLsbD 52 = true) (h : Linked s t ctx) : Linked s (t.addSrv 4 l ctx i) ctx := by
  obtain ⟨⟨vs, rfl⟩, hlink⟩ := h
  refine ⟨⟨_, addSrv_rest _ _ _ _ _⟩, fun v hv hcls hctx hval => ?_⟩
  rcases key_addSrv hv with hv | hk
  · exact hlink v hv hcls hctx hval
  · have hr : v.route = i := congrArg (fun k : Nat × Nat × Nat × Nat => k.2.2.2) hk
    rwa [hr]

theorem linked_addStrands {i : Nat} (hi : (s.reg (.svlink i)).getLsbD 52 = true) (ls : List Nat) {t : State} (h : Linked s t ctx) :
    Linked s (ls.foldl (fun s l => s.addSrv 4 l ctx i) t) ctx := by
  induction ls generalizing t with
  | nil => exact h
  | cons l ls ih => exact ih (linked_addSrv hi h)

theorem linked_addRoutes {is : List Nat} (hi : ∀ i ∈ is, (s.reg (.svlink i)).getLsbD 52 = true) {t : State} (h : Linked s t ctx) :
    Linked s (is.foldl (fun s i => (s.strands i).eraseDups.foldl (fun s l => s.addSrv 4 l ctx i) s) t) ctx := by
  induction is generalizing t with
  | nil => exact h
  | cons i is ih => exact ih (fun j hj => hi j (List.mem_cons_of_mem _ hj)) (linked_addStrands (hi i (List.mem_cons_self)) _ h)

theorem serverTemplateChange_routes (s : State) (ctx : Nat) : Leaves s (.serverTemplateChange ctx 4) fun t => t = { s with srvs := t.srvs } ∧
    ∀ v ∈ t.srvs, v.cls = 4 → v.ctx = ctx → s.rteValid v.route = true → (s.reg (.svlink v.route)).getLsbD 52 = true := by
  let is := (routesTuned s ctx).linkedRoutes.filter fun i => (routesTuned s ctx).rteLctx i == ctx
  have hi : ∀ i ∈ is, (s.reg (.svlink i)).getLsbD 52 = true := fun i h => by
    have := (List.mem_filter.1 (List.mem_filter.1 h).1).2
    exact (Bool.and_eq_true _ _ ▸ this).2
  obtain ⟨⟨vs, h⟩, hlink⟩ := linked_addRoutes hi (linked_routesTuned s ctx)
  have he : exec (.serverTemplateChange ctx 4) s =
    .next (is.foldl (fun s i => (s.strands i).eraseDups.foldl (fun s l => s.addSrv 4 l ctx i) s) (routesTuned s ctx)) := rfl
  exact ⟨_, he, by rw [h], hlink⟩

end

/-! ## Lendable homes (R110) -/

section
variable {s : State}

theorem foldl_same {α σ : Type} {f : σ → α → σ} {xs : List α} {s : σ} (h : ∀ x ∈ xs, f s x = s) : xs.foldl f s = s := by
  induction xs with
  | nil => rfl
  | cons x xs ih => rw [List.foldl_cons, h x (by simp), ih fun y hy => h y (by simp [hy])]

theorem settleRecalls_none (h : s.sched.cmds = []) (owner c : Nat) : s.settleRecalls owner c = s := by
  unfold State.settleRecalls
  split
  · rfl
  · rw [h]
    rfl

theorem recallCluster_owned (h : s.sched.cmds = []) (owner : Nat) {c : Nat} (hc : s.clState c ≤ 1) :
    s.recallCluster owner c = if s.clState c = 1 then s.setClState c 0 else s := by
  unfold State.recallCluster
  split
  · exact settleRecalls_none (by rw [← h]; exact congrArg Sched.cmds (State.setRfld_sched _ _ _ _ _)) owner c
  · rw [if_neg (by omega), if_pos (by omega)]
    exact settleRecalls_none h owner c

theorem recallCluster_sched (h : s.sched.cmds = []) (owner : Nat) {c : Nat} (hc : s.clState c ≤ 1) : (s.recallCluster owner c).sched = s.sched := by
  rw [recallCluster_owned h owner hc]
  split
  · exact State.setRfld_sched _ _ _ _ _
  · rfl

theorem clState_recallCluster (h : s.sched.cmds = []) (owner : Nat) {c : Nat} (hc : s.clState c ≤ 1) (d : Nat) :
    (s.recallCluster owner c).clState d = if d = c then 0 else s.clState d := by
  rw [recallCluster_owned h owner hc]
  by_cases hd : d = c
  · rw [if_pos hd, hd]
    split
    · exact rfld_setRfld_self s _ 0 (by decide)
    · omega
  · rw [if_neg hd]
    split
    · exact rfld_setRfld_reg s _ _ 0 (by simp only [RegName.addr]; omega)
    · rfl

theorem regsBut_recallCluster (h : s.sched.cmds = []) (owner : Nat) {c : Nat} (hc : s.clState c ≤ 1) : RegsBut s (s.recallCluster owner c) [.clend c] := by
  rw [recallCluster_owned h owner hc]
  exact regsBut_ite (regsBut_setRfld s _ _ _ (by simp)) (regsBut_of_regs rfl _)

/-- Clusters that none borrows return to their owner. -/
theorem recallClusters_owned (cs : List Nat) (h : s.sched.cmds = []) (owner : Nat) (hc : ∀ c ∈ cs, s.clState c ≤ 1) :
    (∀ d, (cs.foldl (fun s c => s.recallCluster owner c) s).clState d = if d ∈ cs then 0 else s.clState d) ∧
    RegsBut s (cs.foldl (fun s c => s.recallCluster owner c) s) (cs.map RegName.clend) := by
  induction cs generalizing s with
  | nil => exact ⟨fun _ => rfl, regsBut_of_regs rfl _⟩
  | cons c cs ih =>
    have hhead := hc c (by simp)
    have hstate := clState_recallCluster h owner hhead
    have hrest : ∀ d ∈ cs, (s.recallCluster owner c).clState d ≤ 1 := fun d hd => by
      rw [hstate]
      split
      · omega
      · exact hc d (by simp [hd])
    obtain ⟨hst, hregs⟩ := ih (by rw [recallCluster_sched h owner hhead, h]) hrest
    refine ⟨fun d => ?_, regsBut_trans (regsBut_mono (regsBut_recallCluster h owner hhead) (by simp)) (regsBut_mono hregs fun r hr => by simp [List.mem_map.1 hr])⟩
    rw [List.foldl_cons, hst, hstate]
    by_cases hd : d ∈ cs
    · simp [hd]
    · by_cases hdc : d = c
      · simp [hdc]
      · simp [hd, hdc]

theorem lendClear_returns {ctx : Nat} (hl : s.rfld (.ctxcfg ctx) 15 1 = 0) (h : s.sched.cmds = []) (hc : ∀ c ∈ s.homes ctx, s.clState c ≤ 1) :
    Leaves s (.lendClear ctx) fun t => (∀ c ∈ s.homes ctx, t.clState c = 0) ∧ RegsBut s t ((s.homes ctx).map RegName.clend) := by
  obtain ⟨hst, hregs⟩ := recallClusters_owned (s.homes ctx) h ctx hc
  have he : exec (.lendClear ctx) s = .next ((s.homes ctx).foldl (fun s c => s.recallCluster ctx c) s) := if_neg (by omega)
  exact ⟨_, he, fun c hmem => (hst c).trans (if_pos hmem), hregs⟩

/-! ## A queue that leaves its context (R81, R111) -/

theorem ring_updRing (s : State) (q k : Nat) (f : Ring → Ring) : (s.updRing q f).ring k = if k = q then f (s.ring q) else s.ring k := SMap.get_set _ _ _ _ _

theorem ring_askRound (s : State) (part k : Nat) : (s.askRound part).ring k = s.ring k := by
  unfold State.askRound
  split <;> rfl

theorem hardwareQueueBind_clears {q : Nat} (hset : (s.ring q).isSet = true) (hq : s.queueCtx q ≠ some (s.ring q).ctx) (hempty : (s.ring q).head = (s.ring q).tail) :
    Leaves s (.hardwareQueueBind q) fun t => t.ring q = {} ∧ ∀ k, k ≠ q → t.ring k = s.ring k := by
  have hnone : s.discard q (s.ring q).ctx (s.ring q).head ((s.ring q).tail - (s.ring q).head).toNat = s := by
    rw [hempty, BitVec.sub_self]
    rfl
  let u := s.updRing q fun _ => {}
  have he : ∃ t, exec (.hardwareQueueBind q) s = .next t ∧ (t = u ∨ ∃ part, t = u.askRound part) := by
    show ∃ t, execHardwareQueueBind q s = .next t ∧ _
    unfold execHardwareQueueBind
    dsimp only
    rw [if_neg (by simp [hset, hq]), hnone]
    split
    · exact ⟨_, rfl, .inr ⟨_, rfl⟩⟩
    · exact ⟨_, rfl, .inl rfl⟩
  obtain ⟨t, he, ht⟩ := he
  have hring (k : Nat) : t.ring k = if k = q then {} else s.ring k := by
    rcases ht with rfl | ⟨part, rfl⟩
    · exact ring_updRing s q k _
    · exact (ring_askRound u part k).trans (ring_updRing s q k _)
  exact ⟨t, he, (hring q).trans (if_pos rfl), fun k hk => (hring k).trans (if_neg hk)⟩

/-! ## The end of a context (R94) -/

variable {ctx : Nat}

theorem endCommands_none (h : Bare s ctx) : s.endCommands ctx = s := by
  have hmine : s.sched.cmds.filter (fun e => e.2.ctx == ctx && (e.2.st == .taken || !([1, 2, 4] : List Nat).contains e.2.opc)) = [] :=
    List.filter_eq_nil_iff.2 fun e he => by simp [h.cmds e he]
  have hrings : ∀ q ∈ List.range 64, (if (s.ring q).isSet ∧ (s.ring q).ctx = ctx then
      (s.discard q ctx (s.ring q).head ((s.ring q).tail - (s.ring q).head).toNat).updRing q fun _ => {} else s) = s := fun q hq =>
    if_neg fun ⟨hset, hctx⟩ => h.rings q (List.mem_range.1 hq) hset hctx
  unfold State.endCommands
  exact (congrArg (fun l : SMap Cmd => (List.range 64).foldl _ (l.foldl _ s)) hmine).trans (foldl_same hrings)

theorem endLeases_none (h : Bare s ctx) : s.endLeases ctx = s := by
  refine foldl_same fun n hn => if_neg fun ⟨hst, _⟩ => ?_
  rw [h.leases.2 n (List.mem_range.1 hn)] at hst
  cases hst

theorem ctxGone_bare (h : Bare s ctx) (hr : ∀ i, i < 1024 → s.rteValid i = true → s.rteLctx i ≠ ctx) : s.ctxGone ctx = true := by
  simp only [State.ctxGone, Bool.and_eq_true, List.all_eq_true, bne_iff_ne, Bool.not_eq_true', Bool.and_eq_false_iff, List.mem_range]
  refine ⟨⟨⟨⟨h.grids, h.teams⟩, h.cmds⟩, h.leases.1⟩, fun i hi => ?_⟩
  by_cases hv : s.rteValid i = true
  · exact .inr (by simpa using hr i hi hv)
  · exact .inl (by simpa using hv)

/-- An edge of a context goes. -/
def edgeEnded (ctx : Nat) (s : State) (k : Nat) : State :=
  if s.rfld (.edgst k) 0 1 = 1 ∧ s.rfld (.edgst k) 1 9 = ctx then (s.setReg (.edgst k) 0).setReg (.edgcnt k) 0 else s

/-- The first edges go that belong to a context. -/
def edgesEnded (s : State) (ctx n : Nat) : State := (List.range n).foldl (edgeEnded ctx) s

/-- The state once the instances of an ended context are gone. -/
def unserved (s : State) (ctx : Nat) : State := (s.dropSrvs fun v => v.ctx == ctx).recheck (s.ctxPart ctx)

/-- What the scheduler and the translations keep of an ended context goes. -/
def forgotten (s : State) (ctx : Nat) : State :=
  ({ s with sched := { s.sched with ending := s.sched.ending.erase ctx, resume := s.sched.resume.erase ctx, lastCore := s.sched.lastCore.erase ctx } } : State).dropTlb ctx fun _ => true

theorem contextDestroy_eq (hv : s.ctxValid ctx = false) (h : Bare s ctx) (hr : ∀ i, i < 1024 → s.rteValid i = true → s.rteLctx i ≠ ctx) :
    exec (.contextDestroy ctx) s = .next ((forgotten (edgesEnded (unserved s ctx) ctx 4096) ctx).settle (.contextDestroy ctx)) := by
  have hroutes : (List.range 1024).filter (fun i => s.rteValid i && s.rteLctx i == ctx) = [] := List.filter_eq_nil_iff.2 fun i hi => by
    simpa using hr i (List.mem_range.1 hi)
  have hleases : (List.range 255).foldl (fun s n => if (s.lease ctx n).st = 0 ∨ (s.lease ctx n).st = 4 then s else s.revoke ctx n) s = s :=
    foldl_same fun n hn => if_pos (.inl (h.leases.2 n (List.mem_range.1 hn)))
  have hgrids : s.sched.grids.filter (fun e => e.2.ctx == ctx && e.2.fault.isNone) = [] := List.filter_eq_nil_iff.2 fun e he => by simp [h.grids e he]
  show execContextDestroy ctx s = _
  unfold execContextDestroy
  rw [if_neg (by simp [hv])]
  dsimp only
  rw [hroutes, List.foldl_nil, hleases]
  generalize hg : List.filter _ s.sched.grids = gs
  obtain rfl : gs = [] := hg.symm.trans hgrids
  rw [List.foldl_nil, endCommands_none h, endLeases_none h, if_neg (by simp [ctxGone_bare h hr])]
  unfold forgotten edgesEnded edgeEnded unserved
  dsimp only


/-- Whether an edge is one of a context's. -/
def EdgeOf (s : State) (ctx k : Nat) : Prop := s.rfld (.edgst k) 0 1 = 1 ∧ s.rfld (.edgst k) 1 9 = ctx

theorem edgeEnded_self {k : Nat} (h : EdgeOf s ctx k) : (edgeEnded ctx s k).reg (.edgst k) = 0 := by
  have hcnt : (RegName.edgst k).addr ≠ (RegName.edgcnt k).addr := by
    simp only [RegName.addr]
    omega
  have he : edgeEnded ctx s k = (s.setReg (.edgst k) 0).setReg (.edgcnt k) 0 := if_pos h
  rw [he, reg_setReg_other _ _ _ _ hcnt, reg_setReg_self]

theorem edgeEnded_other {j k : Nat} (hk : k < 4096) (hj : k ≠ j) : (edgeEnded ctx s j).reg (.edgst k) = s.reg (.edgst k) := by
  have hcnt : (RegName.edgst k).addr ≠ (RegName.edgcnt j).addr := by
    simp only [RegName.addr]
    omega
  have hst : (RegName.edgst k).addr ≠ (RegName.edgst j).addr := by
    simp only [RegName.addr]
    omega
  unfold edgeEnded
  split
  · rw [reg_setReg_other _ _ _ _ hcnt, reg_setReg_other _ _ _ _ hst]
  · rfl

theorem edgesEnded_reg (s : State) (ctx n : Nat) {k : Nat} (hk : k < 4096) :
    (k < n → EdgeOf s ctx k → (edgesEnded s ctx n).reg (.edgst k) = 0) ∧ (n ≤ k → (edgesEnded s ctx n).reg (.edgst k) = s.reg (.edgst k)) := by
  induction n with
  | zero => exact ⟨fun h => absurd h (Nat.not_lt_zero k), fun _ => rfl⟩
  | succ n ih =>
    obtain ⟨hgone, hstays⟩ := ih
    have hstep : edgesEnded s ctx (n + 1) = edgeEnded ctx (edgesEnded s ctx n) n := by
      unfold edgesEnded
      rw [List.range_succ, List.foldl_append]
      rfl
    rw [hstep]
    refine ⟨fun hkn he => ?_, fun hkn => ?_⟩
    · by_cases hk' : k = n
      · subst hk'
        refine edgeEnded_self ?_
        unfold EdgeOf State.rfld at he ⊢
        rwa [hstays (Nat.le_refl k)]
      · rw [edgeEnded_other hk hk']
        exact hgone (by omega) he
    · rw [edgeEnded_other hk (by omega)]
      exact hstays (by omega)

theorem edgesEnded_srvs (s : State) (ctx n : Nat) : (edgesEnded s ctx n).srvs = s.srvs := by
  refine foldl_keeps State.srvs (fun t k => ?_) _ s
  unfold edgeEnded
  split
  · rw [State.setReg_srvs, State.setReg_srvs]
  · rfl

/-- Checking budgets again writes the clock-step register alone. -/
theorem edgst_recheck (s : State) (part : Nat) {k : Nat} (hk : k < 4096) : (s.recheck part).reg (.edgst k) = s.reg (.edgst k) := by
  refine (reg_setRfld_other _ _ _ _ _ _ (by simp only [RegName.addr]; omega)).trans (regsBut_of_regs ?_ [] _ (by simp))
  refine foldl_keeps State.regs (fun _ _ => ?_) _ s
  rfl

theorem mem_erase {α : Type} {m : SMap α} {k : Nat} {e : Nat × α} (h : e ∈ SMap.erase m k) : e.1 ≠ k := by
  induction m with
  | nil => cases h
  | cons x m ih =>
    obtain ⟨j, y⟩ := x
    simp only [SMap.erase] at h
    split at h
    · exact ih h
    · next hj =>
      rcases List.mem_cons.1 h with rfl | h
      · exact fun he => hj he.symm
      · exact ih h

theorem ctx_unserved {v : Srv} (h : v ∈ (unserved s ctx).srvs) : v.ctx ≠ ctx := by
  obtain ⟨w, hw, hkey⟩ := mem_of_keys (recheck_keys _ _) h
  have hc : w.ctx = v.ctx := congrArg (fun q : Nat × Nat × Nat × Nat => q.2.2.1) hkey
  rw [← hc]
  simpa using (List.mem_filter.1 hw).2

theorem edgeOf_unserved {k : Nat} (hk : k < 4096) (h : EdgeOf s ctx k) : EdgeOf (unserved s ctx) ctx k := by
  have hreg : (unserved s ctx).reg (.edgst k) = s.reg (.edgst k) := edgst_recheck _ _ hk
  unfold EdgeOf State.rfld at h ⊢
  rwa [hreg]

/-- What an ended context leaves, from what its instances and edges come to. -/
theorem leaves_forgotten {u : State} (he : exec (.contextDestroy ctx) s = .next ((forgotten u ctx).settle (.contextDestroy ctx)))
    (hsrvs : u.srvs = (unserved s ctx).srvs) (hreg : ∀ k, k < 4096 → EdgeOf (unserved s ctx) ctx k → u.reg (.edgst k) = 0) :
    Leaves s (.contextDestroy ctx) fun t =>
      (∀ v ∈ t.srvs, v.ctx ≠ ctx) ∧ (∀ e ∈ t.sched.lastCore, e.1 ≠ ctx) ∧ ∀ k, k < 4096 → s.rfld (.edgst k) 0 1 = 1 → s.rfld (.edgst k) 1 9 = ctx → t.reg (.edgst k) = 0 := by
  obtain ⟨x, m, hout⟩ := onlyOut_settle (forgotten u ctx) (.contextDestroy ctx)
  rw [hout] at he
  refine ⟨_, he, fun v hmem => ?_, fun e hmem => mem_erase hmem, fun k hk hvalid hctx => hreg k hk (edgeOf_unserved hk ⟨hvalid, hctx⟩)⟩
  exact ctx_unserved (hsrvs ▸ (hmem : v ∈ u.srvs))

theorem contextDestroy_ends (hv : s.ctxValid ctx = false) (h : Bare s ctx) (hr : ∀ i, i < 1024 → s.rteValid i = true → s.rteLctx i ≠ ctx) :
    Leaves s (.contextDestroy ctx) fun t =>
      (∀ v ∈ t.srvs, v.ctx ≠ ctx) ∧ (∀ e ∈ t.sched.lastCore, e.1 ≠ ctx) ∧ ∀ k, k < 4096 → s.rfld (.edgst k) 0 1 = 1 → s.rfld (.edgst k) 1 9 = ctx → t.reg (.edgst k) = 0 :=
  leaves_forgotten (contextDestroy_eq hv h hr) (edgesEnded_srvs _ ctx 4096) fun _ hk => (edgesEnded_reg _ ctx 4096 hk).1 hk

/-! ## Invalidations of translations (R168) -/

theorem pageBytes_pos (z : Nat) : 0 < pageBytes z := by
  unfold pageBytes
  rcases z with _ | _ | _ | _ | z <;> simp

/-- An invalidation of a whole context names every address below 2⁵². -/
theorem tinvMeets_whole {v : W64} (h : v.getLsbD 9 = true) (a k : Nat) : tinvMeets v a k = true ↔ a < 2 ^ 52 ∧ 0 < a + k := by
  simp only [tinvMeets, h, if_true, Bool.and_eq_true, decide_eq_true_eq, Nat.zero_add]

theorem tinvNew_first {v : W64} (h : ∀ e ∈ s.msys.tinvs, e.1 ≠ v) : s.tinvNew v = true := by
  have hnone : s.msys.tinvs.filter (fun e => e.1 == v) = [] := List.filter_eq_nil_iff.2 fun e he => by simpa using h e he
  unfold State.tinvNew
  rw [hnone]
  rfl

theorem tinv_refused {v : W64} (h9 : v.getLsbD 9 = true) (hnew : ∀ e ∈ s.msys.tinvs, e.1 ≠ v)
    (hlease : ∃ e ∈ s.msys.leases, e.1 / 256 = fld v 0 9 ∧ e.2.st ≠ 0 ∧ e.2.base < 2 ^ 52 ∧ 0 < e.2.base + e.2.len) :
    Leaves s (.tinv v) fun t => t.rfld .tinvst 1 1 = 1 ∧ t.rfld .tinvst 0 1 = s.rfld .tinvst 0 1 ∧ t.cores = s.cores ∧ t.msys = s.msys := by
  have hmeets : (s.msys.leases.any fun e => e.1 / 256 == fld v 0 9 && e.2.st != 0 && tinvMeets v e.2.base e.2.len) = true := by
    obtain ⟨e, he, hctx, hst, hb, hl⟩ := hlease
    refine List.any_eq_true.2 ⟨e, he, ?_⟩
    simpa [hctx, hst] using (tinvMeets_whole h9 _ _).2 ⟨hb, hl⟩
  have he : exec (.tinv v) s = .next ((s.setRfld .tinvst 1 1 1).settleLast (.tinv v)) := if_pos (by rw [tinvNew_first hnew]; exact hmeets)
  obtain ⟨x, m, hout⟩ := onlyOut_settleLast (s.setRfld .tinvst 1 1 1) (.tinv v)
  rw [hout] at he
  exact ⟨_, he, rfld_setRfld_self s .tinvst 1 (by decide), rfld_setRfld_other s .tinvst 1 (by decide) (by decide), State.setRfld_cores _ _ _ _ _, State.setRfld_msys _ _ _ _ _⟩

/-- The state once an invalidation of a whole context has been accepted that nothing in flight uses. -/
def accepted (s : State) (v : W64) : State :=
  (((s.updMem fun m => { m with tinvs := m.tinvs ++ [(v, [])] }).setReg .tinvst 1).staleWalks (fld v 0 9) fun _ => true).dropTlb (fld v 0 9)
    fun t => tinvMeets v (t.page * pageBytes t.size) (pageBytes t.size)

/-- Nothing of a context that an invalidation names is in flight (R168). -/
structure Idle (s : State) (ctx : Nat) : Prop where
  tinvs : s.msys.tinvs = []
  leases : ∀ e ∈ s.msys.leases, e.1 / 256 = ctx → e.2.st = 0
  pkts : ∀ e ∈ s.pkts, e.2.ctx ≠ ctx
  walkers : ∀ e ∈ s.msys.walkers, ∀ k, e.2.walk = some k → k.ctx ≠ ctx

theorem accepted_frame (s : State) (v : W64) : (accepted s v).pkts = s.pkts ∧ (accepted s v).msys.tinvs = s.msys.tinvs ++ [(v, [])] ∧ (accepted s v).reg .tinvst = 1 := by
  have hreg := reg_setReg_self (s.updMem fun m => { m with tinvs := m.tinvs ++ [(v, [])] }) .tinvst 1
  have hpkts := State.setReg_pkts (s.updMem fun m => { m with tinvs := m.tinvs ++ [(v, [])] }) .tinvst 1
  have hmsys := State.setReg_msys (s.updMem fun m => { m with tinvs := m.tinvs ++ [(v, [])] }) .tinvst 1
  exact ⟨hpkts, congrArg MemSys.tinvs hmsys, hreg⟩

/-- No walk of an idle context goes on, stale or not. -/
theorem accepted_walkers {v : W64} (h : Idle s (fld v 0 9)) : ∀ e ∈ (accepted s v).msys.walkers, ∀ k, e.2.walk = some k → k.ctx ≠ fld v 0 9 := by
  have hmsys := State.setReg_msys (s.updMem fun m => { m with tinvs := m.tinvs ++ [(v, [])] }) .tinvst 1
  intro e he k hk
  obtain ⟨w, hw, rfl⟩ := List.mem_map.1 he
  rw [hmsys] at hw
  obtain ⟨k', hk', rfl⟩ := Option.map_eq_some_iff.1 hk
  have := h.walkers w hw k' hk'
  split <;> exact this

theorem tinv_accepted {v : W64} (h : Idle s (fld v 0 9)) : exec (.tinv v) s = .next ((accepted s v).tinvDone v) := by
  have hnew : s.tinvNew v = true := tinvNew_first (by simp [h.tinvs])
  have hfree : ¬ (s.tinvNew v && s.msys.leases.any fun e => e.1 / 256 == fld v 0 9 && e.2.st != 0 && tinvMeets v e.2.base e.2.len) = true := by
    simp only [Bool.and_eq_true, List.any_eq_true, not_and, not_exists, beq_iff_eq, bne_iff_ne, ne_eq, hnew, true_implies]
    exact fun e he ⟨hctx, hst⟩ => absurd (h.leases e he hctx) hst
  show execTinv v s = _
  unfold execTinv
  refine (if_neg hfree).trans ?_
  simp only [hnew, Bool.not_true, Bool.false_eq_true, if_false]
  generalize hi : List.map Prod.fst (List.filter _ s.pkts) = ids
  obtain rfl : ids = [] := by
    rw [← hi, List.map_eq_nil_iff, List.filter_eq_nil_iff]
    exact fun e he => by simp [h.pkts e he]
  obtain ⟨hpkts, -, -⟩ := accepted_frame s v
  have hwalk := accepted_walkers h
  refine congrArg Host.Outcome.next ((if_neg (c := _ = true) ?_).trans rfl)
  show ¬ (List.any (accepted s v).pkts _ || List.any (accepted s v).msys.walkers _) = true
  rw [hpkts, Bool.or_eq_true, List.any_eq_true, List.any_eq_true]
  rintro (⟨e, he, hused⟩ | ⟨e, he, hwalks⟩)
  · simp [h.pkts e he] at hused
  · obtain ⟨k, hk, hstale⟩ := (Option.any_eq_true _ _).1 hwalks
    simp [hwalk e he k hk] at hstale

theorem core_dropTlb (s : State) (ctx : Nat) (p : TlbEnt → Bool) (n : Nat) : ((s.dropTlb ctx p).core n).tlb = (s.core n).tlb.filter fun t => !(t.ctx == ctx && p t) := by
  unfold State.core
  rw [SMap.get_eq_find, SMap.get_eq_find]
  have hfind := find_map_entries s.cores (fun _ (c : Core) => { c with tlb := c.tlb.filter fun t => !(t.ctx == ctx && p t) }) n
  refine (congrArg (fun c : Option Core => (c.getD {}).tlb) hfind).trans ?_
  cases s.cores.find n <;> rfl

theorem tinv_completes {v : W64} (h9 : v.getLsbD 9 = true) (h : Idle s (fld v 0 9)) : Leaves s (.tinv v) fun t =>
    t.reg .tinvst = 0 ∧ ∀ n, ∀ e ∈ (t.core n).tlb, e.ctx = fld v 0 9 → e ∈ (s.core n).tlb ∧ 2 ^ 52 ≤ e.page * pageBytes e.size := by
  obtain ⟨-, htinvs, hreg⟩ := accepted_frame s v
  let u := (accepted s v).updMem fun m => { m with tinvs := m.tinvs.filter fun e => e.1 != v }
  have hnone : u.msys.tinvs = [] := by
    show (accepted s v).msys.tinvs.filter _ = []
    rw [htinvs, h.tinvs]
    simp
  have he : exec (.tinv v) s = .next ((u.setRfld .tinvst 0 1 0).settle (.tinv v)) := by
    rw [tinv_accepted h]
    show Host.Outcome.next ((u.setRfld .tinvst 0 1 (if u.msys.tinvs.isEmpty then 0 else 1)).settle (.tinv v)) = _
    rw [hnone]
    rfl
  obtain ⟨x, m, hout⟩ := onlyOut_settle (u.setRfld .tinvst 0 1 0) (.tinv v)
  rw [hout] at he
  refine ⟨_, he, ?_, fun n e hmem hctx => ?_⟩
  · have hu : u.reg .tinvst = 1 := hreg
    refine (reg_setReg_self u .tinvst _).trans ?_
    rw [hu]
    decide
  · have hcore : ((u.setRfld .tinvst 0 1 0).core n).tlb = ((accepted s v).core n).tlb := congrArg Core.tlb (State.core_of_cores (State.setRfld_cores u .tinvst 0 1 0) n)
    have hmem' : e ∈ ((accepted s v).core n).tlb := hcore ▸ hmem
    unfold accepted at hmem'
    rw [core_dropTlb] at hmem'
    obtain ⟨hin, hkeep⟩ := List.mem_filter.1 hmem'
    have hs : (((s.updMem fun m => { m with tinvs := m.tinvs ++ [(v, [])] }).setReg .tinvst 1).core n).tlb = (s.core n).tlb :=
      congrArg Core.tlb (State.core_of_cores (State.setReg_cores _ _ _) n)
    refine ⟨hs ▸ hin, ?_⟩
    have hpos := pageBytes_pos e.size
    have hout : ¬ tinvMeets v (e.page * pageBytes e.size) (pageBytes e.size) = true := by simpa [hctx] using hkeep
    rw [tinvMeets_whole h9] at hout
    omega

end

/-- Settles O35: each event's state written out, a loop by what it keeps and what its rounds add. -/
theorem registerWritesStart : Obligations.RegisterWritesStart := by
  intro s
  refine ⟨fun ctx hv h hr => contextDestroy_ends hv h hr, fun n h => partitionTableChange_completes h, fun n old => wayMaskChange_clears s n old,
    fun ctx cls hc _ hv => serverTemplateChange_instances hc hv, fun ctx => serverTemplateChange_routes s ctx, fun ctx hl h hc => lendClear_returns hl h hc,
    fun q hset hq hempty => hardwareQueueBind_clears hset hq hempty,
    fun v h9 => ⟨fun hnew hlease => tinv_refused h9 hnew hlease, fun ht hl hp hw => tinv_completes h9 ⟨ht, hl, hp, hw⟩⟩⟩

end Sys2Proof.NetworkProofs

namespace Sys2Proof.LinkProofs
open Sys2Proof Sys2Proof.Machine Sys2Proof.BringUpProofs Sys2Proof.NetworkProofs

/-! SUPPORT and PROOFS. Links (R53 to R57, R71, R75): what an event of a link changes of the link, of what is sent, and of the registers. -/

/-! ## A link after a change -/

theorem link_updLink_ite (s : State) (n m : Nat) (f : Link → Link) : (s.updLink n f).link m = if m = n then f (s.link n) else s.link m := SMap.get_put _ _ _ _ _

theorem link_of_lodra {s t : State} (h : t.lodra = s.lodra) (n : Nat) : t.link n = s.link n := by
  unfold State.link
  rw [h]

@[simp] theorem link_setRfld (s : State) (r : RegName) (lo k v n : Nat) : (s.setRfld r lo k v).link n = s.link n := link_of_lodra (by simp) n
@[simp] theorem link_satFld (s : State) (r : RegName) (lo k v n : Nat) : (s.satFld r lo k v).link n = s.link n := link_of_lodra (by simp) n
@[simp] theorem link_push (s : State) (is : List Instr) (n : Nat) : (s.push is).link n = s.link n := by
  rfl
@[simp] theorem link_emit (s : State) (m n : Nat) (f : LinkFlit) : (s.emit m f).link n = s.link n := by
  rfl

@[simp] theorem updLink_regs (s : State) (n : Nat) (f : Link → Link) : (s.updLink n f).regs = s.regs := by
  rfl
@[simp] theorem updLink_host (s : State) (n : Nat) (f : Link → Link) : (s.updLink n f).host = s.host := by
  rfl
@[simp] theorem updLink_turns (s : State) (n : Nat) (f : Link → Link) : (s.updLink n f).turns = s.turns := by
  rfl
@[simp] theorem emit_regs (s : State) (n : Nat) (f : LinkFlit) : (s.emit n f).regs = s.regs := by
  rfl
@[simp] theorem emit_out (s : State) (n : Nat) (f : LinkFlit) : (s.emit n f).host.out = s.host.out ++ [.linkFlit n f] := by
  rfl
@[simp] theorem emit_turns (s : State) (n : Nat) (f : LinkFlit) : (s.emit n f).turns = s.turns := by
  rfl

theorem linkUp_of_rfld {s t : State} {n : Nat} (h : t.rfld (.lstat n) 9 3 = s.rfld (.lstat n) 9 3) : t.linkUp n = s.linkUp n := by
  unfold State.linkUp
  rw [h]

theorem onlyRegs_setRfld (s : State) (r : RegName) (lo n v : Nat) : OnlyRegs s (s.setRfld r lo n v) := onlyRegs_setReg s r _

theorem onlyRegs_satFld (s : State) (r : RegName) (lo n v : Nat) : OnlyRegs s (s.satFld r lo n v) := onlyRegs_setRfld s r _ _ _

theorem regsBut_satFld (s : State) {r : RegName} (lo n k : Nat) {rs : List RegName} (h : r ∈ rs) : RegsBut s (s.satFld r lo n k) rs :=
  regsBut_setRfld s _ _ _ h

/-! ### The FEC counters (R75) -/

section
variable (s : State) (n : Nat) (f : LinkFlit)

theorem onlyRegs_countFec : OnlyRegs s (s.countFec n f) := by
  unfold State.countFec
  exact onlyRegs_trans (onlyRegs_satFld s (.lcnt n) 0 32 f.corrected) (onlyRegs_satFld _ _ _ _ _)

theorem countFec_rest : s.countFec n f = { s with regs := (s.countFec n f).regs } := onlyRegs_rest (onlyRegs_countFec s n f)

theorem regsBut_countFec : RegsBut s (s.countFec n f) [.lcnt n] := by
  unfold State.countFec
  exact regsBut_trans (regsBut_satFld s 0 32 f.corrected (by simp)) (regsBut_satFld _ _ _ _ (by simp))

@[simp] theorem link_countFec (m : Nat) : (s.countFec n f).link m = s.link m := link_of_lodra (by simp [State.countFec]) m

@[simp] theorem linkUp_countFec : (s.countFec n f).linkUp n = s.linkUp n :=
  linkUp_of_rfld (rfld_of_regsBut (regsBut_countFec s n f) (by simp [RegName.addr]) 9 3)

end

/-- A flit is good where its CRC and its FEC codewords are. -/
theorem goodFlit_iff {f : LinkFlit} : goodFlit f = true ↔ flitCrcOk f = true ∧ f.uncorrectable = 0 := by
  unfold goodFlit
  simp

/-! ## What is sent (R56, R57) -/

/-- Asking for a replay between two packets sends the request. -/
theorem askReplay_sends {s : State} {n : Nat} (h : (s.link n).txPart = []) :
    s.askReplay n = ((s.updLink n fun l => { l with reqSent := true, owed := false }).satFld (.lcnt n) 32 16 1).emit n
      (buildFlit { kind := 2, lack := (s.link n).rxLack } []) := by
  unfold State.askReplay
  simp [h, link_updLink]

/-- The flits that go out as some data flits are sent again. -/
def resent (lack : Nat) (ds : List DataFlit) : List LinkFlit := ds.map fun d => buildFlit (d.head lack) d.slots

theorem foldl_emit (n : Nat) (g : State → DataFlit → LinkFlit) (lack : Nat) (hg : ∀ t : State, (t.link n).rxLack = lack → ∀ d, g t d = buildFlit (d.head lack) d.slots)
    (ds : List DataFlit) (s : State) (hs : (s.link n).rxLack = lack) :
    ds.foldl (fun t d => t.emit n (g t d)) s = { s with host := { s.host with out := s.host.out ++ (resent lack ds).map (Out.linkFlit n) } } := by
  induction ds generalizing s with
  | nil => simp [resent]
  | cons d ds ih =>
    rw [List.foldl_cons]
    refine (ih (s.emit n (g s d)) hs).trans ?_
    simp [resent, State.emit, hg s hs]

theorem resend_eq (s : State) (n : Nat) :
    s.resend n = { s with host := { s.host with out := s.host.out ++ (resent (s.link n).rxLack (s.link n).replay).map (Out.linkFlit n) } } :=
  foldl_emit n (fun t d => buildFlit (d.head (t.link n).rxLack) d.slots) _ (fun t h d => by rw [h]) _ s rfl

/-! ## What a good flit tells (R56, R57) -/

section
variable (l : Link) (h : FlitHead)

/-- The flits that still wait for LACK once a flit's header has told it. -/
def movedBy : List DataFlit :=
  if 0 < lmod h.lack l.peerLack ∧ lmod h.lack l.peerLack ≤ l.replay.length then l.replay.drop (lmod h.lack l.peerLack) else l.replay

theorem heard_rest : l.heard h =
    { l with peerLack := (l.heard h).peerLack, replay := (l.heard h).replay, requests := (l.heard h).requests, used := (l.heard h).used } := by
  unfold Link.heard
  dsimp only
  split <;> split <;> rfl

@[simp] theorem heard_replay : (l.heard h).replay = movedBy l h := by
  unfold Link.heard movedBy
  simp only [Nat.pos_iff_ne_zero]
  split <;> split <;> rfl

theorem heard_requests : (l.heard h).requests =
    if 0 < lmod h.lack l.peerLack ∧ lmod h.lack l.peerLack ≤ l.replay.length then 0 else l.requests := by
  unfold Link.heard
  simp only [Nat.pos_iff_ne_zero]
  split <;> split <;> rfl

theorem heard_used (hc : h.crv = true) : (l.heard h).used.get 0 (creditKey h.crcls h.crrsp) = l.used.get 0 (creditKey h.crcls h.crrsp) - h.crd := by
  unfold Link.heard
  simp only [hc, if_true, SMap.get_set]
  split <;> rfl

@[simp] theorem heard_rxLack : (l.heard h).rxLack = l.rxLack := (congrArg Link.rxLack (heard_rest l h)).trans rfl
@[simp] theorem heard_txPart : (l.heard h).txPart = l.txPart := (congrArg Link.txPart (heard_rest l h)).trans rfl
@[simp] theorem heard_reqSent : (l.heard h).reqSent = l.reqSent := (congrArg Link.reqSent (heard_rest l h)).trans rfl

end

/-! ## Data flits (R54, R56, R57) -/

section
variable {s : State} {n : Nat} {f : LinkFlit}

theorem linkDataFlit_ignored (h : s.linkUp n = false ∨ (goodFlit f = true ∧ (flitHead f).kind ≠ 1)) :
    exec (.linkDataFlit n f) s = .next (s.countFec n f) :=
  if_pos (by simpa using h)

theorem linkDataFlit_discarded (hu : s.linkUp n = true) (h : goodFlit f = false ∨ (flitHead f).kind = 1 ∧ lmod (flitHead f).lseq (s.link n).rxLack ≠ 1) :
    exec (.linkDataFlit n f) s = .next ((s.countFec n f).discardFlit n f) := by
  refine (if_neg ?_).trans (if_neg ?_)
  · rcases h with h | ⟨h, -⟩ <;> simp [hu, h]
  · rcases h with h | ⟨-, h⟩ <;> simp [h]

/-- What an accepted flit leaves of its link: the slots of a packet that goes on wait for the next flit. -/
def Link.accepts (l : Link) (h : FlitHead) (part : List (BitVec 128)) : Link :=
  { l.heard h with
    rxLack := h.lseq, reqSent := false, owed := false, seen := none, rxPart := part, rxKey := (h.ctx, h.cls, h.rsp)
    back := l.back.put (creditKey h.cls h.rsp) (l.back.get 0 (creditKey h.cls h.rsp) + 1) }

/-- The slots that an accepted flit adds to: those of a packet begun before, where the flit goes on with it. -/
def partBefore (l : Link) (h : FlitHead) : List (BitVec 128) := if l.rxKey = (h.ctx, h.cls, h.rsp) then l.rxPart else []

/-- The packets that end in an accepted flit leave for the gateway. -/
def flitAccepted (u : State) (n : Nat) (h : FlitHead) (taken : List SysPkt × List (BitVec 128)) : State :=
  (u.updLink n fun l => Link.accepts l h taken.2).push (taken.1.map sysEvent)

/-- The model's acceptance of a flit, by what the flit's slots give. -/
theorem acceptance_eq (u : State) (n : Nat) (h : FlitHead) (taken : List SysPkt × List (BitVec 128)) :
    (match taken with
    | (ps, part) =>
      let t := u.updLink n fun l => { l.heard h with
        rxLack := h.lseq, reqSent := false, owed := false, seen := none
        back := l.back.put (creditKey h.cls h.rsp) (l.back.get 0 (creditKey h.cls h.rsp) + 1), rxPart := part, rxKey := (h.ctx, h.cls, h.rsp) }
      (.next (t.push (ps.map sysEvent)) : Host.Outcome State Fault Refusal)) = .next (flitAccepted u n h taken) := rfl

theorem linkDataFlit_accepted (hu : s.linkUp n = true) (hg : goodFlit f = true) (hk : (flitHead f).kind = 1)
    (hs : lmod (flitHead f).lseq (s.link n).rxLack = 1) :
    exec (.linkDataFlit n f) s =
      .next (flitAccepted (s.countFec n f) n (flitHead f) (takeSlots (flitSlots f) (partBefore (s.link n) (flitHead f)))) := by
  have hlink := link_countFec s n f n
  have hup := linkUp_countFec s n f
  refine (if_neg (by simp [hup, hu, hk])).trans ((if_pos ⟨hg, by rw [hlink, hs]⟩).trans ?_)
  rw [← hlink]
  exact acceptance_eq _ n _ _

/-- Of an accepted flit: the link takes it, its packets leave, and nothing else changes but its counters. -/
structure Accepts (s t : State) (n : Nat) (h : FlitHead) (taken : List SysPkt × List (BitVec 128)) : Prop where
  link : t.link n = Link.accepts (s.link n) h taken.2
  turns : t.turns = (taken.1.map fun p => .ev (sysEvent p)) ++ s.turns
  msys : t.msys = s.msys
  cores : t.cores = s.cores
  regs : RegsBut s t [.lcnt n]

theorem accepts_counted {u : State} (hrest : u = { s with regs := u.regs }) (hregs : RegsBut s u [.lcnt n]) (h : FlitHead)
    (taken : List SysPkt × List (BitVec 128)) : Accepts s (flitAccepted u n h taken) n h taken := by
  refine ⟨?_, ?_, ?_, ?_, regsBut_trans hregs (regsBut_of_regs rfl _)⟩
  · rw [flitAccepted, link_push, link_updLink, hrest]
    rfl
  · rw [hrest]
    simp [flitAccepted, State.push, State.updLink]
  · rw [hrest]
    rfl
  · rw [hrest]
    rfl

theorem leaves_dataFlit_accepted (hu : s.linkUp n = true) (hg : goodFlit f = true) (hk : (flitHead f).kind = 1)
    (hs : lmod (flitHead f).lseq (s.link n).rxLack = 1) :
    Leaves s (.linkDataFlit n f) fun t => Accepts s t n (flitHead f) (takeSlots (flitSlots f) (partBefore (s.link n) (flitHead f))) :=
  ⟨_, linkDataFlit_accepted hu hg hk hs, accepts_counted (countFec_rest s n f) (regsBut_countFec s n f) _ _⟩

/-! ### Discarded flits (R57; log 93) -/

section
variable (s : State) (n : Nat) (good failed : Bool) (seq : Nat)

/-- A good flit out of sequence is remembered. -/
def noted : State := if good then s.updLink n fun l => { l with seen := some seq } else s

/-- A discarded flit asks for a replay where none is asked for, or the replay has failed too. -/
def discarded : State := if (s.link n).reqSent = true ∧ (!failed) = true then noted s n good seq else (noted s n good seq).askReplay n

/-- The last good flit out of sequence that has been seen. -/
def seenNow (l : Link) : Option Nat := if good then some seq else l.seen

theorem noted_link : (noted s n good seq).link n = { s.link n with seen := seenNow good seq (s.link n) } := by
  cases good with
  | true => exact link_updLink s n fun l => { l with seen := some seq }
  | false => rfl

theorem noted_rest : noted s n good seq = { s with lodra := (noted s n good seq).lodra } := by
  cases good <;> rfl

end

/-- A good flit shows that the replay has failed too: the sequence starts again, from the flit seen before or one before it. -/
def replayFailed (l : Link) (good : Bool) (seq : Nat) : Bool := good && l.seen.any fun x => lmod seq x == 0 || decide (2048 ≤ lmod seq x)

theorem discardFlit_eq (s : State) (n : Nat) (f : LinkFlit) :
    s.discardFlit n f = discarded s n (goodFlit f) (replayFailed (s.link n) (goodFlit f) (flitHead f).lseq) (flitHead f).lseq := rfl

/-- A replay has been asked for with the current LACK, and of the link only that is noted. -/
structure AskedReplay (s t : State) (n : Nat) (seen : Option Nat) : Prop where
  link : t.link n = { s.link n with reqSent := true, owed := false, seen }
  sent : t.host.out = s.host.out ++ [Out.linkFlit n (buildFlit { kind := 2, lack := (s.link n).rxLack } [])]
  turns : t.turns = s.turns
  regs : RegsBut s t [.lcnt n]

theorem askedReplay_askReplay (hp : (s.link n).txPart = []) : AskedReplay s (s.askReplay n) n (s.link n).seen := by
  rw [askReplay_sends hp]
  refine ⟨by simp [link_updLink], by simp, by simp, ?_⟩
  have hset : RegsBut s (s.updLink n fun l => { l with reqSent := true, owed := false }) [.lcnt n] := regsBut_of_regs rfl _
  exact regsBut_trans (regsBut_trans hset (regsBut_satFld _ 32 16 1 (by simp))) (regsBut_of_regs (emit_regs _ _ _) _)

/-- A request for a replay, from a state of which only registers and what the link has seen have changed. -/
theorem askedReplay_noted {u : State} (hrest : u = { s with regs := u.regs }) (hregs : RegsBut s u [.lcnt n]) (hp : (s.link n).txPart = []) (good : Bool) (seq : Nat) :
    AskedReplay s ((noted u n good seq).askReplay n) n (seenNow good seq (s.link n)) := by
  have hlu : u.link n = s.link n := (congrArg (fun t : State => t.link n) hrest).trans rfl
  have hl := noted_link u n good seq
  have hr := noted_rest u n good seq
  rw [hlu] at hl
  have ha := askedReplay_askReplay (s := noted u n good seq) (n := n) ((congrArg Link.txPart hl).trans hp)
  refine ⟨?_, ?_, ?_, ?_⟩
  · rw [ha.link, hl]
  · rw [ha.sent, hl, hr, hrest]
  · rw [ha.turns, hr, hrest]
  · exact regsBut_trans hregs (regsBut_trans (regsBut_of_regs (congrArg State.regs hr) _) ha.regs)

theorem leaves_dataFlit_asks (hu : s.linkUp n = true) (h : goodFlit f = false ∨ (flitHead f).kind = 1 ∧ lmod (flitHead f).lseq (s.link n).rxLack ≠ 1)
    (hp : (s.link n).txPart = []) (hr : (s.link n).reqSent = false ∨ replayFailed (s.link n) (goodFlit f) (flitHead f).lseq = true) :
    Leaves s (.linkDataFlit n f) fun t => AskedReplay s t n (seenNow (goodFlit f) (flitHead f).lseq (s.link n)) := by
  refine ⟨_, linkDataFlit_discarded hu h, ?_⟩
  rw [discardFlit_eq, link_countFec]
  generalize replayFailed (s.link n) (goodFlit f) (flitHead f).lseq = failed at hr ⊢
  unfold discarded
  rw [link_countFec, if_neg (by rcases hr with hr | hr <;> simp [hr])]
  exact askedReplay_noted (countFec_rest s n f) (regsBut_countFec s n f) hp _ _

/-- A flit is discarded, and nothing is sent. -/
structure Discards (s t : State) (n : Nat) (seen : Option Nat) : Prop where
  link : t.link n = { s.link n with seen }
  turns : t.turns = s.turns
  host : t.host = s.host
  regs : RegsBut s t [.lcnt n]

theorem discards_noted {u : State} (hrest : u = { s with regs := u.regs }) (hregs : RegsBut s u [.lcnt n]) (good : Bool) (seq : Nat) :
    Discards s (noted u n good seq) n (seenNow good seq (s.link n)) := by
  have hlu : u.link n = s.link n := (congrArg (fun t : State => t.link n) hrest).trans rfl
  have hr := noted_rest u n good seq
  refine ⟨?_, ?_, ?_, ?_⟩
  · rw [noted_link, hlu]
  · rw [hr, hrest]
  · rw [hr, hrest]
  · exact regsBut_trans hregs (regsBut_of_regs (congrArg State.regs hr) _)

theorem leaves_dataFlit_quiet (hu : s.linkUp n = true) (h : goodFlit f = false ∨ (flitHead f).kind = 1 ∧ lmod (flitHead f).lseq (s.link n).rxLack ≠ 1)
    (hr : (s.link n).reqSent = true) (hf : replayFailed (s.link n) (goodFlit f) (flitHead f).lseq = false) :
    Leaves s (.linkDataFlit n f) fun t => Discards s t n (seenNow (goodFlit f) (flitHead f).lseq (s.link n)) := by
  refine ⟨_, linkDataFlit_discarded hu h, ?_⟩
  rw [discardFlit_eq, link_countFec, hf]
  unfold discarded
  rw [link_countFec, if_pos (by simp [hr])]
  exact discards_noted (countFec_rest s n f) (regsBut_countFec s n f) _ _

end

section
variable {s : State} {n : Nat} {f : LinkFlit}

/-! ## Idle flits and replay requests (R56, R57) -/

/-- Of a flit that a link does not take, its FEC codewords are counted. -/
theorem counted_countFec (s : State) (n : Nat) (f : LinkFlit) :
    s.countFec n f = { s with regs := (s.countFec n f).regs } ∧ RegsBut s (s.countFec n f) [.lcnt n] := ⟨countFec_rest s n f, regsBut_countFec s n f⟩

theorem linkIdleFlit_ignored (h : goodFlit f = false ∨ s.linkUp n = false) : exec (.linkIdleFlit n f) s = .next (s.countFec n f) :=
  if_pos (by rcases h with h | h <;> simp [h])

theorem replayRequest_ignored (h : goodFlit f = false ∨ s.linkUp n = false) : exec (.replayRequest n f) s = .next (s.countFec n f) :=
  if_pos (by rcases h with h | h <;> simp [h])

/-- Of a state only registers and what belongs to the links and their flows change. -/
def OnlyLinks (s t : State) : Prop := ∃ r l, t = { s with regs := r, lodra := l }

namespace OnlyLinks
variable {t u : State}
theorem host (h : OnlyLinks s t) : t.host = s.host := by obtain ⟨_, _, rfl⟩ := h; rfl
theorem turns (h : OnlyLinks s t) : t.turns = s.turns := by obtain ⟨_, _, rfl⟩ := h; rfl
theorem msys (h : OnlyLinks s t) : t.msys = s.msys := by obtain ⟨_, _, rfl⟩ := h; rfl
theorem cores (h : OnlyLinks s t) : t.cores = s.cores := by obtain ⟨_, _, rfl⟩ := h; rfl
theorem trans (h : OnlyLinks s t) (h' : OnlyLinks t u) : OnlyLinks s u := by
  obtain ⟨_, _, rfl⟩ := h
  obtain ⟨r, l, rfl⟩ := h'
  exact ⟨r, l, rfl⟩
theorem updLink (s : State) (n : Nat) (g : Link → Link) : OnlyLinks s (s.updLink n g) := ⟨_, _, rfl⟩
theorem of_regs (h : OnlyRegs s t) : OnlyLinks s t := by obtain ⟨r, rfl⟩ := h; exact ⟨r, _, rfl⟩
end OnlyLinks

theorem onlyLinks_counted (s : State) (n : Nat) (f : LinkFlit) (g : Link → Link) : OnlyLinks s ((s.countFec n f).updLink n g) :=
  (OnlyLinks.of_regs (onlyRegs_countFec s n f)).trans (OnlyLinks.updLink _ n g)

/-- The state once a link has taken the LACK and the credits of a header. -/
def heardAt (s : State) (n : Nat) (f : LinkFlit) : State := (s.countFec n f).updLink n fun l => l.heard (flitHead f)

theorem onlyLinks_heardAt (s : State) (n : Nat) (f : LinkFlit) : OnlyLinks s (heardAt s n f) := onlyLinks_counted s n f _

@[simp] theorem heardAt_link (s : State) (n : Nat) (f : LinkFlit) : (heardAt s n f).link n = (s.link n).heard (flitHead f) := by
  unfold heardAt
  rw [link_updLink, link_countFec]

theorem linkIdleFlit_heard (hu : s.linkUp n = true) (hg : goodFlit f = true) (hk : (flitHead f).kind = 0) :
    exec (.linkIdleFlit n f) s = .next (if (s.link n).reqSent = true then (heardAt s n f).askReplay n else heardAt s n f) := by
  refine (if_neg (by simp [hu, hg, hk])).trans ?_
  have h : ((heardAt s n f).link n).reqSent = (s.link n).reqSent := by rw [heardAt_link, heard_reqSent]
  rw [← h]
  rfl

theorem leaves_idleFlit_asks (hu : s.linkUp n = true) (hg : goodFlit f = true) (hk : (flitHead f).kind = 0) (hr : (s.link n).reqSent = true)
    (hp : (s.link n).txPart = []) :
    Leaves s (.linkIdleFlit n f) fun t => t.host.out = s.host.out ++ [Out.linkFlit n (buildFlit { kind := 2, lack := (s.link n).rxLack } [])] := by
  have ha := askedReplay_askReplay (s := heardAt s n f) (n := n) (by rw [heardAt_link, heard_txPart, hp])
  refine ⟨_, (linkIdleFlit_heard hu hg hk).trans (by rw [if_pos hr]), ?_⟩
  exact ha.sent.trans (by rw [heardAt_link, heard_rxLack, (onlyLinks_heardAt s n f).host])

theorem leaves_idleFlit_quiet (hu : s.linkUp n = true) (hg : goodFlit f = true) (hk : (flitHead f).kind = 0) (hr : (s.link n).reqSent = false) :
    Leaves s (.linkIdleFlit n f) fun t => OnlyLinks s t ∧ t.link n = (s.link n).heard (flitHead f) :=
  ⟨_, (linkIdleFlit_heard hu hg hk).trans (by rw [hr, if_neg Bool.false_ne_true]), onlyLinks_heardAt s n f, heardAt_link s n f⟩

@[simp] theorem turns_push (s : State) (is : List Instr) : (s.push is).turns = is.map .ev ++ s.turns := by
  rfl

@[simp] theorem link_resend (s : State) (n m : Nat) : (s.resend n).link m = s.link m := by
  rw [resend_eq]
  rfl

theorem resend_out (s : State) (n : Nat) :
    (s.resend n).host.out = s.host.out ++ (resent (s.link n).rxLack (s.link n).replay).map (Out.linkFlit n) := by rw [resend_eq]

@[simp] theorem resend_turns (s : State) (n : Nat) : (s.resend n).turns = s.turns := by rw [resend_eq]

@[simp] theorem resend_regs (s : State) (n : Nat) : (s.resend n).regs = s.regs := by rw [resend_eq]

/-! ### Replay requests in a row (R57) -/

/-- The requests in a row that a link has had, with one more. -/
def requestsInRow (l : Link) (h : FlitHead) : Nat :=
  if 0 < lmod h.lack l.peerLack ∧ lmod h.lack l.peerLack ≤ l.replay.length then 1 else l.requests + 1

/-- A change of a link that leaves its replay buffer alone. -/
theorem replay_updLink (s : State) {n : Nat} {g : Link → Link} (h : ∀ l, (g l).replay = l.replay) : ((s.updLink n g).link n).replay = (s.link n).replay := by
  rw [link_updLink, h]

/-- The state once a replay request has been counted. -/
def requestCounted (s : State) (n : Nat) (f : LinkFlit) : State :=
  (s.countFec n f).updLink n fun l => { l.heard (flitHead f) with requests := (l.heard (flitHead f)).requests + 1 }

theorem requestCounted_link (s : State) (n : Nat) (f : LinkFlit) :
    (requestCounted s n f).link n = { (s.link n).heard (flitHead f) with requests := requestsInRow (s.link n) (flitHead f) } := by
  have h : ((s.link n).heard (flitHead f)).requests + 1 = requestsInRow (s.link n) (flitHead f) := by
    rw [heard_requests]
    unfold requestsInRow
    split <;> rfl
  unfold requestCounted
  rw [link_updLink, link_countFec, h]

theorem onlyLinks_requestCounted (s : State) (n : Nat) (f : LinkFlit) : OnlyLinks s (requestCounted s n f) := onlyLinks_counted s n f _

theorem replayRequest_counted (hu : s.linkUp n = true) (hg : goodFlit f = true) (hk : (flitHead f).kind = 2) :
    exec (.replayRequest n f) s =
      if 8 ≤ requestsInRow (s.link n) (flitHead f) then .next (((requestCounted s n f).updLink n fun l => { l with requests := 0 }).push [.linkRetrain n])
      else .next ((requestCounted s n f).resend n) := by
  refine (if_neg (by simp [hu, hg, hk])).trans ?_
  have h : ((requestCounted s n f).link n).requests = requestsInRow (s.link n) (flitHead f) := by rw [requestCounted_link]
  rw [← h]
  rfl

theorem requestCounted_replay (s : State) (n : Nat) (f : LinkFlit) : ((requestCounted s n f).link n).replay = movedBy (s.link n) (flitHead f) := by rw [requestCounted_link, heard_replay]
theorem requestCounted_rxLack (s : State) (n : Nat) (f : LinkFlit) : ((requestCounted s n f).link n).rxLack = (s.link n).rxLack := by rw [requestCounted_link, heard_rxLack]
theorem requestCounted_requests (s : State) (n : Nat) (f : LinkFlit) : ((requestCounted s n f).link n).requests = requestsInRow (s.link n) (flitHead f) := by rw [requestCounted_link]

theorem leaves_replayRequest_few (hu : s.linkUp n = true) (hg : goodFlit f = true) (hk : (flitHead f).kind = 2) (h : requestsInRow (s.link n) (flitHead f) < 8) :
    Leaves s (.replayRequest n f) fun t => (t.link n).replay = movedBy (s.link n) (flitHead f) ∧
      t.host.out = s.host.out ++ (resent (s.link n).rxLack (movedBy (s.link n) (flitHead f))).map (Out.linkFlit n) ∧
      (t.link n).requests = requestsInRow (s.link n) (flitHead f) ∧ t.turns = s.turns := by
  have hrest := onlyLinks_requestCounted s n f
  refine ⟨_, (replayRequest_counted hu hg hk).trans (if_neg (Nat.not_le.2 h)), ?_, ?_, ?_, ?_⟩
  · rw [link_resend, requestCounted_replay]
  · rw [resend_out, requestCounted_rxLack, requestCounted_replay, hrest.host]
  · rw [link_resend, requestCounted_requests]
  · rw [resend_turns, hrest.turns]

theorem leaves_replayRequest_many (hu : s.linkUp n = true) (hg : goodFlit f = true) (hk : (flitHead f).kind = 2) (h : 8 ≤ requestsInRow (s.link n) (flitHead f)) :
    Leaves s (.replayRequest n f) fun t => (t.link n).replay = movedBy (s.link n) (flitHead f) ∧
      t.host = s.host ∧ (t.link n).requests = 0 ∧ t.turns = .ev (.linkRetrain n) :: s.turns := by
  have hrest := onlyLinks_requestCounted s n f
  refine ⟨_, (replayRequest_counted hu hg hk).trans (if_pos h), ?_, ?_, ?_, ?_⟩
  · rw [link_push]
    exact (replay_updLink (requestCounted s n f) (g := fun l => { l with requests := 0 }) (fun _ => rfl)).trans (requestCounted_replay s n f)
  · rw [State.push_host, updLink_host, hrest.host]
  · rw [link_push, link_updLink]
  · rw [turns_push, updLink_turns, hrest.turns, List.map_cons, List.map_nil, List.singleton_append]

end

/-! ## Retraining (R57) -/

section
variable {s : State} {n : Nat}

theorem rfld_of_regs {s t : State} (h : t.regs = s.regs) (r : RegName) (lo k : Nat) : t.rfld r lo k = s.rfld r lo k := by
  unfold State.rfld State.reg
  rw [h]

/-- A link takes a state, and it is live or not (R57). -/
def setStatus (s : State) (n st up : Nat) : State := (s.setRfld (.lstat n) 9 3 st).setRfld (.lstat n) 0 1 up

theorem setStatus_state (s : State) (n st up : Nat) : (setStatus s n st up).rfld (.lstat n) 9 3 = st % 8 :=
  (rfld_setRfld_other _ _ _ (by decide) (by decide)).trans (rfld_setRfld_self _ _ _ (by decide))

theorem setStatus_up (s : State) (n st up : Nat) : (setStatus s n st up).rfld (.lstat n) 0 1 = up % 2 := rfld_setRfld_self _ _ _ (by decide)

theorem onlyRegs_setStatus (s : State) (n st up : Nat) : OnlyRegs s (setStatus s n st up) :=
  onlyRegs_trans (onlyRegs_setRfld s _ _ _ _) (onlyRegs_setRfld _ _ _ _ _)

theorem regsBut_setStatus (s : State) (n st up : Nat) : RegsBut s (setStatus s n st up) [.lstat n] :=
  regsBut_trans (regsBut_setRfld s _ _ _ (List.mem_singleton_self _)) (regsBut_setRfld _ _ _ _ (List.mem_singleton_self _))

@[simp] theorem link_setStatus (s : State) (n st up m : Nat) : (setStatus s n st up).link m = s.link m := by
  rw [setStatus, link_setRfld, link_setRfld]

/-- What a link is once it retrains. -/
def retraining (s : State) (l : Link) : Link := { l with retrain := some (s.now + 300000), recal := none }

theorem linkRetrain_eq (h : s.linkUp n = true) :
    exec (.linkRetrain n) s = .next (((setStatus s n 4 0).satFld (.lstat n) 22 16 1).updLink n (retraining s)) :=
  (if_pos h).trans (by
    have hnow : ((setStatus s n 4 0).satFld (.lstat n) 22 16 1).now = s.now := by simp [setStatus]
    show _ = Host.Outcome.next (State.updLink _ n fun l => { l with retrain := some (s.now + 300000), recal := none })
    rw [← hnow]
    rfl)

theorem rfld_satFld_other (s : State) (r : RegName) {lo k lo' k' : Nat} (v : Nat) (hn : lo + k ≤ 64) (h : lo' + k' ≤ lo ∨ lo + k ≤ lo') :
    (s.satFld r lo k v).rfld r lo' k' = s.rfld r lo' k' := rfld_setRfld_other s r _ hn h

theorem leaves_linkRetrain (h : s.linkUp n = true) : Leaves s (.linkRetrain n) fun t => t.rfld (.lstat n) 9 3 = 4 ∧ t.rfld (.lstat n) 0 1 = 0 ∧
    t.link n = retraining s (s.link n) ∧ RegsBut s t [.lstat n] := by
  refine ⟨_, linkRetrain_eq h, ?_, ?_, ?_, ?_⟩
  · rw [rfld_of_regs (updLink_regs _ _ _), rfld_satFld_other _ _ _ (by decide) (by decide), setStatus_state]
  · rw [rfld_of_regs (updLink_regs _ _ _), rfld_satFld_other _ _ _ (by decide) (by decide), setStatus_up]
  · rw [link_updLink, link_satFld, link_setStatus]
  · have hsat := regsBut_satFld (setStatus s n 4 0) 22 16 1 (List.mem_singleton_self (RegName.lstat n))
    exact regsBut_trans (regsBut_setStatus s n 4 0) (regsBut_trans hsat (regsBut_of_regs (updLink_regs _ _ _) _))

/-- What a link is once it has retrained: no retraining, and no replay asked for, stands. -/
def retrained (l : Link) : Link := { l with retrain := none, reqSent := false, owed := false, seen := none }

/-- The state once a link has retrained on some lanes. -/
def lanesSet (s : State) (n : Nat) (lanes : BitVec 8) : State := (s.updLink n retrained).setRfld (.lstat n) 1 8 lanes.toNat

theorem lanesSet_lanes (s : State) (n : Nat) (lanes : BitVec 8) : (lanesSet s n lanes).rfld (.lstat n) 1 8 = lanes.toNat :=
  (rfld_setRfld_self _ _ _ (by decide)).trans (Nat.mod_eq_of_lt lanes.isLt)

theorem lanesSet_link (s : State) (n : Nat) (lanes : BitVec 8) : (lanesSet s n lanes).link n = retrained (s.link n) := by
  rw [lanesSet, link_setRfld, link_updLink]

theorem regsBut_lanesSet (s : State) (n : Nat) (lanes : BitVec 8) : RegsBut s (lanesSet s n lanes) [.lstat n] :=
  regsBut_trans (regsBut_of_regs (updLink_regs _ _ _) _) (regsBut_setRfld _ _ _ _ (List.mem_singleton_self _))

theorem onlyLinks_lanesSet (s : State) (n : Nat) (lanes : BitVec 8) : OnlyLinks s (lanesSet s n lanes) :=
  (OnlyLinks.updLink s n _).trans (.of_regs (onlyRegs_setRfld _ _ _ _ _))

theorem setStatus_lanes (s : State) (n st up : Nat) : (setStatus s n st up).rfld (.lstat n) 1 8 = s.rfld (.lstat n) 1 8 :=
  (rfld_setRfld_other _ _ _ (by decide) (by decide)).trans (rfld_setRfld_other _ _ _ (by decide) (by decide))

/-- On 8 lanes or 7 the link goes on with a replay. -/
theorem leaves_retrainComplete_up {lanes : BitVec 8} (h : s.rfld (.lstat n) 9 3 = 4) (hn : 7 ≤ laneCount lanes) :
    Leaves s (.linkRetrainComplete n lanes) fun t => t.rfld (.lstat n) 1 8 = lanes.toNat ∧ t.link n = retrained (s.link n) ∧ RegsBut s t [.lstat n] ∧
      t.rfld (.lstat n) 9 3 = (if laneCount lanes = 8 then 2 else 3) ∧ t.rfld (.lstat n) 0 1 = 1 ∧
      t.host.out = s.host.out ++ (resent (s.link n).rxLack (s.link n).replay).map (Out.linkFlit n) := by
  have he : exec (.linkRetrainComplete n lanes) s = .next ((setStatus (lanesSet s n lanes) n (if laneCount lanes = 8 then 2 else 3) 1).resend n) :=
    (if_pos h).trans (if_pos hn)
  refine ⟨_, he, ?_, ?_, ?_, ?_, ?_, ?_⟩
  · rw [rfld_of_regs (resend_regs _ _), setStatus_lanes, lanesSet_lanes]
  · rw [link_resend, link_setStatus, lanesSet_link]
  · exact regsBut_trans (regsBut_lanesSet s n lanes) (regsBut_trans (regsBut_setStatus _ n _ 1) (regsBut_of_regs (resend_regs _ _) _))
  · rw [rfld_of_regs (resend_regs _ _), setStatus_state]
    split <;> rfl
  · rw [rfld_of_regs (resend_regs _ _), setStatus_up]
  · have hout : (setStatus (lanesSet s n lanes) n (if laneCount lanes = 8 then 2 else 3) 1).host = s.host :=
      (OnlyLinks.of_regs (onlyRegs_setStatus _ _ _ _)).host.trans (onlyLinks_lanesSet s n lanes).host
    rw [resend_out, hout, link_setStatus, lanesSet_link]
    rfl

/-- On fewer lanes the link goes down. -/
theorem leaves_retrainComplete_down {lanes : BitVec 8} (h : s.rfld (.lstat n) 9 3 = 4) (hn : laneCount lanes < 7) :
    Leaves s (.linkRetrainComplete n lanes) fun t => t.rfld (.lstat n) 1 8 = lanes.toNat ∧ t.link n = retrained (s.link n) ∧ RegsBut s t [.lstat n] ∧
      t.turns = .ev (.linkDown n) :: s.turns ∧ t.host = s.host := by
  have he : exec (.linkRetrainComplete n lanes) s = .next ((lanesSet s n lanes).push [.linkDown n]) := (if_pos h).trans (if_neg (Nat.not_le.2 hn))
  refine ⟨_, he, ?_, ?_, ?_, ?_, ?_⟩
  · rw [rfld_of_regs (State.push_regs _ _), lanesSet_lanes]
  · rw [link_push, lanesSet_link]
  · exact regsBut_trans (regsBut_lanesSet s n lanes) (regsBut_of_regs (State.push_regs _ _) _)
  · rw [turns_push, (onlyLinks_lanesSet s n lanes).turns]
    rfl
  · rw [State.push_host, (onlyLinks_lanesSet s n lanes).host]

/-! ## A link that goes down and returns (R57, R71) -/

/-- Packets for strands that are live leave a link that is down alone. -/
theorem link_onStrand_down (h : s.linkUp n = false) (i : Nat) (p : SysPkt) : (s.onStrand i p).link n = s.link n := by
  unfold State.onStrand
  dsimp only
  split
  · next m hm =>
    have hup : s.linkUp m = true := (List.mem_filter.1 (List.mem_of_getElem? hm)).2
    rw [link_updLink_ite, if_neg]
    rintro rfl
    exact absurd hup (by simp [h])
  · rfl

theorem linkUp_of_regs {t : State} (h : t.regs = s.regs) (m : Nat) : t.linkUp m = s.linkUp m := linkUp_of_rfld (rfld_of_regs h _ _ _)

/-- The packets that wait at a link that is down go out on others. -/
theorem rerouted_keeps (ws : List (Nat × SysPkt)) (h : s.linkUp n = false) :
    (ws.foldl (fun s w => s.onStrand w.1 w.2) s).regs = s.regs ∧ (ws.foldl (fun s w => s.onStrand w.1 w.2) s).link n = s.link n := by
  induction ws generalizing s with
  | nil => exact ⟨rfl, rfl⟩
  | cons w ws ih =>
    have hr := onStrand_regs s w.1 w.2
    obtain ⟨hregs, hlink⟩ := ih (s := s.onStrand w.1 w.2) ((linkUp_of_regs hr n).trans h)
    exact ⟨hregs.trans hr, hlink.trans (link_onStrand_down h w.1 w.2)⟩

/-- A link that has gone down, before what waited there is sent again. -/
def goneDown (s : State) (n : Nat) : State := (setStatus s n 0 0).updLink n fun l => { l with wait := [], retrain := none, recal := none }

theorem linkUp_goneDown (s : State) (n : Nat) : (goneDown s n).linkUp n = false := by
  have h : (goneDown s n).rfld (.lstat n) 9 3 = 0 := by rw [goneDown, rfld_of_regs (updLink_regs _ _ _), setStatus_state]
  simp [State.linkUp, h]

theorem linkDown_eq (s : State) (n : Nat) : exec (.linkDown n) s =
    .next ((s.link n).wait.foldl (fun s w => s.onStrand w.1 w.2) (goneDown s n)) := by
  have h : ((setStatus s n 0 0).link n).wait = (s.link n).wait := by rw [link_setStatus]
  rw [← h]
  rfl

theorem leaves_linkDown (s : State) (n : Nat) : Leaves s (.linkDown n) fun t => t.rfld (.lstat n) 9 3 = 0 ∧ t.rfld (.lstat n) 0 1 = 0 ∧ t.linkUp n = false ∧
    (t.link n).replay = (s.link n).replay ∧ (t.link n).wait = [] ∧ RegsBut s t [.lstat n] := by
  obtain ⟨hregs, hlink⟩ := rerouted_keeps (s.link n).wait (linkUp_goneDown s n)
  have hr := hregs.trans (updLink_regs _ _ _)
  refine ⟨_, linkDown_eq s n, ?_, ?_, ?_, ?_, ?_, ?_⟩
  · rw [rfld_of_regs hr, setStatus_state]
  · rw [rfld_of_regs hr, setStatus_up]
  · rw [linkUp_of_regs hregs, linkUp_goneDown]
  · rw [hlink, goneDown, link_updLink, link_setStatus]
  · rw [hlink, goneDown, link_updLink]
  · exact regsBut_trans (regsBut_setStatus s n 0 0) (regsBut_of_regs hr _)

theorem leaves_linkReturn (h : s.linkUp n = false) : Leaves s (.linkReturn n) fun t => t.rfld (.lstat n) 9 3 = 2 ∧ t.rfld (.lstat n) 0 1 = 1 ∧
    t.rfld (.lstat n) 1 8 = 255 ∧ t = { s with regs := t.regs } ∧ RegsBut s t [.lstat n] := by
  have he : exec (.linkReturn n) s = .next ((setStatus s n 2 1).setRfld (.lstat n) 1 8 255) := if_neg (by simp [h])
  refine ⟨_, he, ?_, ?_, ?_, ?_, ?_⟩
  · rw [rfld_setRfld_other _ _ _ (by decide) (by decide), setStatus_state]
  · rw [rfld_setRfld_other _ _ _ (by decide) (by decide), setStatus_up]
  · exact rfld_setRfld_self _ _ _ (by decide)
  · exact onlyRegs_rest (onlyRegs_trans (onlyRegs_setStatus s n 2 1) (onlyRegs_setRfld _ _ _ _ _))
  · exact regsBut_trans (regsBut_setStatus s n 2 1) (regsBut_setRfld _ _ _ _ (List.mem_singleton_self _))

end

/-! ## What a link's events leave -/

theorem leaves_imp {s : State} {i : Instr} {P Q : State → Prop} (h : Leaves s i P) (hpq : ∀ t, P t → Q t) : Leaves s i Q :=
  h.imp fun t ⟨he, hp⟩ => ⟨he, hpq t hp⟩

section
variable {l : Link} {good : Bool} {seq x : Nat}

theorem seenNow_good : seenNow true seq l = some seq := rfl
theorem seenNow_bad : seenNow false seq l = l.seen := rfl

theorem replayFailed_bad : replayFailed l false seq = false := rfl

theorem replayFailed_unseen (h : l.seen = none) : replayFailed l good seq = false := by simp [replayFailed, h]

theorem lmod_self : lmod seq seq = 0 := by
  unfold lmod
  omega

/-- The flit that was seen before comes again. -/
theorem replayFailed_same (h : l.seen = some seq) : replayFailed l true seq = true := by simp [replayFailed, h, lmod_self]

theorem replayFailed_later (h : l.seen = some x) (hpos : 0 < lmod seq x) (hlt : lmod seq x < 2048) : replayFailed l good seq = false := by
  have hne : lmod seq x ≠ 0 := Nat.ne_of_gt hpos
  simp [replayFailed, h, hne, hlt]

end

section
variable {s : State} {n : Nat} {f : LinkFlit}

/-- A good flit out of sequence on a link that waits for a replay: one that shows that the replay has failed asks for it again. -/
theorem leaves_dataFlit_seen {x : Nat} (hu : s.linkUp n = true) (hg : goodFlit f = true) (hk : (flitHead f).kind = 1)
    (hs : lmod (flitHead f).lseq (s.link n).rxLack ≠ 1) (hr : (s.link n).reqSent = true) (hx : (s.link n).seen = some x) (hp : (s.link n).txPart = []) :
    Leaves s (.linkDataFlit n f) fun t => (t.link n).seen = some (flitHead f).lseq ∧ t.turns = s.turns ∧
      ((flitHead f).lseq = x → t.host.out = s.host.out ++ [Out.linkFlit n (buildFlit { kind := 2, lack := (s.link n).rxLack } [])]) ∧
      (0 < lmod (flitHead f).lseq x → lmod (flitHead f).lseq x < 2048 → t.host = s.host) := by
  have hbad : goodFlit f = false ∨ (flitHead f).kind = 1 ∧ lmod (flitHead f).lseq (s.link n).rxLack ≠ 1 := .inr ⟨hk, hs⟩
  cases hf : replayFailed (s.link n) (goodFlit f) (flitHead f).lseq with
  | true =>
    refine leaves_imp (leaves_dataFlit_asks hu hbad hp (.inr hf)) fun t ht => ?_
    rw [hg] at ht hf
    refine ⟨by rw [ht.link, seenNow_good], ht.turns, fun _ => ht.sent, fun h0 h1 => ?_⟩
    rw [replayFailed_later hx h0 h1] at hf
    cases hf
  | false =>
    refine leaves_imp (leaves_dataFlit_quiet hu hbad hr hf) fun t ht => ?_
    rw [hg] at ht hf
    refine ⟨by rw [ht.link, seenNow_good], ht.turns, fun h => ?_, fun _ _ => ht.host⟩
    rw [replayFailed_same (by rw [hx, h])] at hf
    cases hf

end

/-- Settles O42: each clause is what one event does of a link that it finds in the clause's state. -/
theorem linkEvents : Obligations.LinkEvents := by
  unfold Obligations.LinkEvents
  intro s n f _ l _ sends replayed good d moved row counted
  have hgood : good ↔ goodFlit f = true := goodFlit_iff.symm
  have hbad : ¬ good ↔ goodFlit f = false := hgood.not.trans (by rw [Bool.not_eq_true])
  have hcounted : counted (s.countFec n f) := counted_countFec s n f
  refine ⟨fun hu hg hk hs => ?_, fun hu hb hp hr => ?_, fun hu hg hk hs hx hr => ?_, fun hu hb hr => ?_, fun x hu hg hk hs hr hx hp => ?_, fun hu hg hk => ?_,
    fun hu hg hk hr hp => ?_, fun hu hg hk hr => ?_, fun hu hg hk => ?_, fun hu => ?_, fun hb => ?_, leaves_linkRetrain, fun lanes hl => ?_, leaves_linkDown s n, leaves_linkReturn⟩
  · refine leaves_imp (leaves_dataFlit_accepted hu (hgood.1 hg) hk hs) fun t ht => ?_
    rw [ht.link]
    exact ⟨rfl, heard_replay _ _, rfl, rfl, SMap.get_put_self _ _ _ _, rfl, ht.turns, ht.msys, ht.cores, ht.regs⟩
  · refine leaves_imp (leaves_dataFlit_asks hu (hb.imp_left hbad.1) hp (.inl hr)) fun t ht => ?_
    rw [ht.link]
    exact ⟨rfl, rfl, rfl, ht.turns, ht.regs, ht.sent⟩
  · refine leaves_imp (leaves_dataFlit_quiet hu (.inr ⟨hk, hs⟩) hr (replayFailed_unseen hx)) fun t ht => ?_
    rw [hgood.1 hg, seenNow_good] at ht
    exact ⟨ht.link, ht.turns, ht.host, ht.regs⟩
  · refine leaves_imp (leaves_dataFlit_quiet hu (.inl (hbad.1 hb)) hr (by rw [hbad.1 hb, replayFailed_bad])) fun t ht => ?_
    rw [hbad.1 hb, seenNow_bad] at ht
    exact ⟨ht.link, ht.turns, ht.host⟩
  · exact leaves_dataFlit_seen hu (hgood.1 hg) hk hs hr hx hp
  · exact ⟨_, linkDataFlit_ignored (.inr ⟨hgood.1 hg, hk⟩), hcounted⟩
  · exact leaves_idleFlit_asks hu (hgood.1 hg) hk hr hp
  · refine leaves_imp (leaves_idleFlit_quiet hu (hgood.1 hg) hk hr) fun t ⟨hrest, hlink⟩ => ?_
    rw [hlink]
    exact ⟨heard_replay _ _, heard_rxLack _ _, heard_used _ _, hrest.turns, hrest.host, hrest.cores, hrest.msys⟩
  · by_cases h8 : 8 ≤ row
    · exact leaves_imp (leaves_replayRequest_many hu (hgood.1 hg) hk h8) fun t ⟨hm, ht⟩ => ⟨hm, fun hlt => absurd h8 (Nat.not_le.2 hlt), fun _ => ht⟩
    · exact leaves_imp (leaves_replayRequest_few hu (hgood.1 hg) hk (Nat.not_le.1 h8)) fun t ⟨hm, ht⟩ => ⟨hm, fun _ => ht, fun hle => absurd hle h8⟩
  · exact ⟨⟨_, linkDataFlit_ignored (.inl hu), hcounted⟩, ⟨_, linkIdleFlit_ignored (.inr hu), hcounted⟩, ⟨_, replayRequest_ignored (.inr hu), hcounted⟩⟩
  · exact ⟨⟨_, linkIdleFlit_ignored (.inl (hbad.1 hb)), hcounted⟩, ⟨_, replayRequest_ignored (.inl (hbad.1 hb)), hcounted⟩⟩
  · by_cases h7 : 7 ≤ laneCount lanes
    · exact leaves_imp (leaves_retrainComplete_up hl h7) fun t ⟨hlanes, hlink, hregs, ht⟩ => ⟨hlanes, hlink, hregs, fun _ => ht, fun hlt => absurd h7 (Nat.not_le.2 hlt)⟩
    · exact leaves_imp (leaves_retrainComplete_down hl (Nat.not_le.1 h7)) fun t ⟨hlanes, hlink, hregs, ht⟩ => ⟨hlanes, hlink, hregs, fun hle => absurd hle h7, fun _ => ht⟩

end Sys2Proof.LinkProofs

namespace Sys2Proof.GateProofs
open Sys2Proof Sys2Proof.Machine Sys2Proof.BringUpProofs Sys2Proof.NetworkProofs

/-! SUPPORT. Operations of the system network on a context's memory (R37): what starting one by the gateways leaves. -/

/-! ## Requests that enter the grid by the gateways (R28, R37) -/

/-- Of a state only the packets and the stamp change. -/
def OnlyPkts (s t : State) : Prop := ∃ m n, t = { s with pkts := m, stamp := n }

theorem OnlyPkts.trans {s t u : State} (h : OnlyPkts s t) (h' : OnlyPkts t u) : OnlyPkts s u := by
  obtain ⟨_, _, rfl⟩ := h
  obtain ⟨m, n, rfl⟩ := h'
  exact ⟨m, n, rfl⟩

theorem OnlyPkts.translate {s t : State} (h : OnlyPkts s t) (ctx va : Nat) : t.translate ctx va = s.translate ctx va := by
  obtain ⟨_, _, rfl⟩ := h
  rfl

/-- The packet of a request, at the gateway of its home slice's router. -/
def gatePkt (s : State) (o : Op) (id : Nat) (r : GateReq) (pa : Nat) : Pkt :=
  let p := (s.request id o r.code r.va).toHome pa
  { p with srt := p.drt, sep := 15, inp := 15, stage := .net p.drt, mask := r.mask, data := r.data, born := s.now, arr := s.stamp, came := s.now }

/-- One request of an operation enters the grid. -/
def gateSend (o : Op) (id : Nat) (s : State) (r : GateReq) : State :=
  match s.translate o.ctx r.va with
  | none => s.pktFail id 3 (BitVec.ofNat 64 r.va) 1
  | some pa => { s.bump with pkts := s.pkts.put s.stamp (gatePkt s o id r pa) }

theorem startGate_eq (s : State) (o : Op) (rs : List GateReq) :
    s.startGate o rs = rs.foldl (gateSend o s.stamp) { s.bump with ops := s.ops.put s.stamp { o with left := rs.length } } := rfl

/-- A request's packet stands in the grid under its number. -/
def GateSent (s t : State) (o : Op) (id n : Nat) (r : GateReq) : Prop :=
  ∃ p pa, t.pkts.find n = some p ∧ s.translate o.ctx r.va = some pa ∧ p.opId = id ∧ p.op = r.code ∧ p.addr = pa ∧ p.mask = r.mask ∧ p.data = r.data ∧
    p.drt = sliceRtr (sliceOfChannel (channelOf pa)) ∧ p.dep = slicePort (sliceOfChannel (channelOf pa)) ∧ p.srt = p.drt ∧ p.sep = 15 ∧ p.stage = .net p.drt

section
variable {s : State} {o : Op} {id : Nat}

theorem gateSend_sends {r : GateReq} (h : (s.translate o.ctx r.va).isSome = true) : OnlyPkts s (gateSend o id s r) ∧ (gateSend o id s r).stamp = s.stamp + 1 ∧
    (∀ k, k ≠ s.stamp → (gateSend o id s r).pkts.find k = s.pkts.find k) ∧ GateSent s (gateSend o id s r) o id s.stamp r := by
  obtain ⟨pa, hpa⟩ := Option.isSome_iff_exists.1 h
  have he : gateSend o id s r = { s.bump with pkts := s.pkts.put s.stamp (gatePkt s o id r pa) } := by simp only [gateSend, hpa]
  rw [he]
  exact ⟨⟨_, _, rfl⟩, rfl, fun k hk => SMap.find_put_other _ _ hk,
    _, pa, SMap.find_put_self _ _ _, hpa, rfl, rfl, rfl, rfl, rfl, rfl, rfl, rfl, rfl, rfl⟩

/-- Requests that all have a translation enter the grid one after another. -/
theorem foldl_gateSend {rs : List GateReq} (h : s.reaches o.ctx rs) : OnlyPkts s (rs.foldl (gateSend o id) s) ∧
    (∀ k, k < s.stamp → (rs.foldl (gateSend o id) s).pkts.find k = s.pkts.find k) ∧
    ∀ (j : Nat) (r : GateReq), rs[j]? = some r → GateSent s (rs.foldl (gateSend o id) s) o id (s.stamp + j) r := by
  induction rs generalizing s with
  | nil => exact ⟨⟨_, _, rfl⟩, fun _ _ => rfl, fun j r hr => by simp at hr⟩
  | cons r rs ih =>
    obtain ⟨honly, hstamp, hother, hsent⟩ := gateSend_sends (id := id) (h r (by simp))
    have hreach : (gateSend o id s r).reaches o.ctx rs := fun q hq => by
      rw [honly.translate]
      exact h q (by simp [hq])
    obtain ⟨honly', hold, hlater⟩ := ih hreach
    rw [hstamp] at hold hlater
    refine ⟨honly.trans honly', fun k hk => (hold k (by omega)).trans (hother k (by omega)), fun j q hj => ?_⟩
    cases j with
    | zero =>
      obtain rfl : r = q := by simpa using hj
      obtain ⟨p, pa, hp, hrest⟩ := hsent
      exact ⟨p, pa, (hold _ (by omega)).trans hp, hrest⟩
    | succ j =>
      obtain ⟨p, pa, hp, hpa, hrest⟩ := hlater j q (by simpa using hj)
      rw [honly.translate] at hpa
      exact ⟨p, pa, by rw [← hp]; congr 1; omega, hpa, hrest⟩

/-- Of a state only the operations, the packets and the stamp change. -/
def OnlyOps (s t : State) : Prop := ∃ k m n, t = { s with ops := k, pkts := m, stamp := n }

/-- An operation whose lines all have a translation starts by the gateways. -/
theorem startGate_starts {rs : List GateReq} (h : s.reaches o.ctx rs) : ThroughGate s (s.startGate o rs) o rs ∧ OnlyOps s (s.startGate o rs) := by
  rw [startGate_eq]
  obtain ⟨⟨m, n, hrest⟩, -, hsent⟩ := foldl_gateSend (s := { s.bump with ops := s.ops.put s.stamp { o with left := rs.length } }) (id := s.stamp) h
  refine ⟨⟨?_, hsent⟩, _, _, _, hrest⟩
  rw [hrest]
  exact SMap.find_put_self _ _ _

end

end Sys2Proof.GateProofs

namespace Sys2Proof.CollectiveProofs
open Sys2Proof Sys2Proof.Machine Sys2Proof.BringUpProofs Sys2Proof.NetworkProofs Sys2Proof.LinkProofs Sys2Proof.GateProofs

/-! SUPPORT and PROOFS. Collectives (R72 to R74, R355, R356): what the hoist handshake, an end and a transfer change. -/

/-! ## Packets to the peers (R55, R72) -/

/-- Of a state only the packets that wait at links change, and those that waited stay in front. -/
structure OnlyWaits (s t : State) : Prop where
  rest : ∃ l, t = { s with lodra := { s.lodra with links := l } }
  waits : ∀ n, ∃ ws, (t.link n).wait = (s.link n).wait ++ ws

namespace OnlyWaits
variable {s t u : State}

theorem refl (s : State) : OnlyWaits s s := ⟨⟨_, rfl⟩, fun _ => ⟨[], (List.append_nil _).symm⟩⟩

theorem trans (h : OnlyWaits s t) (h' : OnlyWaits t u) : OnlyWaits s u := by
  obtain ⟨⟨l, rfl⟩, hw⟩ := h
  obtain ⟨⟨l', rfl⟩, hw'⟩ := h'
  refine ⟨⟨l', rfl⟩, fun n => ?_⟩
  obtain ⟨ws, hws⟩ := hw n
  obtain ⟨ws', hws'⟩ := hw' n
  exact ⟨ws ++ ws', by rw [hws', hws, List.append_assoc]⟩

theorem onStrand (s : State) (route : Nat) (p : SysPkt) : OnlyWaits s (s.onStrand route p) := by
  refine ⟨⟨_, onStrand_rest s route p⟩, fun n => ?_⟩
  unfold State.onStrand
  dsimp only
  split
  · rw [link_updLink_ite]
    split
    · next h => exact ⟨_, by rw [h]⟩
    · exact ⟨[], (List.append_nil _).symm⟩
  · exact ⟨[], (List.append_nil _).symm⟩

theorem regs (h : OnlyWaits s t) : t.regs = s.regs := by obtain ⟨⟨_, rfl⟩, _⟩ := h; rfl
theorem cores (h : OnlyWaits s t) : t.cores = s.cores := by obtain ⟨⟨_, rfl⟩, _⟩ := h; rfl
theorem msys (h : OnlyWaits s t) : t.msys = s.msys := by obtain ⟨⟨_, rfl⟩, _⟩ := h; rfl
theorem colls (h : OnlyWaits s t) : t.lodra.colls = s.lodra.colls := by obtain ⟨⟨_, rfl⟩, _⟩ := h; rfl

end OnlyWaits

theorem jobRoute_of_regs {s t : State} (h : t.regs = s.regs) (ctx job dev : Nat) : t.jobRoute ctx job dev = s.jobRoute ctx job dev := by
  have hr : ∀ r lo n, t.rfld r lo n = s.rfld r lo n := rfld_of_regs h
  unfold State.jobRoute State.rteValid State.rteLctx State.rtePeer State.rteJob State.rteDrain
  simp only [hr]

theorem devId_of_regs {s t : State} (h : t.regs = s.regs) : t.devId = s.devId := rfld_of_regs h _ _ _

/-- A system packet to one peer of a collective, if it has a route. -/
def tellPeer (c : Coll) (op reason : Nat) (s : State) (d : Nat) : State :=
  if d = s.devId then s
  else match s.jobRoute c.ctx c.job d with
    | some r => s.sendSystem r op c.job c.inst reason
    | none => s

theorem tellPeers_eq (s : State) (c : Coll) (op reason : Nat) : s.tellPeers c op reason = (peersOf c.peers).foldl (tellPeer c op reason) s := by
  unfold State.tellPeers
  refine congrArg (fun f => List.foldl f s (peersOf c.peers)) (funext fun t => funext fun d => ?_ : _ = tellPeer c op reason)
  unfold tellPeer
  cases t.jobRoute c.ctx c.job d <;> rfl

theorem onlyWaits_tellPeer (c : Coll) (op reason : Nat) (s : State) (d : Nat) : OnlyWaits s (tellPeer c op reason s d) := by
  unfold tellPeer
  split
  · exact .refl s
  · split
    · exact .onStrand s _ _
    · exact .refl s

theorem onlyWaits_foldl {α : Type} {f : State → α → State} (h : ∀ s x, OnlyWaits s (f s x)) (xs : List α) (s : State) : OnlyWaits s (xs.foldl f s) := by
  induction xs generalizing s with
  | nil => exact .refl s
  | cons x xs ih => exact (h s x).trans (ih (f s x))

theorem onlyWaits_tellPeers (s : State) (c : Coll) (op reason : Nat) : OnlyWaits s (s.tellPeers c op reason) := by
  rw [tellPeers_eq]
  exact onlyWaits_foldl (onlyWaits_tellPeer c op reason) _ s

/-- A packet of a collective stands on the first live strand of a route, behind those that waited there. -/
def Told (s t : State) (c : Coll) (op reason r n : Nat) : Prop :=
  ∃ ws q, (t.link n).wait = (s.link n).wait ++ ws ∧ (r, q) ∈ ws ∧ q.op = op ∧ q.addr = c.job + c.inst * 2 ^ 16 + reason * 2 ^ 48 ∧ q.ddev = s.rtePeer r ∧ q.cls = 0

section
variable {s t u : State} {c : Coll} {op reason r n d : Nat}

theorem Told.then (h : Told s t c op reason r n) (hu : OnlyWaits t u) : Told s u c op reason r n := by
  obtain ⟨ws, q, hw, hm, hq⟩ := h
  obtain ⟨ws', hw'⟩ := hu.waits n
  exact ⟨ws ++ ws', q, by rw [hw', hw, List.append_assoc], List.mem_append_left _ hm, hq⟩

theorem Told.after (h : Told t u c op reason r n) (ht : OnlyWaits s t) : Told s u c op reason r n := by
  obtain ⟨ws, q, hw, hm, hop, haddr, hd, hcls⟩ := h
  obtain ⟨ws', hw'⟩ := ht.waits n
  exact ⟨ws' ++ ws, q, by rw [hw, hw', List.append_assoc], List.mem_append_right _ hm, hop, haddr, hd.trans (rfld_of_regs ht.regs _ _ _), hcls⟩

theorem told_tellPeer (hd : d ≠ s.devId) (hr : s.jobRoute c.ctx c.job d = some r) (hn : (s.liveStrands r)[0]? = some n) :
    Told s (tellPeer c op reason s d) c op reason r n := by
  unfold tellPeer
  rw [if_neg hd, hr]
  exact ⟨_, _, wait_onStrand (by simpa using hn), List.mem_singleton_self _, rfl, rfl, rfl, rfl⟩

/-- Every other peer that has a route with a live strand is told. -/
theorem told_foldl {ds : List Nat} (hd : d ∈ ds) (hown : d ≠ s.devId) (hr : s.jobRoute c.ctx c.job d = some r) (hn : (s.liveStrands r)[0]? = some n) :
    Told s (ds.foldl (tellPeer c op reason) s) c op reason r n := by
  induction ds generalizing s with
  | nil => cases hd
  | cons e ds ih =>
    have he := onlyWaits_tellPeer c op reason s e
    have hrest := onlyWaits_foldl (onlyWaits_tellPeer c op reason) ds (tellPeer c op reason s e)
    rcases List.mem_cons.1 hd with rfl | hmem
    · exact (told_tellPeer hown hr hn).then hrest
    · refine (ih hmem ?_ ?_ ?_).after he
      · rwa [devId_of_regs he.regs]
      · exact (jobRoute_of_regs he.regs _ _ _).trans hr
      · rwa [liveStrands_of_regs he.regs]

theorem told_tellPeers (hd : d ∈ peersOf c.peers) (hown : d ≠ s.devId) (hr : s.jobRoute c.ctx c.job d = some r) (hn : (s.liveStrands r)[0]? = some n) :
    Told s (s.tellPeers c op reason) c op reason r n := by
  rw [tellPeers_eq]
  exact told_foldl hd hown hr hn

end

/-- Every other peer of a collective with a route is told. -/
def AllTold (s t : State) (c : Coll) (op reason : Nat) : Prop :=
  ∀ d ∈ peersOf c.peers, d ≠ s.devId → ∀ r n, s.jobRoute c.ctx c.job d = some r → (s.liveStrands r)[0]? = some n → Told s t c op reason r n

theorem allTold_tellPeers (s : State) (c : Coll) (op reason : Nat) : AllTold s (s.tellPeers c op reason) c op reason :=
  fun _ hd hown _ _ hr hn => told_tellPeers hd hown hr hn

/-! ## The end of a collective (R73, R74, R337) -/

/-- A group of a collective that ends: its flag falls, and faults are owed to it. -/
def groupEnded (c : Coll) (late : List LateFault) (g : Group) : Group :=
  { g with late := g.late ++ late, flags := match c.flag with | some f => SMap.set 0 g.flags f (g.flag f - 1) | none => g.flags }

/-- The fault that a collective leaves. -/
def lateOf (c : Coll) (fault : Option (Nat × Nat)) : List LateFault :=
  match fault with
  | some (cls, detail) => [{ cls, path := c.path, pid := c.pid, pc := c.pc, va := 0, detail }]
  | none => []

/-- The collective has left the device, and its group, if it stands, has been told. -/
def Owing (s t : State) (k : Nat) (c : Coll) (late : List LateFault) : Prop := t.lodra.colls = s.lodra.colls.erase k ∧
  ∀ g, s.group? c.core c.slot = some g → g.gen = c.gen → g.team = c.team → t.group? c.core c.slot = some (groupEnded c late g)

/-- A collective that ends is forgotten, with the read of its transfer. -/
def collDropped (s : State) (k : Nat) (c : Coll) : State :=
  let s := match c.xfer with | some (.read id _) => s.dropOp id | _ => s
  { s with lodra := { s.lodra with colls := s.lodra.colls.erase k } }

/-- What a group hears of the end of a collective. -/
def groupHears (c : Coll) (fault : Option (Nat × Nat)) (g : Group) : Group :=
  let g := match c.flag with | some f => g.subFlag f | none => g
  match fault with
  | some (cls, det) => { g with late := g.late ++ [{ cls, path := c.path, pid := c.pid, pc := c.pc, va := 0, detail := det }] }
  | none => g

theorem endColl_eq (s : State) (k : Nat) (c : Coll) (fault : Option (Nat × Nat)) :
    s.endColl k c fault = (collDropped s k c).collGroup c (groupHears c fault) := rfl

theorem groupHears_eq (c : Coll) (fault : Option (Nat × Nat)) (g : Group) : groupHears c fault g = groupEnded c (lateOf c fault) g := by
  unfold groupHears groupEnded lateOf
  cases c.flag <;> rcases fault with _ | ⟨cls, det⟩ <;> simp [Group.subFlag]

theorem collGroup_sched (s : State) (c : Coll) (f : Group → Group) : ∃ cores sched, s.collGroup c f = { s with cores, sched } := by
  unfold State.collGroup State.collGroup.saved State.updTeam
  split
  · split
    · exact ⟨_, _, rfl⟩
    · exact ⟨_, _, rfl⟩
  · exact ⟨_, _, rfl⟩

theorem collDropped_rest (s : State) (k : Nat) (c : Coll) : ∃ ops, collDropped s k c = { s with ops, lodra := { s.lodra with colls := s.lodra.colls.erase k } } := by
  unfold collDropped
  dsimp only
  split <;> exact ⟨_, rfl⟩

theorem endColl_rest (s : State) (k : Nat) (c : Coll) (fault : Option (Nat × Nat)) : ∃ ops cores sched,
    s.endColl k c fault = { s with ops, cores, sched, lodra := { s.lodra with colls := s.lodra.colls.erase k } } := by
  obtain ⟨cores, sched, h⟩ := collGroup_sched (collDropped s k c) c (groupHears c fault)
  obtain ⟨ops, h'⟩ := collDropped_rest s k c
  exact ⟨ops, cores, sched, by rw [endColl_eq, h, h']⟩

theorem endColl_msys (s : State) (k : Nat) (c : Coll) (fault : Option (Nat × Nat)) : (s.endColl k c fault).msys = s.msys := by
  obtain ⟨_, _, _, h⟩ := endColl_rest s k c fault
  rw [h]

theorem endColl_link (s : State) (k : Nat) (c : Coll) (fault : Option (Nat × Nat)) (n : Nat) : (s.endColl k c fault).link n = s.link n := by
  obtain ⟨_, _, _, h⟩ := endColl_rest s k c fault
  rw [h]
  rfl

theorem owing_endColl (s : State) (k : Nat) (c : Coll) (fault : Option (Nat × Nat)) : Owing s (s.endColl k c fault) k c (lateOf c fault) := by
  obtain ⟨_, _, _, h⟩ := endColl_rest s k c fault
  refine ⟨by rw [h], fun g hg hgen hteam => ?_⟩
  obtain ⟨_, hd⟩ := collDropped_rest s k c
  have hin : (collDropped s k c).group? c.core c.slot = some g := by
    rw [hd]
    exact hg
  have heq : (collDropped s k c).collGroup c (groupHears c fault) = (collDropped s k c).updGroup c.core c.slot (groupHears c fault) := by
    unfold State.collGroup
    simp only [hin, if_pos (And.intro hgen hteam)]
  rw [endColl_eq, heq, State.group?_updGroup_self, hin, Option.map_some, groupHears_eq]

/-- The collective has ended with a fault, and no byte has changed. -/
def Ended (s t : State) (k : Nat) (c : Coll) (cls det : Nat) : Prop := SameBytes s t ∧ Owing s t k c (lateOf c (some (cls, det)))

theorem Owing.after {s t u : State} {k : Nat} {c : Coll} {late : List LateFault} (h : Owing t u k c late) (hc : t.lodra.colls = s.lodra.colls)
    (hg : t.cores = s.cores) : Owing s u k c late :=
  ⟨by rw [h.1, hc], fun g hin => h.2 g ((State.group?_of_cores hg _ _).trans hin)⟩

theorem ended_endColl (s : State) (k : Nat) (c : Coll) (cls det : Nat) : Ended s (s.endColl k c (some (cls, det))) k c cls det :=
  ⟨sameBytes_of_msys (endColl_msys s k c _), owing_endColl s k c _⟩

/-- The peers are told, and the collective ends. -/
theorem tellPeers_endColl (s : State) (k : Nat) (c : Coll) (op reason cls det : Nat) :
    Ended s ((s.tellPeers c op reason).endColl k c (some (cls, det))) k c cls det ∧ AllTold s ((s.tellPeers c op reason).endColl k c (some (cls, det))) c op reason := by
  have hw := onlyWaits_tellPeers s c op reason
  have he := ended_endColl (s.tellPeers c op reason) k c cls det
  refine ⟨⟨sameBytes_of_msys ((endColl_msys _ k c _).trans hw.msys), he.2.after hw.colls hw.cores⟩, fun d hd hown r n hr hn => ?_⟩
  obtain ⟨ws, q, hws, hq⟩ := told_tellPeers (op := op) (reason := reason) hd hown hr hn
  exact ⟨ws, q, by rw [endColl_link, hws], hq⟩

/-! ## The hoist handshake (R73, R74) -/

section
variable {s : State} {k : Nat} {c : Coll} {p : SysPkt}

/-- The collective `k` of a device has become `d`. -/
def setColl (s : State) (k : Nat) (d : Coll) : State := { s with lodra := { s.lodra with colls := s.lodra.colls.put k d } }

/-- The collectives in WAIT that this device coordinates and that a hoisted peer may belong to. -/
def coordinated (s : State) (p : SysPkt) : List (Nat × Coll) :=
  (s.collsOf p).filter fun e => e.2.st == .wait && e.2.coord == s.devId && e.2.peers.getLsbD p.sdev

/-- A collective once a peer has hoisted it. -/
def hoistedBy (c : Coll) (p : SysPkt) : Coll := { c with hoisted := c.hoisted ||| (1#64 <<< p.sdev) }

theorem hoist_counts (ha : s.arrives p = true) (hf : ((coordinated s p).find? fun e => e.2.inst == instOf p) = some (k, c)) :
    exec (.hoist p) s = .next ((setColl s k (hoistedBy c p)).tryGo k) := by
  refine (if_neg (by simp [ha])).trans ?_
  dsimp only
  split
  · next k' c' h =>
    obtain ⟨rfl, rfl⟩ : k' = k ∧ c' = c := by simpa using h.symm.trans hf
    rfl
  · next h => exact absurd (h.symm.trans hf) (by simp)

theorem hoist_aborts (ha : s.arrives p = true) (hm : coordinated s p = [(k, c)]) (hi : c.inst ≠ instOf p) :
    exec (.hoist p) s = .next ((s.tellPeers c 0x33 2).endColl k c (some (10, 0))) := by
  refine (if_neg (by simp [ha])).trans ?_
  unfold coordinated at hm
  dsimp only
  rw [hm]
  simp [hi]

/-- The coordinator of a collective that every peer has hoisted in time sends GO. -/
theorem tryGo_goes {d : Coll} (hst : d.st = .wait) (hco : d.coord = s.devId) (ht : d.timer < 1000 * d.hto) (hall : d.hoisted &&& d.peers = d.peers) :
    (setColl s k d).tryGo k = (setColl s k { d with st := .run, ranAt := s.now }).tellPeers d 0x32 0 := by
  have hlim : d.limit s.devId = 1000 * d.hto := by simp [Coll.limit, hco]
  have hput : (setColl s k d).lodra.colls.find k = some d := SMap.find_put_self _ _ _
  unfold State.tryGo
  simp only [hput]
  rw [if_pos ⟨hst, hco, by rw [← hlim] at ht; exact ht, hall⟩]
  simp only [setColl, SMap.put_put]

theorem tryGo_waits {d : Coll} (h : d.hoisted &&& d.peers ≠ d.peers ∨ 1000 * d.hto ≤ d.timer) : (setColl s k d).tryGo k = setColl s k d := by
  have hput : (setColl s k d).lodra.colls.find k = some d := SMap.find_put_self _ _ _
  unfold State.tryGo
  simp only [hput]
  refine if_neg fun ⟨_, hco, ht, hall⟩ => ?_
  rw [Coll.limit, if_pos hco] at ht
  rcases h with h | h
  · exact h hall
  · exact absurd ht (Nat.not_lt.2 h)

theorem go_starts (ha : s.arrives p = true) (hf : ((s.collsOf p).find? fun e => e.2.inst == instOf p && e.2.st == .wait && e.2.coord != s.devId &&
    decide (e.2.timer < 1000 * e.2.hto + 100000)) = some (k, c)) : exec (.go p) s = .next (setColl s k { c with st := .run, ranAt := s.now }) := by
  have hlim : (fun e : Nat × Coll => e.2.inst == instOf p && e.2.st == .wait && e.2.coord != s.devId && decide (e.2.timer < e.2.limit s.devId)) =
      fun e => e.2.inst == instOf p && e.2.st == .wait && e.2.coord != s.devId && decide (e.2.timer < 1000 * e.2.hto + 100000) := by
    funext e
    by_cases h : e.2.coord = s.devId <;> simp [Coll.limit, h]
  rw [← hlim] at hf
  refine (if_neg (by simp [ha])).trans ?_
  dsimp only
  split
  · next k' c' h =>
    obtain ⟨rfl, rfl⟩ : k' = k ∧ c' = c := by simpa using h.symm.trans hf
    rfl
  · next h => exact absurd (h.symm.trans hf) (by simp)

/-- A packet for a peer's collective means nothing to its coordinator. -/
theorem no_peer (hno : ∀ e ∈ s.collsOf p, e.2.inst = instOf p → e.2.st = .wait → e.2.coord = s.devId) {e : Nat × Coll} (he : e ∈ s.collsOf p) :
    (e.2.inst == instOf p && e.2.st == .wait && e.2.coord != s.devId) = false := by
  by_cases hi : e.2.inst = instOf p
  · by_cases hst : e.2.st = .wait
    · simp [hno e he hi hst]
    · simp [hst]
  · simp [hi]

theorem go_ignored (ha : s.arrives p = true) (hno : ∀ e ∈ s.collsOf p, e.2.inst = instOf p → e.2.st = .wait → e.2.coord = s.devId) : exec (.go p) s = .next s := by
  refine (if_neg (by simp [ha])).trans ?_
  dsimp only
  split
  · next k' c' h =>
    have hc := List.find?_some h
    have hn := no_peer hno (List.mem_of_find?_eq_some h)
    simp only [hn, Bool.false_and, Bool.false_eq_true] at hc
  · rfl

theorem abort_ignored (ha : s.arrives p = true) (hno : ∀ e ∈ s.collsOf p, e.2.inst = instOf p → e.2.st = .wait → e.2.coord = s.devId) :
    exec (.abort p) s = .next s := by
  refine (if_neg (by simp [ha])).trans ?_
  dsimp only
  split
  · next k' c' h =>
    have hc := List.find?_some h
    have hn := no_peer hno (List.mem_of_find?_eq_some h)
    simp only [hn, Bool.false_eq_true] at hc
  · rfl

theorem abort_ends (ha : s.arrives p = true)
    (hf : ((s.collsOf p).find? fun e => e.2.inst == instOf p && e.2.st == .wait && e.2.coord != s.devId) = some (k, c)) :
    exec (.abort p) s = .next (s.endColl k c (some (11, p.addr / 2 ^ 48 % 16))) := by
  refine (if_neg (by simp [ha])).trans ?_
  dsimp only
  split
  · next k' c' h =>
    obtain ⟨rfl, rfl⟩ : k' = k ∧ c' = c := by simpa using h.symm.trans hf
    rfl
  · next h => exact absurd (h.symm.trans hf) (by simp)

theorem withdraw_uncounts (ha : s.arrives p = true)
    (hf : ((s.collsOf p).find? fun e => e.2.inst == instOf p && e.2.st == .wait && e.2.coord == s.devId) = some (k, c)) :
    exec (.withdraw p) s = .next (setColl s k { c with hoisted := c.hoisted &&& ~~~(1#64 <<< p.sdev) }) := by
  refine (if_neg (by simp [ha])).trans ?_
  dsimp only
  split
  · next k' c' h =>
    obtain ⟨rfl, rfl⟩ : k' = k ∧ c' = c := by simpa using h.symm.trans hf
    rfl
  · next h => exact absurd (h.symm.trans hf) (by simp)

/-- What a coordinator sends is to the peers that its collective had. -/
theorem allTold_setColl {t : State} {d x : Coll} {op reason : Nat} (h : AllTold (setColl s k x) t d op reason) (hp : d.peers = c.peers) (hctx : d.ctx = c.ctx)
    (hjob : d.job = c.job) (hinst : d.inst = c.inst) : AllTold s t c op reason := by
  intro e he hown r n hr hn
  obtain ⟨ws, q, hw, hm, hop, haddr, hq⟩ := h e (by rwa [hp]) hown r n (by rw [hctx, hjob]; exact hr) hn
  exact ⟨ws, q, hw, hm, hop, by rw [haddr, hjob, hinst], hq⟩

theorem leaves_hoist_goes (ha : s.arrives p = true) (hf : ((coordinated s p).find? fun e => e.2.inst == instOf p) = some (k, c))
    (hall : (hoistedBy c p).hoisted &&& c.peers = c.peers) (ht : c.timer < 1000 * c.hto) : Leaves s (.hoist p) fun t =>
      t.lodra.colls.find k = some { hoistedBy c p with st := .run, ranAt := s.now } ∧ AllTold s t c 0x32 0 ∧ t.cores = s.cores ∧ SameBytes s t := by
  have hin := (List.mem_filter.1 (List.mem_of_find?_eq_some hf)).2
  simp only [Bool.and_eq_true, beq_iff_eq] at hin
  obtain ⟨⟨hst, hco⟩, -⟩ := hin
  refine ⟨_, (hoist_counts ha hf).trans (congrArg _ (tryGo_goes hst hco ht hall)), ?_⟩
  have hw := onlyWaits_tellPeers (setColl s k { hoistedBy c p with st := .run, ranAt := s.now }) (hoistedBy c p) 0x32 0
  refine ⟨?_, allTold_setColl (allTold_tellPeers _ _ _ _) rfl rfl rfl rfl, hw.cores, sameBytes_of_msys hw.msys⟩
  rw [hw.colls]
  exact SMap.find_put_self _ _ _

theorem hoistTimeout_ends (hc : s.lodra.colls.find k = some c) (hst : c.st = .wait) (ht : c.limit s.devId ≤ c.timer) :
    exec (.hoistTimeout k) s = .next ((if c.coord = s.devId then s.tellPeers c 0x33 1 else s).endColl k c (some (9, 0))) := by
  show execHoistTimeout k s = _
  unfold execHoistTimeout
  rw [hc]
  exact if_pos ⟨hst, ht⟩

theorem flowTimeout_ends (hc : s.lodra.colls.find k = some c) (hst : c.st = .run) (htx : s.lodra.tx.find k = none)
    (ht : c.ranAt + 1000 * s.rfld .lcfg 16 24 ≤ s.now) : exec (.flowTimeout k) s = .next ((s.tellPeers c 0x33 3).endColl k c (some (11, 3))) := by
  show execFlowTimeout k s = _
  unfold execFlowTimeout
  rw [hc, htx]
  exact if_pos ⟨hst, ht⟩

end

/-! ## The transfers (R356) -/

/-- A line that a run of bytes touches holds one of them. -/
theorem exists_of_mem_linesOf {a n ln : Nat} (h : ln ∈ linesOf a n) : ∃ x, a ≤ x ∧ x < a + n ∧ x / 128 = ln := by
  unfold linesOf at h
  split at h
  · cases h
  · obtain ⟨i, hi, rfl⟩ := List.mem_map.1 h
    rw [List.mem_range] at hi
    exact ⟨max a (128 * (a / 128 + i)), by omega, by omega, by omega⟩

/-- Writes to bytes whose lines all have a translation reach them. -/
theorem reaches_gateWrites {s : State} {ctx va n : Nat} (h : ∀ a, va ≤ a → a < va + n → (s.translate ctx (a / 128 * 128)).isSome = true) {bs : Bytes}
    (hn : bs.length ≤ n) : s.reaches ctx (gateWrites va bs) := by
  intro r hr
  obtain ⟨ln, hln, rfl⟩ := List.mem_map.1 hr
  obtain ⟨x, hlo, hhi, rfl⟩ := exists_of_mem_linesOf hln
  have := h x hlo (by omega)
  rwa [Nat.mul_comm] at this

/-- Elements in an order that the device chooses are the same elements. -/
theorem chosenOrder_perm {α : Type} (free n : Nat) (xs : List α) : (chosenOrder free n xs).Perm xs := by
  induction n generalizing xs with
  | zero => exact .refl _
  | succ n ih =>
    rw [chosenOrder]
    generalize Config.choice ((free + 1) * 2 ^ 64 + n) % max 1 xs.length = i
    split
    · next x hx =>
      obtain ⟨hi, rfl⟩ := List.getElem?_eq_some_iff.1 hx
      exact ((ih _).cons _).trans (List.getElem_cons_eraseIdx_perm hi)
    · exact .refl _

theorem holds_result (c : Coll) (own free : Nat) (sends : List (Nat × Bytes)) : c.holds own sends (c.result own free sends) := by
  refine ⟨chosenOrder free sends.length (sends.map Prod.snd), chosenOrder_perm _ _ _, fun h => ?_, fun h => ?_, fun h => ?_, fun h => ?_⟩
  · unfold Coll.result
    simp only [h]
    cases sends.find? fun e => e.1 == c.root <;> rfl
  · rcases h with h | h <;> simp only [Coll.result, h]
  · simp only [Coll.result, h]
  · simp only [Coll.result, h]

section
variable {s : State} {k : Nat} {c : Coll}

/-- A write of which only some bytes are to be changed. -/
def Narrows (w r : GateReq) : Prop := w.va = r.va ∧ w.data = r.data ∧ w.mask &&& ~~~r.mask = 0

theorem collWrites_agree {own : Nat} {sends : Parts} (h : ∀ e ∈ sends, e.2.length = c.count * collSize c.ty) :
    s.collWrites own c sends = gateWrites c.recv.toNat ((c.result own s.free sends).take c.recvLen) := by
  refine if_pos ?_
  simpa [Coll.agree] using h

/-- What a collective writes is, request by request, what the operation gives, of which the device may leave bytes out. -/
theorem collWrites_narrow (s : State) (own : Nat) (c : Coll) (sends : Parts) :
    List.Forall₂ Narrows (s.collWrites own c sends) (gateWrites c.recv.toNat ((c.result own s.free sends).take c.recvLen)) := by
  unfold State.collWrites
  dsimp only
  split
  · exact List.forall₂_same.2 fun r _ => ⟨rfl, rfl, by simp⟩
  · rw [List.forall₂_map_left_iff]
    refine List.forall₂_same.2 fun r _ => ⟨rfl, rfl, ?_⟩
    rw [BitVec.and_assoc, BitVec.and_comm _ (~~~ r.mask), ← BitVec.and_assoc]
    simp

/-- A buffer has come from every other peer. -/
def AllCome (s : State) (c : Coll) (parts : Parts) : Prop := ∀ d ∈ peersOf c.peers, d = s.devId ∨ ∃ e ∈ parts, e.1 = d

theorem allIn_iff {parts : Parts} : c.allIn s.devId parts = true ↔ AllCome s c parts := by simp [Coll.allIn, AllCome]

/-- A collective goes on to a transfer, and nothing else changes but operations, packets and what the device has chosen. -/
structure Transfers (s t : State) (k : Nat) (c : Coll) (x : CollXfer) : Prop where
  coll : t.lodra.colls.find k = some { c with xfer := some x }
  cores : t.cores = s.cores
  bytes : SameBytes s t

theorem transfers_of {t u : State} (x : CollXfer) (hc : s.lodra.colls.find k = some c) (hu : OnlyOps (u.setXfer k x) t) (hl : u.lodra = s.lodra)
    (hcores : u.cores = s.cores) (hm : u.msys = s.msys) : Transfers s t k c x := by
  obtain ⟨_, _, _, rfl⟩ := hu
  refine ⟨?_, hcores, sameBytes_of_msys hm⟩
  show (u.lodra.colls.upd k fun c => { c with xfer := some x }).find k = _
  rw [SMap.find_upd, if_pos rfl, hl, hc]
  rfl

variable (hc : s.lodra.colls.find k = some c)
include hc

theorem complete_waits {parts : Parts} (h : c.st ≠ .run ∨ (c.xfer = none ∧ (s.performed c.acqOps = false ∨ ¬ AllCome s c parts))) :
    exec (.collectiveComplete k parts) s = .next s := by
  show execCollectiveComplete k parts s = _
  unfold execCollectiveComplete
  rw [hc]
  by_cases hst : c.st = .run
  · obtain ⟨hx, hwait⟩ := h.resolve_left (not_not.2 hst)
    refine (if_neg (not_not.2 hst)).trans ?_
    rw [hx]
    refine if_neg fun ⟨hp, hin⟩ => ?_
    rcases hwait with hwait | hwait
    · rw [hwait] at hp
      cases hp
    · exact hwait (allIn_iff.1 hin)
  · exact if_pos hst

variable (hst : c.st = .run)
include hst

theorem complete_reads {parts : Parts} (hx : c.xfer = none) (hp : s.performed c.acqOps = true) (hall : AllCome s c parts) :
    exec (.collectiveComplete k parts) s = .next ((s.setXfer k (.read s.stamp parts)).startGate (c.xferOp .collRead c.send.toNat (c.count * collSize c.ty) [])
      (s.gateReads c.ctx c.send.toNat (c.count * collSize c.ty))) := by
  show execCollectiveComplete k parts s = _
  unfold execCollectiveComplete
  rw [hc]
  refine (if_neg (not_not.2 hst)).trans ?_
  rw [hx]
  exact if_pos ⟨hp, allIn_iff.2 hall⟩

theorem leaves_complete_reads {parts : Parts} (hx : c.xfer = none) (hp : s.performed c.acqOps = true) (hall : AllCome s c parts)
    (hr : s.reaches c.ctx (s.gateReads c.ctx c.send.toNat (c.count * collSize c.ty))) :
    Leaves s (.collectiveComplete k parts) fun t => Transfers s t k c (.read s.stamp parts) ∧
      ThroughGate s t (c.xferOp .collRead c.send.toNat (c.count * collSize c.ty) []) (s.gateReads c.ctx c.send.toNat (c.count * collSize c.ty)) := by
  obtain ⟨hgate, honly⟩ := startGate_starts (s := s.setXfer k (.read s.stamp parts)) (o := c.xferOp .collRead c.send.toNat (c.count * collSize c.ty) []) hr
  exact ⟨_, complete_reads hc hst hx hp hall, transfers_of _ hc honly rfl rfl rfl, hgate.op, hgate.sent⟩

variable {id : Nat}

/-- Every peer's SEND, in peer order: the device's own as it has been read. -/
def sendsOf (s : State) (c : Coll) (o : Op) (came : Parts) : Parts :=
  (peersOf c.peers).map fun d =>
    (d, if d = s.devId then o.bytes c.send.toNat (c.count * collSize c.ty) else ((came.find? fun e => e.1 == d).map Prod.snd).getD [])

omit hc hst in
theorem sendsOf_eq (s : State) (c : Coll) (o : Op) (came : Parts) : ((peersOf c.peers).map fun d =>
    (d, if d = s.devId then o.bytes c.send.toNat (c.count * collSize c.ty) else match came.find? fun e => e.1 == d with | some e => e.2 | none => [])) =
      sendsOf s c o came :=
  List.map_congr_left fun d _ => by cases came.find? fun e => e.1 == d <;> rfl

/-- The operation that writes RECV. -/
def recvOp (k : Nat) (c : Coll) : Op := c.xferOp (.collWrite k) c.recv.toNat c.recvLen (pagesOf c.recv.toNat c.recvLen)

theorem complete_writes {parts came : Parts} {o : Op} (hx : c.xfer = some (.read id came)) (ho : s.ops.find id = some o) (hleft : o.left = 0) (hfail : o.fail = none) :
    exec (.collectiveComplete k parts) s = .next ((((s.dropOp id).chose).setXfer k (.write s.stamp)).startGate (recvOp k c)
      ((s.dropOp id).chose.collWrites s.devId c (sendsOf s c o came))) := by
  rw [← sendsOf_eq]
  show execCollectiveComplete k parts s = _
  unfold execCollectiveComplete
  rw [hc]
  refine (if_neg (not_not.2 hst)).trans ?_
  rw [hx]
  dsimp only
  rw [ho]
  refine (if_neg (not_not.2 hleft)).trans ?_
  rw [hfail]
  rfl

theorem complete_fails {parts came : Parts} {o : Op} {cls det : Nat} {va : W64} (hx : c.xfer = some (.read id came)) (ho : s.ops.find id = some o) (hleft : o.left = 0)
    (hfail : o.fail = some (cls, va, det)) : exec (.collectiveComplete k parts) s = .next ((s.dropOp id).endColl k c (some (cls, det))) := by
  show execCollectiveComplete k parts s = _
  unfold execCollectiveComplete
  rw [hc]
  refine (if_neg (not_not.2 hst)).trans ?_
  rw [hx]
  dsimp only
  rw [ho]
  refine (if_neg (not_not.2 hleft)).trans ?_
  rw [hfail]

theorem complete_written {parts : Parts} (hx : c.xfer = some (.write id)) :
    exec (.collectiveComplete k parts) s = .next (if (s.ops.find id).isSome then s else s.endColl k c none) := by
  show execCollectiveComplete k parts s = _
  unfold execCollectiveComplete
  rw [hc]
  refine (if_neg (not_not.2 hst)).trans ?_
  rw [hx]

theorem leaves_complete_writes {parts came : Parts} {o : Op} (hx : c.xfer = some (.read id came)) (ho : s.ops.find id = some o) (hleft : o.left = 0) (hfail : o.fail = none)
    (hr : ∀ a, c.recv.toNat ≤ a → a < c.recv.toNat + c.recvLen → (s.translate c.ctx (a / 128 * 128)).isSome = true) :
    Leaves s (.collectiveComplete k parts) fun t => Transfers s t k c (.write s.stamp) ∧ ∃ bs, c.holds s.devId (sendsOf s c o came) bs ∧
      ((∀ e ∈ sendsOf s c o came, e.2.length = c.count * collSize c.ty) → ThroughGate s t (recvOp k c) (gateWrites c.recv.toNat (bs.take c.recvLen))) ∧
      ∃ ws, ThroughGate s t (recvOp k c) ws ∧ List.Forall₂ Narrows ws (gateWrites c.recv.toNat (bs.take c.recvLen)) := by
  let u : State := (s.dropOp id).chose
  let ws := u.collWrites s.devId c (sendsOf s c o came)
  have hnarrow : List.Forall₂ Narrows ws (gateWrites c.recv.toNat ((c.result s.devId u.free (sendsOf s c o came)).take c.recvLen)) := collWrites_narrow u _ _ _
  have hreach : (u.setXfer k (.write s.stamp)).reaches c.ctx ws := by
    intro w hw
    obtain ⟨i, hi, rfl⟩ := List.getElem_of_mem hw
    have hva : ws[i].va = _ := (hnarrow.get hi (hnarrow.length_eq ▸ hi)).1
    rw [hva]
    exact reaches_gateWrites (s := s) hr (List.length_take_le _ _) _ (List.getElem_mem _)
  obtain ⟨hgate, honly⟩ := startGate_starts (s := u.setXfer k (.write s.stamp)) (o := recvOp k c) hreach
  have hthrough : ThroughGate s ((u.setXfer k (.write s.stamp)).startGate (recvOp k c) ws) (recvOp k c) ws := ⟨hgate.op, hgate.sent⟩
  refine ⟨_, complete_writes hc hst hx ho hleft hfail, transfers_of _ hc honly rfl rfl rfl, _, holds_result c s.devId u.free _, fun hlen => ?_, ws, hthrough, hnarrow⟩
  rw [← collWrites_agree hlen]
  exact hthrough

end

/-! ## What the events of a collective leave -/

section
variable {s t : State} {k : Nat} {c : Coll}

/-- What an ended collective owes its group. -/
theorem Owing.group {late : List LateFault} (h : Owing s t k c late) : t.lodra.colls = s.lodra.colls.erase k ∧
    ∀ g, s.group? c.core c.slot = some g → g.gen = c.gen → g.team = c.team → ∃ h, t.group? c.core c.slot = some h ∧ h = groupEnded c late g :=
  ⟨h.1, fun g hg hgen hteam => ⟨_, h.2 g hg hgen hteam, rfl⟩⟩

theorem leaves_hoistTimeout (hc : s.lodra.colls.find k = some c) (hst : c.st = .wait) (ht : c.limit s.devId ≤ c.timer) :
    Leaves s (.hoistTimeout k) fun t => Ended s t k c 9 0 ∧ (c.coord = s.devId → AllTold s t c 0x33 1) := by
  refine ⟨_, hoistTimeout_ends hc hst ht, ?_⟩
  by_cases hco : c.coord = s.devId
  · rw [if_pos hco]
    obtain ⟨he, htold⟩ := tellPeers_endColl s k c 0x33 1 9 0
    exact ⟨he, fun _ => htold⟩
  · rw [if_neg hco]
    exact ⟨ended_endColl s k c 9 0, fun h => absurd h hco⟩

theorem Owing.of_dropOp {id : Nat} {late : List LateFault} (h : Owing (s.dropOp id) t k c late) : Owing s t k c late := h.after rfl rfl

theorem leaves_complete_fails {parts came : Parts} {o : Op} {id cls det : Nat} {va : W64} (hc : s.lodra.colls.find k = some c) (hst : c.st = .run)
    (hx : c.xfer = some (.read id came)) (ho : s.ops.find id = some o) (hleft : o.left = 0) (hfail : o.fail = some (cls, va, det)) :
    Leaves s (.collectiveComplete k parts) fun t => Ended s t k c cls det := by
  obtain ⟨hb, howing⟩ := ended_endColl (s.dropOp id) k c cls det
  exact ⟨_, complete_fails hc hst hx ho hleft hfail, hb, howing.of_dropOp⟩

theorem leaves_complete_ends {parts : Parts} {id : Nat} (hc : s.lodra.colls.find k = some c) (hst : c.st = .run) (hx : c.xfer = some (.write id))
    (ho : s.ops.find id = none) : Leaves s (.collectiveComplete k parts) fun t => Owing s t k c [] ∧ SameBytes s t :=
  ⟨_, (complete_written hc hst hx).trans (by rw [ho]; rfl), owing_endColl s k c none, sameBytes_of_msys (endColl_msys s k c none)⟩

theorem complete_writing {parts : Parts} {id : Nat} (hc : s.lodra.colls.find k = some c) (hst : c.st = .run) (hx : c.xfer = some (.write id))
    (ho : s.ops.find id ≠ none) : exec (.collectiveComplete k parts) s = .next s :=
  (complete_written hc hst hx).trans (by rw [if_pos (Option.isSome_iff_ne_none.2 ho)])

end

/-- Settles O44: the handshake, the ends and the transfers of one collective. -/
theorem collectiveEvents : Obligations.CollectiveEvents := by
  unfold Obligations.CollectiveEvents
  intro s k c hc set owing ended told
  have hended : ∀ {t : State} {cls det : Nat}, Ended s t k c cls det → ended t cls det := fun h => ⟨h.1, h.2.group⟩
  have htold : ∀ {t : State} {op reason : Nat}, AllTold s t c op reason → told t op reason := fun h => h
  refine ⟨fun p ha => ⟨fun hf => ⟨fun hno => ?_, fun hall ht => ?_⟩, fun hm hi => ?_, go_starts ha, fun hno => ⟨go_ignored ha hno, abort_ignored ha hno⟩, fun hf => ?_,
    withdraw_uncounts ha⟩, fun hst ht => ?_, fun hst htx ht => ?_, fun parts h => ?_, fun parts hst hx hp hall hr => ?_, fun id parts came o hst hx ho hleft => ⟨fun hfail hr => ?_,
    fun cls va det hfail => ?_⟩, fun id parts hst hx => ⟨fun ho => ?_, complete_writing hc hst hx⟩⟩
  · exact (hoist_counts ha hf).trans (congrArg _ (tryGo_waits hno))
  · exact leaves_hoist_goes ha hf hall ht
  · obtain ⟨he, ht⟩ := tellPeers_endColl s k c 0x33 2 10 0
    exact ⟨_, hoist_aborts ha hm hi, hended he, htold ht⟩
  · exact ⟨_, abort_ends ha hf, hended (ended_endColl s k c _ _)⟩
  · exact leaves_imp (leaves_hoistTimeout hc hst ht) fun t ⟨he, htell⟩ => ⟨hended he, htell⟩
  · obtain ⟨he, ht'⟩ := tellPeers_endColl s k c 0x33 3 11 3
    exact ⟨_, flowTimeout_ends hc hst htx ht, hended he, htold ht'⟩
  · exact complete_waits hc h
  · exact leaves_imp (leaves_complete_reads hc hst hx hp hall hr) fun t ⟨hx, hg⟩ => ⟨⟨hx.coll, hx.cores, hx.bytes⟩, hg⟩
  · refine leaves_imp (leaves_complete_writes hc hst hx ho hleft hfail hr) fun t ⟨hx, bs, hholds, hagree, ws, hg, hn⟩ => ?_
    refine ⟨⟨hx.coll, hx.cores, hx.bytes⟩, bs, hholds, hagree, ws, hg, hn.length_eq, fun j w r hw hr => ?_⟩
    obtain ⟨hj, rfl⟩ := List.getElem?_eq_some_iff.1 hw
    obtain ⟨hj', rfl⟩ := List.getElem?_eq_some_iff.1 hr
    exact hn.get hj hj'
  · exact leaves_imp (leaves_complete_fails hc hst hx ho hleft hfail) fun t he => hended he
  · exact leaves_imp (leaves_complete_ends hc hst hx ho) fun t ⟨howing, hb⟩ => ⟨howing.group, hb⟩

end Sys2Proof.CollectiveProofs

namespace Sys2Proof.CollProofs
open Sys2Proof Sys2Proof.Machine Sys2Proof.BringUpProofs Sys2Proof.NetworkProofs Sys2Proof.LinkProofs Sys2Proof.CollectiveProofs

/-! PROOFS. COLL (R72, R355): its descriptor, and the collective that it starts. -/

/-! ## The descriptor (R355; log 10) -/

section
variable {x : IssueCtx} {a : W64} {body : Nat → Act}

theorem withDescriptor_bytes {img : Nat} (h : x.p.desc = some (.bytes img)) : x.withDescriptor a body = body img := by
  unfold IssueCtx.withDescriptor
  simp only [h]

theorem withDescriptor_failed {cls det : Nat} {va : W64} (h : x.p.desc = some (.failed cls va det)) : x.withDescriptor a body = .trap cls va det := by
  unfold IssueCtx.withDescriptor
  simp only [h]

theorem withDescriptor_misaligned (h : x.p.desc = none) (ha : a.toNat % 64 ≠ 0) : x.withDescriptor a body = .trap 1 0 4 := by
  unfold IssueCtx.withDescriptor
  simp only [h]
  exact if_pos ha

theorem withDescriptor_refused {cls det : Nat} {va : W64} (h : x.p.desc = none) (ha : a.toNat % 64 = 0)
    (hl : x.laneAccess 64 1 { lane := 0, addr := a.toNat } = some (cls, va, det)) : x.withDescriptor a body = .trap cls va det := by
  unfold IssueCtx.withDescriptor
  simp only [h, hl]
  exact if_neg (not_not.2 ha)

theorem withDescriptor_reads (h : x.p.desc = none) (ha : a.toNat % 64 = 0) (hl : x.laneAccess 64 1 { lane := 0, addr := a.toNat } = none) :
    let o : Op := { x.op .descRead with lanes := [{ lane := 0, addr := a.toNat }], size := 64 }
    x.withDescriptor a body = .start ((x.s.updPath x.c.core x.c.slot x.c.path fun p => { p with desc := some .reading }).startOp o
      fun id s => s.reads id o [a.toNat / 128]) .desc := by
  unfold IssueCtx.withDescriptor
  simp only [h, hl]
  exact if_neg (not_not.2 ha)

end

/-- A field of a descriptor of 64 bytes. -/
def descAt (img lo n : Nat) : Nat := img / 2 ^ (8 * lo) % 2 ^ (8 * n)

theorem collDesc_eq (img : Nat) : collDesc img =
    { job := descAt img 0 2, op := descAt img 8 1, ty := descAt img 9 1, hto := descAt img 10 2, inst := descAt img 4 4, count := descAt img 16 8
      send := descAt img 24 8, recv := descAt img 32 8, peers := descAt img 40 8, root := descAt img 48 1
      rest := descAt img 2 2 == 0 && descAt img 12 4 == 0 && descAt img 49 15 == 0 } := by
  have h (lo n : Nat) : img / 256 ^ lo % 256 ^ n = descAt img lo n := by
    unfold descAt
    rw [pow_mul, pow_mul, show (2 : Nat) ^ 8 = 256 by rfl]
  simp only [collDesc, h]

/-- The peers of a descriptor. -/
def descPeers (img : Nat) : W64 := BitVec.ofNat 64 (descAt img 40 8)

theorem peersOf_descPeers (img : Nat) : peersOf (descPeers img) = (collDesc img).devices := by
  rw [collDesc_eq]
  refine List.filter_congr fun d hd => ?_
  rw [descPeers, BitVec.getLsbD_ofNat, decide_eq_true (List.mem_range.1 hd), Bool.true_and]

theorem getLsbD_descPeers {img own : Nat} (h : own < 64) : (descPeers img).getLsbD own = true ↔ own ∈ (collDesc img).devices := by
  rw [← peersOf_descPeers, peersOf, List.mem_filter, List.mem_range]
  exact (and_iff_right h).symm

/-- The checks that COLL makes of a descriptor, as the model makes them. -/
def collIllegal (img own : Nat) : Prop :=
  descAt img 2 2 ≠ 0 ∨ descAt img 12 4 ≠ 0 ∨ descAt img 49 15 ≠ 0 ∨ 4 < descAt img 8 1 ∨ 3 < descAt img 9 1 ∨ descAt img 16 8 = 0 ∨ 2 ^ 32 < descAt img 16 8 ∨
    (peersOf (descPeers img)).length < 2 ∨ (!(descPeers img).getLsbD own) = true ∨
    (descAt img 8 1 = 0 ∧ (!(peersOf (descPeers img)).contains (descAt img 48 1)) = true) ∨
    (descAt img 8 1 = 4 ∧ descAt img 16 8 % (peersOf (descPeers img)).length ≠ 0)

theorem collIllegal_iff {img own : Nat} (h : own < 64) : collIllegal img own ↔ ¬ (collDesc img).legal own := by
  have hown : (!(descPeers img).getLsbD own) = true ↔ own ∉ (collDesc img).devices := by rw [Bool.not_eq_true', ← Bool.not_eq_true, getLsbD_descPeers h]
  have hroot : (!(collDesc img).devices.contains (descAt img 48 1)) = true ↔ descAt img 48 1 ∉ (collDesc img).devices := by
    rw [Bool.not_eq_true', ← Bool.not_eq_true, List.contains_iff_mem]
  have hcount (n : Nat) : n = 0 ↔ ¬ 1 ≤ n := by omega
  unfold collIllegal CollFields.legal
  rw [peersOf_descPeers, hown, hroot, hcount (descAt img 16 8)]
  generalize hdev : (collDesc img).devices = devs
  rw [collDesc_eq]
  simp only [Bool.and_eq_true, beq_iff_eq, not_and_or, not_le, Classical.not_imp, or_assoc, ne_eq]

/-! ## The collective that COLL starts (R72, R73, R355) -/

/-- The collective of a descriptor. -/
def collOf (x : IssueCtx) (f : CollF) (img : Nat) : Coll :=
  { team := x.g.team, ctx := x.g.ctx, core := x.c.core, slot := x.c.slot, gen := x.g.gen, path := x.c.path, pid := x.p.born, pc := x.p.pc
    job := descAt img 0 2, inst := descAt img 4 4, op := descAt img 8 1, ty := descAt img 9 1, hto := if descAt img 10 2 = 0 then 1000 else descAt img 10 2
    count := descAt img 16 8, send := BitVec.ofNat 64 (descAt img 24 8), recv := BitVec.ofNat 64 (descAt img 32 8), peers := descPeers img, root := descAt img 48 1
    flag := x.flagOf f.l, rel := f.r == 1, scope := f.g, hoisted := 1#64 <<< x.s.devId, acqOps := if f.e = 1 then x.coveredSet 2 f.g.toNat else [] }

/-- The state once a collective stands, before its coordinator is told: its completion flag rises, and its path needs the descriptor no more. -/
def collStands (x : IssueCtx) (f : CollF) (img : Nat) : State :=
  let s : State := { x.s.bump with lodra := { x.s.lodra with colls := x.s.lodra.colls.put x.s.stamp (collOf x f img) } }
  let s := match x.flagOf f.l with | some k => s.updGroup x.c.core x.c.slot fun g => g.addFlag k | none => s
  s.updPath x.c.core x.c.slot x.c.path fun p => { p with desc := none }

/-- The effect of a COLL: a peer that is not the coordinator tells it. -/
def collEffect (x : IssueCtx) (f : CollF) (img : Nat) : State :=
  let s := collStands x f img
  if (collOf x f img).coord = x.s.devId then s
  else (s.jobRoute x.g.ctx (descAt img 0 2) (collOf x f img).coord).elim s fun r => s.sendSystem r 0x31 (descAt img 0 2) (descAt img 4 4) 0

theorem onlyWaits_collEffect (x : IssueCtx) (f : CollF) (img : Nat) : OnlyWaits (collStands x f img) (collEffect x f img) := by
  unfold collEffect
  dsimp only
  split
  · exact .refl _
  · cases (collStands x f img).jobRoute x.g.ctx (descAt img 0 2) (collOf x f img).coord with
    | none => exact .refl _
    | some r => exact .onStrand _ _ _

theorem colls_collEffect (x : IssueCtx) (f : CollF) (img : Nat) : (collEffect x f img).lodra.colls.find x.s.stamp = some (collOf x f img) := by
  have hcolls : (collStands x f img).lodra.colls = x.s.lodra.colls.put x.s.stamp (collOf x f img) := by
    unfold collStands
    cases x.flagOf f.l <;> rfl
  rw [(onlyWaits_collEffect x f img).colls, hcolls]
  exact SMap.find_put_self _ _ _

theorem msys_collEffect (x : IssueCtx) (f : CollF) (img : Nat) : (collEffect x f img).msys = x.s.msys := by
  refine (onlyWaits_collEffect x f img).msys.trans ?_
  unfold collStands
  cases x.flagOf f.l <;> rfl

/-- A group once a collective of a path stands: its completion flag is raised, and the path needs its descriptor no more. -/
def standsGroup (g : Group) (flag : Option Nat) (path : Nat) : Group :=
  (match flag with | some k => g.addFlag k | none => g).updPath path fun p => { p with desc := none }

theorem group_collEffect {x : IssueCtx} {g : Group} (f : CollF) (img : Nat) (hg : x.s.group? x.c.core x.c.slot = some g) :
    (collEffect x f img).group? x.c.core x.c.slot = some (standsGroup g (x.flagOf f.l) x.c.path) := by
  refine (State.group?_of_cores (onlyWaits_collEffect x f img).cores _ _).trans ?_
  unfold collStands State.updPath
  rw [State.group?_updGroup_self]
  cases x.flagOf f.l with
  | none => exact congrArg (Option.map _) hg
  | some k =>
    dsimp only
    rw [State.group?_updGroup_self]
    exact congrArg (fun o => Option.map _ (Option.map _ o)) hg

theorem flag_standsGroup (g : Group) (flag : Option Nat) (path k : Nat) : (standsGroup g flag path).flag k = g.flag k + if flag = some k then 1 else 0 := by
  cases flag with
  | none => rfl
  | some j =>
    change SMap.get 0 (SMap.set 0 g.flags j (g.flag j + 1)) k = _
    rw [SMap.get_set]
    by_cases h : k = j
    · simp [h]
    · rw [if_neg h, if_neg (by simpa using Ne.symm h)]
      rfl

theorem desc_standsGroup {g : Group} (flag : Option Nat) {path : Nat} (h : (g.path path).desc ≠ none) : ((standsGroup g flag path).path path).desc = none := by
  have hlen : path < g.paths.length := by
    by_contra hge
    exact h (by rw [Group.path, List.getElem?_eq_none (not_lt.1 hge)]; rfl)
  have hpaths : (match flag with | some k => g.addFlag k | none => g).paths = g.paths := by cases flag <;> rfl
  unfold standsGroup
  rw [path_updPath _ _ _ _ (by rw [hpaths]; exact hlen), if_pos rfl]

/-- No flag that an instruction raises is full. -/
theorem flagFull_eq_none {x : IssueCtx} {flag : Option Nat} (h : ∀ k, flag = some k → x.g.flag k < 255) : x.flagFull flag = none := by
  cases flag with
  | none => rfl
  | some k => exact if_neg (Nat.not_le.2 (h k rfl))

theorem not_of_true {b : Bool} (h : b = true) : ¬ (!b) = true := by simp [h]

theorem not_unrouted {s : State} {ctx job : Nat} {ds : List Nat} (h : ∀ d ∈ ds, d ≠ s.devId → (s.jobRoute ctx job d).isSome = true) :
    ¬ (ds.any fun d => d != s.devId && (s.jobRoute ctx job d).isNone) = true := by
  intro hany
  obtain ⟨d, hd, hb⟩ := List.any_eq_true.1 hany
  rw [Bool.and_eq_true, bne_iff_ne, Option.isNone_iff_eq_none] at hb
  have := h d hd hb.1
  rw [hb.2] at this
  cases this

theorem not_repeated {cs : List (Nat × Coll)} {job inst : Nat} (h : ∀ y ∈ cs, ¬ (y.2.job = job ∧ y.2.inst = inst)) :
    ¬ (cs.any fun y => y.2.job == job && y.2.inst == inst) = true := by
  intro hany
  obtain ⟨y, hy, hb⟩ := List.any_eq_true.1 hany
  rw [Bool.and_eq_true, beq_iff_eq, beq_iff_eq] at hb
  exact h y hy hb

/-- An instruction that must wait for what it has started parks its path. -/
theorem issue_starts {s t : State} {c : Cur} {g : Group} {inf : Group → Info} {body : IssueCtx → Act} {code : Option Nat} {a : Await} (hc : code = none)
    (hi : Issues s c g (inf g)) (hb : body (s.issuing c g) = .start t a) : issue s code inf body = .next (t.parkPath c a) := by
  subst hc
  rw [issue_issues hi, hb]
  rfl

section
variable {s : State} {c : Cur} {g : Group} {f : CollF} {img : Nat} (hi : Issues s c g { sp := f.sp == 1 }) (hcode : (Instr.coll f).illegalCode = none)
  (hw : (s.issuing c g).sWait [f.b.toNat, f.b.toNat + 1] = none)
include hi hcode hw

theorem coll_misaligned (hp : (g.path c.path).desc = none) (ha : (g.spair f.b.toNat).toNat % 64 ≠ 0) : Traps s c g (.coll f) 1 0 4 := by
  refine traps_of (inf := oneInf f.sp) rfl hcode hi ?_
  simp only [hw]
  exact withDescriptor_misaligned hp ha

theorem coll_refused (hp : (g.path c.path).desc = none) (ha : (g.spair f.b.toNat).toNat % 64 = 0) {cls det : Nat} {va : W64}
    (hl : (s.issuing c g).laneAccess 64 1 { lane := 0, addr := (g.spair f.b.toNat).toNat } = some (cls, va, det)) : Traps s c g (.coll f) cls va det := by
  refine traps_of (inf := oneInf f.sp) rfl hcode hi ?_
  simp only [hw]
  exact withDescriptor_refused hp ha hl

theorem coll_failed {cls det : Nat} {va : W64} (hp : (g.path c.path).desc = some (.failed cls va det)) : Traps s c g (.coll f) cls va det := by
  refine traps_of (inf := oneInf f.sp) rfl hcode hi ?_
  simp only [hw]
  exact withDescriptor_failed hp

theorem coll_reads (hp : (g.path c.path).desc = none) (ha : (g.spair f.b.toNat).toNat % 64 = 0)
    (hl : (s.issuing c g).laneAccess 64 1 { lane := 0, addr := (g.spair f.b.toNat).toNat } = none) :
    let o : Op := { (s.issuing c g).op .descRead with lanes := [{ lane := 0, addr := (g.spair f.b.toNat).toNat }], size := 64 }
    exec (.coll f) s = .next (((s.withPath c fun p => { p with desc := some .reading }).startOp o fun id s =>
      s.reads id o [(g.spair f.b.toNat).toNat / 128]).parkPath c .desc) := by
  intro o
  refine issue_starts (inf := oneInf f.sp) hcode hi ?_
  simp only [hw]
  exact withDescriptor_reads hp ha hl

variable (hd : (g.path c.path).desc = some (.bytes img))
include hd

theorem coll_illegal (h : collIllegal img s.off.devId) : Traps s c g (.coll f) 1 0 4 := by
  refine traps_of (inf := oneInf f.sp) rfl hcode hi ?_
  simp only [hw]
  rw [withDescriptor_bytes hd]
  exact if_pos h

variable (hlegal : ¬ collIllegal img s.off.devId)
include hlegal

theorem coll_unreadable (h : s.off.mayRange (s.grid g.grid) 1 (descAt img 24 8) (descAt img 16 8 * collSize (descAt img 9 1)) = false) :
    Traps s c g (.coll f) 3 (BitVec.ofNat 64 (descAt img 24 8)) 0 := by
  refine traps_of (inf := oneInf f.sp) rfl hcode hi ?_
  simp only [hw]
  rw [withDescriptor_bytes hd]
  exact (if_neg hlegal).trans (if_pos (by rw [Bool.not_eq_true']; exact h))

variable (hread : s.off.mayRange (s.grid g.grid) 1 (descAt img 24 8) (descAt img 16 8 * collSize (descAt img 9 1)) = true)
include hread

theorem coll_unwritable (h : s.off.mayRange (s.grid g.grid) 2 (descAt img 32 8)
      (collRecvCount (descAt img 8 1) (descAt img 16 8) (peersOf (descPeers img)).length * collSize (descAt img 9 1)) = false) :
    Traps s c g (.coll f) 3 (BitVec.ofNat 64 (descAt img 32 8)) 0 := by
  refine traps_of (inf := oneInf f.sp) rfl hcode hi ?_
  simp only [hw]
  rw [withDescriptor_bytes hd]
  exact (if_neg hlegal).trans ((if_neg (not_of_true hread)).trans (if_pos (by rw [Bool.not_eq_true']; exact h)))

variable (hwrite : s.off.mayRange (s.grid g.grid) 2 (descAt img 32 8)
  (collRecvCount (descAt img 8 1) (descAt img 16 8) (peersOf (descPeers img)).length * collSize (descAt img 9 1)) = true)
include hwrite

theorem coll_unrouted (h : ∃ d ∈ peersOf (descPeers img), d ≠ s.off.devId ∧ (s.off.jobRoute g.ctx (descAt img 0 2) d).isNone = true) :
    Traps s c g (.coll f) 8 0 0 := by
  refine traps_of (inf := oneInf f.sp) rfl hcode hi ?_
  simp only [hw]
  rw [withDescriptor_bytes hd]
  refine (if_neg hlegal).trans ((if_neg (not_of_true hread)).trans ((if_neg (not_of_true hwrite)).trans (if_pos ?_)))
  obtain ⟨d, hd, hne, hr⟩ := h
  exact List.any_eq_true.2 ⟨d, hd, by rw [Bool.and_eq_true]; exact ⟨bne_iff_ne.2 hne, hr⟩⟩

variable (hroute : ∀ d ∈ peersOf (descPeers img), d ≠ s.off.devId → (s.off.jobRoute g.ctx (descAt img 0 2) d).isSome = true)
include hroute

theorem coll_repeated (h : ∃ y ∈ s.lodra.colls.filter fun y => y.2.team == g.team, y.2.job = descAt img 0 2 ∧ y.2.inst = descAt img 4 4) :
    Traps s c g (.coll f) 10 0 0 := by
  refine traps_of (inf := oneInf f.sp) rfl hcode hi ?_
  simp only [hw]
  rw [withDescriptor_bytes hd]
  refine (if_neg hlegal).trans ((if_neg (not_of_true hread)).trans ((if_neg (not_of_true hwrite)).trans ((if_neg (not_unrouted hroute)).trans (if_pos ?_))))
  obtain ⟨y, hy, hjob, hinst⟩ := h
  exact List.any_eq_true.2 ⟨y, hy, by rw [Bool.and_eq_true]; exact ⟨beq_iff_eq.2 hjob, beq_iff_eq.2 hinst⟩⟩

variable (hnew : ∀ y ∈ s.lodra.colls.filter fun y => y.2.team == g.team, ¬ (y.2.job = descAt img 0 2 ∧ y.2.inst = descAt img 4 4))
include hnew

theorem coll_third (h : 2 ≤ (s.lodra.colls.filter fun y => y.2.team == g.team).length) : Parks s c (.coll f) .collRoom := by
  refine parks_of (inf := oneInf f.sp) rfl hcode hi ?_
  simp only [hw]
  rw [withDescriptor_bytes hd]
  exact (if_neg hlegal).trans ((if_neg (not_of_true hread)).trans ((if_neg (not_of_true hwrite)).trans ((if_neg (not_unrouted hroute)).trans
    ((if_neg (not_repeated hnew)).trans (if_pos h)))))

theorem coll_act (h : (s.lodra.colls.filter fun y => y.2.team == g.team).length < 2) (hfull : ∀ k, (s.issuing c g).flagOf f.l = some k → g.flag k < 255) :
    Retires s c g (.coll f) { sp := f.sp == 1 } (collEffect (s.issuing c g) f img) := by
  refine retires_of (inf := oneInf f.sp) rfl hcode hi ?_ (group_collEffect f img hi.group)
  simp only [hw]
  rw [withDescriptor_bytes hd]
  refine (if_neg hlegal).trans ((if_neg (not_of_true hread)).trans ((if_neg (not_of_true hwrite)).trans ((if_neg (not_unrouted hroute)).trans
    ((if_neg (not_repeated hnew)).trans ((if_neg (Nat.not_le.2 h)).trans ?_)))))
  rw [flagFull_eq_none hfull]
  refine congrArg Act.done ?_
  unfold collEffect collStands collOf descPeers descAt
  dsimp only
  generalize (s.issuing c g).flagOf f.l = flag
  generalize State.jobRoute _ _ _ _ = route
  cases flag <;> cases route <;> rfl

end

/-- Settles O22: each check of COLL by its own lemma, and the collective that a legal descriptor leaves. -/
theorem collectivesStart : Obligations.CollectivesStart := by
  unfold Obligations.CollectivesStart
  intro f s c g hcode hi x a l p hw
  refine ⟨coll_misaligned hi hcode hw, fun hp ha cls det va hl => coll_refused hi hcode hw hp ha hl, fun hp ha hl => coll_reads hi hcode hw hp ha hl,
    fun cls va det hp => coll_failed hi hcode hw hp, fun img hd => ?_⟩
  have hlegal := collIllegal_iff (img := img) (rfld_lt s.off .lcfg 0 6)
  have hpeers := peersOf_descPeers img
  rw [collDesc_eq] at hlegal hpeers ⊢
  intro d own mine reads writes routed new
  have hok (h : d.legal own) : ¬ collIllegal img own := fun hill => hlegal.1 hill h
  have hwrites : writes ↔ s.off.mayRange (s.grid g.grid) 2 (descAt img 32 8)
      (collRecvCount (descAt img 8 1) (descAt img 16 8) (peersOf (descPeers img)).length * collSize (descAt img 9 1)) = true := by rw [hpeers]
  have hrouted : routed ↔ ∀ n ∈ peersOf (descPeers img), n ≠ own → (s.off.jobRoute g.ctx (descAt img 0 2) n).isSome = true := by rw [hpeers]
  refine ⟨fun h => coll_illegal hi hcode hw hd (hlegal.2 h), fun h hr => coll_unreadable hi hcode hw hd (hok h) (Bool.eq_false_iff.2 hr),
    fun h hr hwr => coll_unwritable hi hcode hw hd (hok h) hr (Bool.eq_false_iff.2 fun ht => hwr (hwrites.2 ht)), fun h hr hwr hro => ?_, fun h hr hwr hro hn => ?_,
    fun h hr hwr hro hn hm => coll_third hi hcode hw hd (hok h) hr (hwrites.1 hwr) (hrouted.1 hro) hn hm, fun h hr hwr hro hn hm hfull => ?_⟩
  · refine coll_unrouted hi hcode hw hd (hok h) hr (hwrites.1 hwr) ?_
    by_contra hall
    refine hro (hrouted.2 fun n hn hne => ?_)
    by_contra hnone
    exact hall ⟨n, hn, hne, by simpa using hnone⟩
  · refine coll_repeated hi hcode hw hd (hok h) hr (hwrites.1 hwr) (hrouted.1 hro) ?_
    by_contra hall
    exact hn fun y hy hsame => hall ⟨y, hy, hsame⟩
  · exact ⟨collEffect x f img, collOf x f img, standsGroup g (x.flagOf f.l) c.path,
      coll_act hi hcode hw hd (hok h) hr (hwrites.1 hwr) (hrouted.1 hro) hn hm hfull, colls_collEffect x f img,
      sameBytes_of_msys (msys_collEffect x f img), group_collEffect f img hi.group,
      desc_standsGroup _ (by change p.desc ≠ none; rw [hd]; exact Option.some_ne_none _), flag_standsGroup g _ _,
      rfl, rfl, rfl, rfl, rfl, rfl, rfl, rfl, rfl, rfl, rfl, rfl, rfl⟩

end Sys2Proof.CollProofs

namespace Sys2Proof.CommandProofs
open Sys2Proof Sys2Proof.Machine

/-! PROOFS. Guest commands (R85 to R88): the end of a COPYH may complete a WAITSEM of its own queue. -/

/-- The bytes of a command: an opcode, and fields at their byte offsets. -/
def commandBytes (opc : Nat) (fs : List (Nat × Nat)) : BitVec 512 := BitVec.ofNat 512 (fs.foldl (fun n e => n + e.2 * 2 ^ (8 * e.1)) opc)

/-- A COPYH of 256 bytes from 0x1100 that has moved them all, and adds 1 to semaphore 0 when it ends. -/
def endingCopyh : Cmd :=
  { queue := 0, ctx := 0, index := 1, bytes := commandBytes 2 [(8, 0x1100), (32, 256), (40, 1)], lease := some 0, st := .started, progress := 256 }

/-- A WAITSEM behind it in its queue, which waits for semaphore 0 to reach 1. -/
def heldWaitsem : Cmd := { queue := 0, ctx := 0, index := 2, bytes := commandBytes 6 [(16, 1)], st := .waiting }

/-- The two commands in a device whose context 0 has queue pair 0 and a LIVE lease over the COPYH's range. -/
def semaphoreRise : State :=
  { ({} : State) with
    sched := { ({} : Sched) with cmds := [(5, endingCopyh), (6, heldWaitsem)] }
    host := { ({} : HostPort) with qps := [(16, {})] }
    msys := { ({} : MemSys) with leases := [(leaseKey 0 0, { st := 2, base := 0x1000, len := 0x1000, rights := 3, frames := [0] })] } }

theorem endingCopyh_moved : endingCopyh.opc = 2 ∧ endingCopyh.st = .started ∧ endingCopyh.phase = .idle ∧ endingCopyh.fld 32 4 ≤ endingCopyh.progress := by
  decide +kernel

/-- The COPYH raises the semaphore as it ends (R87), and the WAITSEM completes with it: two completions of one queue. -/
theorem semaphoreRise_completes_both : ∃ t, exec (.copyh 5) semaphoreRise = .next t ∧ t.rfld (.hqdone 0) 0 32 = 2 := by
  refine ⟨_, rfl, ?_⟩
  decide +kernel

/-- Refutes O39: a COPYH that ends completes a WAITSEM of its own queue, whose completion count (R81) then rises by two, where the
statement claims one. -/
theorem not_guestCommands : ¬ Obligations.GuestCommands := by
  unfold Obligations.GuestCommands
  intro h
  obtain ⟨-, -, hcopyh, -⟩ := h semaphoreRise 5 endingCopyh rfl (by decide) (by decide)
  obtain ⟨hopc, hst, hphase, hmoved⟩ := endingCopyh_moved
  obtain ⟨-, hrun⟩ := hcopyh {} (by decide) (by decide +kernel)
  obtain ⟨-, -, -, hend⟩ := hrun hopc hst
  obtain ⟨t, ht, -, hcount⟩ := hend hphase hmoved
  obtain ⟨u, hu, htwo⟩ := semaphoreRise_completes_both
  obtain rfl : t = u := by
    have := ht.symm.trans hu
    injection this
  exact absurd (htwo.symm.trans hcount) (by decide)

end Sys2Proof.CommandProofs
